-- ==== Sys2Proof/Word.lean ====
section
/-! DEFINITION. The word types of the board and the sparse map that holds every large piece of state.
A sparse map lists only the keys whose value differs from a default the reader supplies. -/

namespace Sys2Proof

/-- A byte. -/
abbrev Byte := BitVec 8
/-- A 32-bit word: an instruction word, an f register, an FP32 value. -/
abbrev W32 := BitVec 32
/-- A 64-bit word: an x register, a system register, a descriptor word. -/
abbrev W64 := BitVec 64
/-- One 128-byte cache line, byte 0 in bits 7..0 (R10: little-endian). -/
abbrev LineData := BitVec 1024
/-- One bit for each byte of a line. -/
abbrev LineMask := BitVec 128

/-- A finite map in ONE canonical form: keys strictly rising, no entry equal to the default. -/
abbrev SMap (α : Type) := List (Nat × α)

end Sys2Proof
end

