-- ==== Sys2Proof/Machine/Bits.lean ====
section
/-! DEFINITION. Bit fields, byte order and the operations of the sparse map (R9, R10). -/

namespace Sys2Proof

/-- The value at key `i`, or the default. -/
def SMap.get {α : Type} (d : α) : SMap α → Nat → α
  | [], _ => d
  | (k, v) :: m, i => if i = k then v else SMap.get d m i

/-- Put a value at a key, keeping the keys in rising order. -/
def SMap.put {α : Type} : SMap α → Nat → α → SMap α
  | [], i, v => [(i, v)]
  | (k, w) :: m, i, v =>
    if i < k then (i, v) :: (k, w) :: m
    else if i = k then (i, v) :: m
    else (k, w) :: SMap.put m i v

/-- Remove a key. -/
def SMap.del {α : Type} (m : SMap α) (i : Nat) : SMap α := m.filter (fun p => p.1 != i)

/-- Write a value: writing the default removes the entry, so that equal maps are equal lists. -/
def SMap.set {α : Type} [DecidableEq α] (d : α) (m : SMap α) (i : Nat) (v : α) : SMap α :=
  if v = d then m.del i else m.put i v

/-- Change the value at a key. -/
def SMap.upd {α : Type} [DecidableEq α] (d : α) (m : SMap α) (i : Nat) (g : α → α) : SMap α :=
  m.set d i (g (m.get d i))

/-- The canonical form: keys strictly rising, no value equal to its key's default. -/
def SMap.wf {α : Type} [DecidableEq α] (d : Nat → α) : SMap α → Bool
  | [] => true
  | [(k, v)] => v != d k
  | (k, v) :: (k', v') :: m => v != d k && decide (k < k') && SMap.wf d ((k', v') :: m)

/-- Bits [hi:lo] of a number (R9). -/
def bitsOf (w hi lo : Nat) : Nat := (w >>> lo) % 2 ^ (hi + 1 - lo)

/-- Bit `i` of a number. -/
def bitOf (w i : Nat) : Bool := w.testBit i

/-- A Bool as 0 or 1. -/
def b2n (b : Bool) : Nat := if b then 1 else 0

/-- The two's complement value of the low `n` bits. -/
def signed (n w : Nat) : Int :=
  let v := w % 2 ^ n
  if v < 2 ^ (n - 1) then (v : Int) else (v : Int) - 2 ^ n

/-- A number as a 64-bit word. -/
def w64 (n : Nat) : W64 := BitVec.ofNat 64 n

/-- An integer as a 64-bit word, modulo 2^64. -/
def w64i (i : Int) : W64 := BitVec.ofInt 64 i

/-- Sign extension of a field into 64 bits. -/
def sext64 {n : Nat} (b : BitVec n) : W64 := b.signExtend 64

/-- Zero extension of a field into 64 bits. -/
def zext64 {n : Nat} (b : BitVec n) : W64 := b.setWidth 64

/-- Little-endian bytes of a number (R10). -/
def leBytes : Nat → Nat → List Byte
  | 0, _ => []
  | n + 1, w => BitVec.ofNat 8 w :: leBytes n (w / 256)

/-- The number that little-endian bytes hold (R10). -/
def ofLe : List Byte → Nat
  | [] => 0
  | b :: bs => b.toNat + 256 * ofLe bs

/-- Big-endian bytes (the hash functions' order). -/
def beBytes (n w : Nat) : List Byte := (leBytes n w).reverse

/-- The number that big-endian bytes hold. -/
def ofBe (bs : List Byte) : Nat := ofLe bs.reverse

/-- A range of consecutive numbers. -/
def rangeFrom (a n : Nat) : List Nat := (List.range n).map (a + ·)

/-- Round up to a multiple. -/
def roundUp (a m : Nat) : Nat := (a + m - 1) / m * m

/-- The CRC-32C of bytes (Castagnoli polynomial, reflected). -/
def crcByte (crc : Nat) (b : Byte) : Nat :=
  (List.range 8).foldl
    (fun c _ => if c % 2 = 1 then (c / 2) ^^^ 0x82F63B78 else c / 2) (crc ^^^ b.toNat)

/-- CRC-32C (R309, R369, R416). -/
def crc32c (bs : List Byte) : Nat := (bs.foldl crcByte 0xFFFFFFFF) ^^^ 0xFFFFFFFF

/-- Bytes of a sparse byte map from address `a`. -/
def readBytes (m : SMap Byte) (a n : Nat) : List Byte := (rangeFrom a n).map (SMap.get 0 m)

/-- Write bytes into a sparse byte map from address `a` upward. -/
def writeBytes (m : SMap Byte) (a : Nat) : List Byte → SMap Byte
  | [] => m
  | b :: bs => writeBytes (m.set 0 a b) (a + 1) bs

/-- The masked merge of a line: bytes whose mask bit is 1 come from `new`. -/
def byteMask (m : LineMask) : LineData :=
  BitVec.ofNat 1024 (ofLe ((List.range 128).map fun i => if m.getLsbD i then (255 : Byte) else 0))

/-- Bytes of `new` under the mask, the rest of `old`. -/
def mergeLine (old new : LineData) (m : LineMask) : LineData :=
  (old &&& ~~~(byteMask m)) ||| (new &&& byteMask m)

/-- The mask of `n` bytes from offset `off`. -/
def spanMask (off n : Nat) : LineMask := BitVec.ofNat 128 ((2 ^ n - 1) <<< off)

/-- `n` bytes at offset `off` of a line, as a number. -/
def lineGet (l : LineData) (off n : Nat) : Nat := bitsOf l.toNat (8 * (off + n) - 1) (8 * off)

/-- A number as `n` bytes at offset `off` of a line. -/
def lineAt (off v : Nat) : LineData := BitVec.ofNat 1024 (v <<< (8 * off))

/-- Add, held at a maximum. -/
def satAdd (a b max : Nat) : Nat := min (a + b) max

end Sys2Proof
end

