-- ==== Sys2Proof/Syntax.lean ====
section
/-! DEFINITION. The commands of the board: one constructor of `Instr` per row of the opcode table.
A core command names the core that executes the instruction at its PC and gives the fields of the
instruction word (R27, R109, R140, R173, R174, R215, R247); an event command names the unit it reaches. -/

namespace Sys2Proof

/-- A core by its place on the board (R14, R16): a compute core by die, PHYSICAL atoll position and core;
a mainland general core; a die controller; the service core. -/
inductive CoreId where
  | compute (die : Fin 4) (pos : Fin 9) (core : Fin 16)
  | general (i : Fin 16)
  | dieCtl (die : Fin 4)
  | service
  deriving DecidableEq, Repr

/-- A 5-bit register field. -/
abbrev Reg := BitVec 5

/-- The three writing forms of a system register access (R49). -/
inductive SrOp where
  | srw | srset | srclr
  deriving DecidableEq, Repr

/-- Scopes of fences and range instructions (R246, R247). -/
inductive Scope where
  | core | atoll | die | board
  deriving DecidableEq, Repr

/-- Fields of an element-wise vector instruction, majors 0x30 and 0x31 (R109). `stop` is the model's own
operand: the number of granules after which an interrupt or halt arrives (R90); none when none does. -/
structure VArgs where
  native : Bool
  dD : BitVec 5
  dA : BitVec 5
  dB : BitVec 5
  mask : BitVec 3
  ty : BitVec 2
  tap : Bool
  stop : Option Nat
  deriving DecidableEq, Repr

/-- Fields of a compare or mask-logic instruction, major 0x32 (R109, R114). -/
structure CmpArgs where
  native : Bool
  md : BitVec 3
  dA : BitVec 5
  dB : BitVec 5
  mask : BitVec 3
  ty : BitVec 2
  stop : Option Nat
  deriving DecidableEq, Repr

/-- Fields of a major 0x33 instruction (R109, R115). -/
structure WideArgs where
  native : Bool
  dD : BitVec 5
  dA : BitVec 5
  dB : BitVec 5
  mask : BitVec 3
  ty : BitVec 2
  stop : Option Nat
  deriving DecidableEq, Repr

/-- Fields of RED, major 0x34 (R109, R120). -/
structure RedArgs where
  native : Bool
  dA : BitVec 5
  acc : BitVec 2
  op : BitVec 3
  mask : BitVec 3
  ty : BitVec 2
  stop : Option Nat
  deriving DecidableEq, Repr

/-- Fields of a compat-form instruction, major 0x36 (R109, R117). -/
structure CompatArgs where
  dD : BitVec 4
  dA : BitVec 4
  dB : BitVec 4
  count : BitVec 10
  stop : Option Nat
  deriving DecidableEq, Repr

/-- Fields of MMF and MMGATHER, major 0x3D (R174). `x` is KEEP and zero for MMF, NW − 1 for MMGATHER. -/
structure MmArgs where
  arr : Fin 2
  t : BitVec 4
  w : BitVec 2
  z : BitVec 3
  acc : Bool
  rel : Bool
  deriving DecidableEq, Repr

/-- Fields of MMBWD (R215). -/
structure BwdArgs where
  dy : BitVec 4
  dx : BitVec 4
  w : BitVec 2
  z : BitVec 3
  acc : Bool
  keep : Bool
  tw : Bool
  rely : Bool
  relx : Bool
  deriving DecidableEq, Repr

/-- A fence as a core runs it: the core, and where an interrupt stops it, the visits that its passes make before that (R249). -/
structure FenceRun where
  core : CoreId
  stop : Option Nat
  deriving DecidableEq, Repr

/-- A strait frame as it stands on the wire (R309): the header fields and the payload. -/
structure Frame where
  type : BitVec 8
  last : Bool
  absent : Bool
  epoch : BitVec 16
  step : BitVec 32
  src : BitVec 16
  dst : BitVec 16
  seg : BitVec 32
  fidx : BitVec 16
  len : BitVec 16
  fmt : BitVec 8
  ngrp : BitVec 8
  hops : BitVec 8
  lseq : BitVec 16
  payload : List Byte
  deriving DecidableEq, Repr

/-- What the error correction of a codeword finds: nothing, errors that it corrects, or more than it can (R307). -/
inductive Codeword where
  | clean | corrected | uncorrectable
  deriving DecidableEq, Repr

/-- What a control codeword carries (R308): the acknowledged and the refused sequence number, and credits. -/
structure Control where
  ack : Option (BitVec 16)
  nak : Option (BitVec 16)
  payloadCredits : BitVec 12
  headerCredits : BitVec 8
  deriving DecidableEq, Repr

/-- A frame's receipt: the CRC in its trailer, and what the error correction of its codewords finds (R309, R311). -/
structure Receipt where
  crc : W32
  fec : Codeword
  /-- header of the cell in which the frame starts: KIND, START, CSEQ (R308) -/
  cell : BitVec 20
  deriving DecidableEq, Repr

/-- A control codeword as it is received (R307, R308). -/
structure ControlCell where
  content : Control
  fec : Codeword
  deriving DecidableEq, Repr

/-- What the peer presents and measures while a port trains (R314, R316, R433, R434). -/
structure TrainResult where
  lanesUp : Bool
  moduleOk : Bool
  berOk : Bool
  peerKeptState : Bool
  peerExpects : BitVec 16
  deriving DecidableEq, Repr

/-- The reset a PCIe port sees, or a request the front end sends (R435). -/
inductive PcieRequest where
  | read (off len : Nat)
  | write (off : Nat) (bytes : List Byte)
  | doorbell (off : Nat) (bytes : List Byte)
  | configRead (off : Nat)
  | configWrite (off : Nat) (v : W32)
  | enterD3hot
  | enterD0
  | linkError (correctable : Bool) (port : BitVec 16)
  deriving DecidableEq, Repr

/-- What a drive does on the NVMe path (R436). -/
inductive NvmeTransfer where
  | toDram (slot : Fin 4) (pa : Nat) (bytes : List Byte) (snapshot : Bool)
  | fromDram (slot : Fin 4) (pa len : Nat) (snapshot : Bool)
  | errorStatus (slot : Fin 4)
  | criticalWarning (slot : Fin 4)
  deriving DecidableEq, Repr

/-- IEEE 1149.1 instructions outside debug control (R404, R440). -/
inductive TapInstr where
  | idcode | bypass
  deriving DecidableEq, Repr

/-- What every request of the debug header carries besides its payload: TARGET and the CRC-32C that ends it (R441). -/
structure DebugHead where
  target : BitVec 16
  crc : BitVec 32
  deriving DecidableEq, Repr

/-- Boundary-scan instructions (R404). -/
inductive ScanInstr where
  | sample | preload | extest
  deriving DecidableEq, Repr

/-- Whose supply a fault is of: a power domain by its number, IBUS, a VIN rail (0 to 3 VIN.C0 to VIN.C3, 4 VIN.H), or the rail of an
OSFP cage (R424 to R426). -/
inductive Supply where
  | domain (n : Fin 59)
  | ibus
  | vin (i : Fin 5)
  | osfp (p : Fin 8)
  deriving DecidableEq, Repr

/-- What a leak sensor does: it begins to report, or it no longer reports (R427, R442). -/
inductive LeakEvent where
  | reports (sensor : Fin 4)
  | stops (sensor : Fin 4)
  deriving DecidableEq, Repr

/-- How the cold reset is asked for (R432). -/
inductive ColdSource where
  | pin | management
  deriving DecidableEq, Repr

/-- How a wake is asked for (R400, R427). -/
inductive WakeSource where
  | wakeN | management
  deriving DecidableEq, Repr

/-- The commands of the board, one constructor per row of the opcode table. -/
inductive Instr where
  -- integer ALU, multiply and divide (R30, R31)
  | add (c : CoreId) (d a b : Reg)
  | sub (c : CoreId) (d a b : Reg)
  | and (c : CoreId) (d a b : Reg)
  | or (c : CoreId) (d a b : Reg)
  | xor (c : CoreId) (d a b : Reg)
  | sll (c : CoreId) (d a b : Reg)
  | srl (c : CoreId) (d a b : Reg)
  | sra (c : CoreId) (d a b : Reg)
  | slt (c : CoreId) (d a b : Reg)
  | sltu (c : CoreId) (d a b : Reg)
  | min (c : CoreId) (d a b : Reg)
  | max (c : CoreId) (d a b : Reg)
  | minu (c : CoreId) (d a b : Reg)
  | maxu (c : CoreId) (d a b : Reg)
  | clz (c : CoreId) (d a b : Reg)
  | popc (c : CoreId) (d a b : Reg)
  | addw (c : CoreId) (d a b : Reg)
  | mul (c : CoreId) (d a b : Reg)
  | mulh (c : CoreId) (d a b : Reg)
  | mulhu (c : CoreId) (d a b : Reg)
  | div (c : CoreId) (d a b : Reg)
  | divu (c : CoreId) (d a b : Reg)
  | rem (c : CoreId) (d a b : Reg)
  | remu (c : CoreId) (d a b : Reg)
  -- immediates (R28, R31, R32)
  | addi (c : CoreId) (d a : Reg) (imm : BitVec 16)
  | andi (c : CoreId) (d a : Reg) (imm : BitVec 16)
  | ori (c : CoreId) (d a : Reg) (imm : BitVec 16)
  | xori (c : CoreId) (d a : Reg) (imm : BitVec 16)
  | slti (c : CoreId) (d a : Reg) (imm : BitVec 16)
  | slli (c : CoreId) (d a : Reg) (hi : BitVec 8) (sh : BitVec 6)
  | srli (c : CoreId) (d a : Reg) (hi : BitVec 8) (sh : BitVec 6)
  | srai (c : CoreId) (d a : Reg) (hi : BitVec 8) (sh : BitVec 6)
  | liz (c : CoreId) (d a : Reg) (imm : BitVec 16)
  | lik (c : CoreId) (d a : Reg) (imm : BitVec 16)
  -- scalar FP32 (R36)
  | fadd (c : CoreId) (d a b : Reg)
  | fsub (c : CoreId) (d a b : Reg)
  | fmul (c : CoreId) (d a b : Reg)
  | fdiv (c : CoreId) (d a b : Reg)
  | fsqrt (c : CoreId) (d a b : Reg)
  | fmin (c : CoreId) (d a b : Reg)
  | fmax (c : CoreId) (d a b : Reg)
  | fma (c : CoreId) (d a b : Reg)
  | fcvtW (c : CoreId) (d a b : Reg)
  | fcvtF (c : CoreId) (d a b : Reg)
  | fmvX (c : CoreId) (d a b : Reg)
  | fmvF (c : CoreId) (d a b : Reg)
  | feq (c : CoreId) (d a b : Reg)
  | flt (c : CoreId) (d a b : Reg)
  -- loads and stores (R33)
  | lb (c : CoreId) (d a : Reg) (imm : BitVec 16)
  | lbu (c : CoreId) (d a : Reg) (imm : BitVec 16)
  | lh (c : CoreId) (d a : Reg) (imm : BitVec 16)
  | lhu (c : CoreId) (d a : Reg) (imm : BitVec 16)
  | lw (c : CoreId) (d a : Reg) (imm : BitVec 16)
  | lwu (c : CoreId) (d a : Reg) (imm : BitVec 16)
  | ld (c : CoreId) (d a : Reg) (imm : BitVec 16)
  | flw (c : CoreId) (d a : Reg) (imm : BitVec 16)
  | sb (c : CoreId) (r a : Reg) (imm : BitVec 16)
  | sh (c : CoreId) (r a : Reg) (imm : BitVec 16)
  | sw (c : CoreId) (r a : Reg) (imm : BitVec 16)
  | sd (c : CoreId) (r a : Reg) (imm : BitVec 16)
  | fsw (c : CoreId) (r a : Reg) (imm : BitVec 16)
  -- control flow (R28, R35, R42)
  | beq (c : CoreId) (a b : Reg) (off : BitVec 16)
  | bne (c : CoreId) (a b : Reg) (off : BitVec 16)
  | blt (c : CoreId) (a b : Reg) (off : BitVec 16)
  | bge (c : CoreId) (a b : Reg) (off : BitVec 16)
  | bltu (c : CoreId) (a b : Reg) (off : BitVec 16)
  | bgeu (c : CoreId) (a b : Reg) (off : BitVec 16)
  | jmp (c : CoreId) (off : BitVec 26)
  | call (c : CoreId) (off : BitVec 26)
  | jr (c : CoreId) (d a : Reg) (imm : BitVec 16)
  | loop (c : CoreId) (a : Reg) (n : BitVec 12)
  | loopi (c : CoreId) (count : BitVec 14) (n : BitVec 12)
  -- system registers (R48 to R50) and the writes with behaviour of their own
  | srr (c : CoreId) (d a : Reg) (n : BitVec 12)
  | srw (c : CoreId) (d a : Reg) (n : BitVec 12)
  | srset (c : CoreId) (d a : Reg) (n : BitVec 12)
  | srclr (c : CoreId) (d a : Reg) (n : BitVec 12)
  | loopRegWrite (c : CoreId) (op : SrOp) (d a : Reg) (level : Fin 2) (part : Fin 3)
  | ctrCmpWrite (c : CoreId) (op : SrOp) (d a : Reg)
  | timerExpiry (c : CoreId)
  -- messages (R55 to R58, R297 to R305)
  | send (c : CoreId) (a b : Reg) (len : BitVec 4)
  | recv (c : CoreId) (d : Reg) (mbx : BitVec 4)
  | recvComplete (c : CoreId)
  | recvNb (c : CoreId) (d : Reg) (mbx : BitVec 4)
  | messageLaunch (c : CoreId)
  | messageArrival (i : Nat)
  | ackArrival (i : Nat)
  | wakeArrival (i : Nat)
  | refuseRetryTimeout (c : CoreId) (i : Nat)
  | reservationLapse (c : CoreId) (mbx : BitVec 4)
  | pepochWrite (c : CoreId) (op : SrOp) (d a : Reg)
  -- levels (R73 to R80)
  | gate (c : CoreId) (k : BitVec 7)
  | cret (c : CoreId)
  | sret (c : CoreId)
  | mret (c : CoreId)
  | takeInterrupt (c : CoreId)
  -- element-wise vector instructions (R111)
  | vadd (c : CoreId) (v : VArgs)
  | vsub (c : CoreId) (v : VArgs)
  | vmul (c : CoreId) (v : VArgs)
  | vdiv (c : CoreId) (v : VArgs)
  | vfma (c : CoreId) (v : VArgs)
  | vfms (c : CoreId) (v : VArgs)
  | vmin (c : CoreId) (v : VArgs)
  | vmax (c : CoreId) (v : VArgs)
  | vaddF (c : CoreId) (v : VArgs)
  | vsubF (c : CoreId) (v : VArgs)
  | vmulF (c : CoreId) (v : VArgs)
  | vfmaF (c : CoreId) (v : VArgs)
  | vmov (c : CoreId) (v : VArgs)
  | vneg (c : CoreId) (v : VArgs)
  | vabs (c : CoreId) (v : VArgs)
  | vsqrt (c : CoreId) (v : VArgs)
  | vrsqrt (c : CoreId) (v : VArgs)
  | vrecip (c : CoreId) (v : VArgs)
  | vexp (c : CoreId) (v : VArgs)
  | vlog (c : CoreId) (v : VArgs)
  | vtanh (c : CoreId) (v : VArgs)
  | vsigm (c : CoreId) (v : VArgs)
  | vgelu (c : CoreId) (v : VArgs)
  | vsilu (c : CoreId) (v : VArgs)
  | vand (c : CoreId) (v : VArgs)
  | vor (c : CoreId) (v : VArgs)
  | vxor (c : CoreId) (v : VArgs)
  | vshl (c : CoreId) (v : VArgs)
  | vsra (c : CoreId) (v : VArgs)
  | vsel (c : CoreId) (v : VArgs)
  | vfill (c : CoreId) (v : VArgs)
  -- compares and mask logic (R114)
  | vcmpEq (c : CoreId) (v : CmpArgs)
  | vcmpNe (c : CoreId) (v : CmpArgs)
  | vcmpLt (c : CoreId) (v : CmpArgs)
  | vcmpLe (c : CoreId) (v : CmpArgs)
  | vcmpGt (c : CoreId) (v : CmpArgs)
  | vcmpGe (c : CoreId) (v : CmpArgs)
  | vcmpUn (c : CoreId) (v : CmpArgs)
  | mand (c : CoreId) (v : CmpArgs)
  | mor (c : CoreId) (v : CmpArgs)
  | mxor (c : CoreId) (v : CmpArgs)
  | mnot (c : CoreId) (v : CmpArgs)
  -- widening multiply, dot product, conversion (R115)
  | vwmul (c : CoreId) (v : WideArgs)
  | vwfma (c : CoreId) (v : WideArgs)
  | vdot4 (c : CoreId) (v : WideArgs)
  | vcvt (c : CoreId) (v : WideArgs) (src : BitVec 3)
  -- reduction unit (R120) and vector state (R116)
  | red (c : CoreId) (v : RedArgs)
  | rclr (c : CoreId) (acc : BitVec 2) (op : BitVec 3)
  | rget (c : CoreId) (f : Reg) (acc : BitVec 2)
  | rput (c : CoreId) (f : Reg) (acc : BitVec 2)
  | setvl (c : CoreId) (d a : Reg)
  | setvli (c : CoreId) (d : Reg) (imm : BitVec 12)
  | padd (c : CoreId) (k : BitVec 4) (imm : BitVec 12)
  -- compat form (R117)
  | mt5Vadd (c : CoreId) (v : CompatArgs)
  | mt5Vsub (c : CoreId) (v : CompatArgs)
  | mt5Vmul (c : CoreId) (v : CompatArgs)
  | mt5Vfma (c : CoreId) (v : CompatArgs)
  | mt5Vmin (c : CoreId) (v : CompatArgs)
  | mt5Vmax (c : CoreId) (v : CompatArgs)
  | mt5Vmov (c : CoreId) (v : CompatArgs)
  | mt5Vneg (c : CoreId) (v : CompatArgs)
  | mt5Vabs (c : CoreId) (v : CompatArgs)
  | mt5Vdiv (c : CoreId) (v : CompatArgs)
  | mt5Vsqrt (c : CoreId) (v : CompatArgs)
  | mt5Vrecip (c : CoreId) (v : CompatArgs)
  | mt5Vrsqrt (c : CoreId) (v : CompatArgs)
  | mt5Vexp (c : CoreId) (v : CompatArgs)
  | mt5Rsum (c : CoreId) (v : CompatArgs)
  | mt5Rmax (c : CoreId) (v : CompatArgs)
  -- descriptors and streams (R137, R140)
  | dld (c : CoreId) (k : BitVec 4) (a : Reg)
  | dst (c : CoreId) (k : BitVec 4) (a : Reg)
  | dbase (c : CoreId) (k : BitVec 4) (a : Reg)
  | daddb (c : CoreId) (k : BitVec 4) (a : Reg)
  | sgo (c : CoreId) (k : BitVec 3) (ds dd : BitVec 4) (a : Reg)
  | swait (c : CoreId) (k : BitVec 3) (a : Reg)
  | swaitComplete (c : CoreId)
  | scred (c : CoreId) (k : BitVec 3) (a : Reg)
  | sresume (c : CoreId) (k : BitVec 3)
  | sstop (c : CoreId) (k : BitVec 3)
  | scancel (c : CoreId) (k : BitVec 3)
  | lbar (c : CoreId)
  | lbarComplete (c : CoreId)
  | streamGranule (c : CoreId)
  -- tiles and arrays (R173, R174, R215)
  | tld (c : CoreId) (tile : BitVec 6) (dn : BitVec 4) (tfmt : BitVec 5) (stop : Option Nat)
  | tst (c : CoreId) (tile : BitVec 6) (dn : BitVec 4) (stop : Option Nat)
  | trel (c : CoreId) (tile : BitVec 6)
  | tileReleaseComplete (c : CoreId) (tile : BitVec 6)
  | tcfg (c : CoreId) (a b : Reg)
  | tmov (c : CoreId) (tile : BitVec 6) (pk : BitVec 4) (dir : BitVec 2) (tfmt ofmt : BitVec 5)
  | tmovRun (c : CoreId)
  | mmf (c : CoreId) (m : MmArgs) (keep : Bool)
  | arrayPass (c : CoreId) (arr : Fin 2)
  | mmgather (c : CoreId) (m : MmArgs) (nw1 : BitVec 2)
  | gatherTimeout (c : CoreId) (arr : Fin 2)
  | mmflush (c : CoreId) (arr : Fin 2)
  | mmbwd (c : CoreId) (m : BwdArgs)
  | mmbwdRun (c : CoreId)
  | zdrain (c : CoreId) (z roff : BitVec 3) (acc : Bool)
  | zdrainWave (c : CoreId)
  | gaccAdd (c : CoreId) (k : BitVec 4) (a : Reg)
  | gaccPut (c : CoreId) (k : BitVec 4) (a : Reg)
  | gaccGet (c : CoreId) (k : BitVec 4) (a : Reg)
  | gaccRun (c : CoreId)
  -- fences, range instructions, task boundary (R247 to R258)
  | fenceCore (c : CoreId)
  | fenceAtollRel (c : FenceRun)
  | fenceAtoll (c : FenceRun)
  | fenceDieRel (c : FenceRun)
  | fenceDie (c : FenceRun)
  | fenceBoardRel (c : FenceRun)
  | fenceBoard (c : FenceRun)
  | fenceTask (c : CoreId)
  | atollTaskPart (die : Fin 4) (pos : Fin 9)
  | ifence (c : CoreId)
  | dead (c : CoreId) (a b : Reg)
  | cwb (c : CoreId) (scope : Scope) (a b : Reg)
  | cinv (c : CoreId) (scope : Scope) (a b : Reg)
  | l1winWrite (c : CoreId) (op : SrOp) (d a : Reg) (k : Fin 4) (ctl : Bool)
  | lagwinWrite (c : CoreId) (op : SrOp) (d a : Reg) (k : Fin 4) (ctl : Bool)
  -- translation (R276, R277)
  | atpWrite (c : CoreId) (op : SrOp) (d a : Reg)
  | matpWrite (c : CoreId) (op : SrOp) (d a : Reg)
  | tlbinvAll (c : CoreId) (a : Reg)
  | tlbinvVpn (c : CoreId) (a : Reg)
  -- DRAM, mesh and causeways (R283 to R293)
  | ddrGrantBurst (die : Fin 4) (ch : Fin 8)
  | ddrAgeLimit (die : Fin 4) (ch : Fin 8) (cls : Fin 5)
  | patrolScrub (die : Fin 4) (line : Nat)
  | meshGrant (die : Fin 4) (stop : Fin 30) (out : Fin 5)
  | meshAgeLimit (die : Fin 4) (stop : Fin 30) (out : Fin 5) (cls : Fin 6)
  | causewayDown (cw : Fin 8)
  | causewayFlitReplay (cw : Fin 8)
  -- command interface (R363 to R388)
  | cmddirWrite (c : CoreId) (op : SrOp) (d a : Reg)
  | cmddbCommandRing (c : CoreId) (a : Reg)
  | cmddbReplyRing (c : CoreId) (a : Reg)
  | unitStartPacket (u : Fin 5)
  | cqAgeLimit (u : Fin 5) (ring : Fin 3)
  | parkedPacketComplete (u : Fin 5) (ring : Fin 3)
  | ping (u : Fin 5)
  | loadImage (u : Fin 5)
  | startTask (u : Fin 5)
  | drain (u : Fin 5)
  | drainComplete (u : Fin 5)
  | abort (u : Fin 5)
  | atollOffline (u : Fin 5)
  | atollOnline (u : Fin 5) (selfTestPasses : Bool)
  | atollSwapReserve (u : Fin 5)
  | fwStage (u : Fin 5)
  | fwActivate (u : Fin 5)
  | treeConfig (u : Fin 5)
  | straitTrain (u : Fin 5) (r : TrainResult)
  | straitRelay (u : Fin 5)
  | snapConfig (u : Fin 5)
  | snapNow (u : Fin 5)
  | restore (u : Fin 5)
  | inject (u : Fin 5)
  | logRead (u : Fin 5)
  | logFreeze (u : Fin 5)
  | attest (u : Fin 5)
  | debugUnlock (u : Fin 5)
  | powerState (u : Fin 5)
  | meterRead (u : Fin 5)
  | jobHandoff (u : Fin 5)
  | atollGate (die : Fin 4) (pos : Fin 9)
  | atollUngate (die : Fin 4) (pos : Fin 9)
  -- strait engine and ports (R311 to R328)
  | steReadyWrite (c : CoreId) (op : SrOp) (d a : Reg)
  | stepDoneWrite (c : CoreId) (op : SrOp) (d a : Reg)
  | snapLocalWrite (c : CoreId) (op : SrOp) (d a : Reg)
  | snapRxDoneWrite (c : CoreId) (op : SrOp) (d a : Reg)
  | dieStageAdd (die : Fin 4) (seg grp : Nat)
  | nodeGroupAdd (seg grp : Nat)
  | stepEnd
  | frameSend (port : Fin 8)
  | frameReceive (port : Fin 8) (f : Frame) (r : Receipt)
  | controlCodeword (port : Fin 8) (k : ControlCell)
  | portControlSilence (port : Fin 8)
  | portLaneLockLoss (port : Fin 8)
  -- power, clocks, reset, sensors (R421 to R442)
  | inputPowerOn
  | servicePowerGood
  | inputUndervoltage (mv : Nat)
  | inputOvervoltage (mv : Nat)
  | inputBelow40v
  | regulatorFault (supply : Supply)
  | railNotGoodTimeout (supply : Supply)
  | rootPllLockLoss
  | wakeRequest (src : WakeSource)
  | coldReset (src : ColdSource)
  | pcieReset
  | tapReset
  | serviceWatchdog
  | dieControllerWatchdog (die : Fin 4)
  | powerMonitorSample (mv ma : Nat)
  | temperatureSample (sensor : Fin 52) (milliC warn crit : Int)
  | leakDetect (event : LeakEvent)
  -- recorder (R419, R420)
  | recorderAutoFreeze
  | crashCopyComplete
  -- debug (R94, R404, R441)
  | debugHalt (head : DebugHead)
  | debugStep (head : DebugHead)
  | debugRun (head : DebugHead)
  | debugRead (head : DebugHead) (level : BitVec 2) (regs : List (BitVec 12))
  | traceOn (head : DebugHead) (pa bytes : Nat)
  | traceOff (head : DebugHead)
  | debugStatus (head : DebugHead)
  | boundaryScan (die : Fin 5) (i : ScanInstr)
  | smbusBlockRead
  -- further events
  | reservedOpcode (c : CoreId) (w : W32)
  | instructionFetchFault (c : CoreId)
  | cseqOutOfSequence (port : Fin 8) (cseq : BitVec 8)
  | pcieInboundRequest (r : PcieRequest)
  | nvmePathTransfer (t : NvmeTransfer)
  | idcodeBypass (tap : Fin 5) (i : TapInstr)
  | consoleRx (b : Byte)
  deriving DecidableEq, Repr

end Sys2Proof
end

