-- ==== Sys2Proof/Decode.lean ====
section
/-! DEFINITION. The words of the core instructions, from the manual's encoding tables (R27, R28, R30, R36, R55, R80, R109,
R137, R140, R173, R174, R215, R247), and the decoder of table words. The table gives no row any bits, so no table word
spells a command. -/

namespace Sys2Proof

/-- The command that a word of the opcode table's bits spells. No row of the table gives bits, so none does. -/
def decodeTableWord (_nbits _w : Nat) : Option Instr := none

/-- Major opcode in [31:26] (R27). -/
def wMaj (m : Nat) : Nat := m * 2 ^ 26
/-- RRI, BR and MSG layouts (R27). -/
def wRri (m : Nat) (d a : Reg) (low : Nat) : Nat := wMaj m + d.toNat * 2 ^ 21 + a.toNat * 2 ^ 16 + low
/-- RRR layout (R27). -/
def wRrr (m : Nat) (d a b : Reg) (func : Nat) : Nat := wRri m d a (b.toNat * 2 ^ 11 + func)
/-- SYS layout (R27, R49). -/
def wSys (sub : Nat) (d a : Reg) (n : Nat) : Nat := wRri 0x2C d a (sub * 2 ^ 12 + n)

/-- sub value of a writing access (R49). -/
def SrOp.sub : SrOp → Nat
  | .srw => 1 | .srset => 2 | .srclr => 3

/-- Encoding of a scope (R247). -/
def Scope.code : Scope → Nat
  | .core => 0 | .atoll => 1 | .die => 2 | .board => 3

def VArgs.word (v : VArgs) (func : Nat) : Nat :=
  wRri (if v.native then 0x31 else 0x30) v.dD v.dA (v.dB.toNat * 2 ^ 11 + v.mask.toNat * 2 ^ 8 + v.ty.toNat * 2 ^ 6
    + b2n v.tap * 32 + func)
def CmpArgs.word (v : CmpArgs) (sub : Nat) : Nat :=
  wMaj 0x32 + v.md.toNat * 2 ^ 23 + v.dA.toNat * 2 ^ 16 + v.dB.toNat * 2 ^ 11 + v.mask.toNat * 2 ^ 8 + v.ty.toNat * 2 ^ 6
    + b2n v.native * 32 + sub
def WideArgs.word (v : WideArgs) (sub : Nat) : Nat :=
  wRri 0x33 v.dD v.dA (v.dB.toNat * 2 ^ 11 + v.mask.toNat * 2 ^ 8 + v.ty.toNat * 2 ^ 6 + b2n v.native * 32 + sub)
def RedArgs.word (v : RedArgs) : Nat :=
  wRri 0x34 0 v.dA (v.acc.toNat * 2 ^ 14 + v.op.toNat * 2 ^ 11 + v.mask.toNat * 2 ^ 8 + v.ty.toNat * 2 ^ 6
    + b2n v.native * 32)
def CompatArgs.word (v : CompatArgs) (func : Nat) : Nat :=
  wMaj 0x36 + v.dD.toNat * 2 ^ 22 + v.dA.toNat * 2 ^ 18 + v.dB.toNat * 2 ^ 14 + func * 2 ^ 10 + v.count.toNat
def MmArgs.word (m : MmArgs) : Nat :=
  wMaj 0x3D + m.arr.val * 2 ^ 25 + m.t.toNat * 2 ^ 21 + m.w.toNat * 2 ^ 19 + m.z.toNat * 2 ^ 16 + b2n m.acc * 2 ^ 11
    + b2n m.rel * 2 ^ 10
def BwdArgs.word (m : BwdArgs) : Nat :=
  wMaj 0x3E + m.dy.toNat * 2 ^ 22 + m.dx.toNat * 2 ^ 18 + m.w.toNat * 2 ^ 16 + m.z.toNat * 2 ^ 9 + b2n m.acc * 2 ^ 8
    + b2n m.keep * 2 ^ 7 + b2n m.tw * 2 ^ 6 + b2n m.rely * 2 ^ 5 + b2n m.relx * 2 ^ 4

/-- The instruction word that a core command stands for, as ILLEGAL and PRIVILEGE report it in ADDR (R76); 0 for a
command that is no instruction. -/
def instrWord : Instr → Nat
  | .add _ d a b => wRrr 0x01 d a b 0x000
  | .sub _ d a b => wRrr 0x01 d a b 0x001
  | .and _ d a b => wRrr 0x01 d a b 0x002
  | .or _ d a b => wRrr 0x01 d a b 0x003
  | .xor _ d a b => wRrr 0x01 d a b 0x004
  | .sll _ d a b => wRrr 0x01 d a b 0x005
  | .srl _ d a b => wRrr 0x01 d a b 0x006
  | .sra _ d a b => wRrr 0x01 d a b 0x007
  | .slt _ d a b => wRrr 0x01 d a b 0x008
  | .sltu _ d a b => wRrr 0x01 d a b 0x009
  | .min _ d a b => wRrr 0x01 d a b 0x00A
  | .max _ d a b => wRrr 0x01 d a b 0x00B
  | .minu _ d a b => wRrr 0x01 d a b 0x00C
  | .maxu _ d a b => wRrr 0x01 d a b 0x00D
  | .clz _ d a b => wRrr 0x01 d a b 0x00E
  | .popc _ d a b => wRrr 0x01 d a b 0x00F
  | .addw _ d a b => wRrr 0x01 d a b 0x010
  | .mul _ d a b => wRrr 0x0A d a b 0x000
  | .mulh _ d a b => wRrr 0x0A d a b 0x001
  | .mulhu _ d a b => wRrr 0x0A d a b 0x002
  | .div _ d a b => wRrr 0x0A d a b 0x003
  | .divu _ d a b => wRrr 0x0A d a b 0x004
  | .rem _ d a b => wRrr 0x0A d a b 0x005
  | .remu _ d a b => wRrr 0x0A d a b 0x006
  | .fadd _ d a b => wRrr 0x0B d a b 0x000
  | .fsub _ d a b => wRrr 0x0B d a b 0x001
  | .fmul _ d a b => wRrr 0x0B d a b 0x002
  | .fdiv _ d a b => wRrr 0x0B d a b 0x003
  | .fsqrt _ d a b => wRrr 0x0B d a b 0x004
  | .fmin _ d a b => wRrr 0x0B d a b 0x005
  | .fmax _ d a b => wRrr 0x0B d a b 0x006
  | .fma _ d a b => wRrr 0x0B d a b 0x007
  | .fcvtW _ d a b => wRrr 0x0B d a b 0x008
  | .fcvtF _ d a b => wRrr 0x0B d a b 0x009
  | .fmvX _ d a b => wRrr 0x0B d a b 0x00A
  | .fmvF _ d a b => wRrr 0x0B d a b 0x00B
  | .feq _ d a b => wRrr 0x0B d a b 0x00C
  | .flt _ d a b => wRrr 0x0B d a b 0x00D
  | .addi _ d a imm => wRri 0x02 d a imm.toNat
  | .andi _ d a imm => wRri 0x03 d a imm.toNat
  | .ori _ d a imm => wRri 0x04 d a imm.toNat
  | .xori _ d a imm => wRri 0x05 d a imm.toNat
  | .slti _ d a imm => wRri 0x06 d a imm.toNat
  | .slli _ d a hi sh => wRri 0x07 d a (hi.toNat * 256 + 0 * 64 + sh.toNat)
  | .srli _ d a hi sh => wRri 0x07 d a (hi.toNat * 256 + 1 * 64 + sh.toNat)
  | .srai _ d a hi sh => wRri 0x07 d a (hi.toNat * 256 + 2 * 64 + sh.toNat)
  | .liz _ d a imm => wRri 0x08 d a imm.toNat
  | .lik _ d a imm => wRri 0x09 d a imm.toNat
  | .lb _ d a imm => wRri 0x10 d a imm.toNat
  | .lbu _ d a imm => wRri 0x11 d a imm.toNat
  | .lh _ d a imm => wRri 0x12 d a imm.toNat
  | .lhu _ d a imm => wRri 0x13 d a imm.toNat
  | .lw _ d a imm => wRri 0x14 d a imm.toNat
  | .lwu _ d a imm => wRri 0x15 d a imm.toNat
  | .ld _ d a imm => wRri 0x16 d a imm.toNat
  | .flw _ d a imm => wRri 0x17 d a imm.toNat
  | .sb _ r a imm => wRri 0x19 r a imm.toNat
  | .sh _ r a imm => wRri 0x1A r a imm.toNat
  | .sw _ r a imm => wRri 0x1B r a imm.toNat
  | .sd _ r a imm => wRri 0x1C r a imm.toNat
  | .fsw _ r a imm => wRri 0x1D r a imm.toNat
  | .beq _ a b off => wRri 0x20 a b off.toNat
  | .bne _ a b off => wRri 0x21 a b off.toNat
  | .blt _ a b off => wRri 0x22 a b off.toNat
  | .bge _ a b off => wRri 0x23 a b off.toNat
  | .bltu _ a b off => wRri 0x24 a b off.toNat
  | .bgeu _ a b off => wRri 0x25 a b off.toNat
  | .jmp _ off => wMaj 0x26 + off.toNat
  | .call _ off => wMaj 0x27 + off.toNat
  | .jr _ d a imm => wRri 0x28 d a imm.toNat
  | .loop _ a n => wMaj 0x29 + a.toNat * 2 ^ 21 + n.toNat
  | .loopi _ count n => wMaj 0x2A + count.toNat * 2 ^ 12 + n.toNat
  | .srr _ d a n => wSys 0 d a n.toNat
  | .srw _ d a n => wSys 1 d a n.toNat
  | .srset _ d a n => wSys 2 d a n.toNat
  | .srclr _ d a n => wSys 3 d a n.toNat
  | .loopRegWrite _ op d a level part => wSys op.sub d a (0x100 + 4 * level.val + part.val)
  | .ctrCmpWrite _ op d a => wSys op.sub d a 0x510
  | .pepochWrite _ op d a => wSys op.sub d a 0x150
  | .l1winWrite _ op d a k ctl => wSys op.sub d a (0x110 + 2 * k.val + b2n ctl)
  | .lagwinWrite _ op d a k ctl => wSys op.sub d a (0x120 + 2 * k.val + b2n ctl)
  | .atpWrite _ op d a => wSys op.sub d a 0x540
  | .matpWrite _ op d a => wSys op.sub d a 0xA40
  | .cmddirWrite _ op d a => wSys op.sub d a 0x570
  | .steReadyWrite _ op d a => wSys op.sub d a 0x580
  | .stepDoneWrite _ op d a => wSys op.sub d a 0x581
  | .snapLocalWrite _ op d a => wSys op.sub d a 0x584
  | .snapRxDoneWrite _ op d a => wSys op.sub d a 0x586
  | .tlbinvAll _ a => wSys 1 0 a 0x544
  | .tlbinvVpn _ a => wSys 1 0 a 0x544
  | .cmddbCommandRing _ a => wSys 1 0 a 0x571
  | .cmddbReplyRing _ a => wSys 1 0 a 0x571
  | .send _ a b len => wRri 0x2D a b (len.toNat * 16)
  | .recv _ d mbx => wRri 0x2D d 0 (0x1000 + mbx.toNat * 256)
  | .recvNb _ d mbx => wRri 0x2D d 0 (0x2000 + mbx.toNat * 256)
  | .gate _ k => wMaj 0x2F + k.toNat
  | .cret _ => wMaj 0x2F + 0x1000
  | .sret _ => wMaj 0x2F + 0x2000
  | .mret _ => wMaj 0x2F + 0x3000
  | .vadd _ v => v.word 0x00
  | .vsub _ v => v.word 0x01
  | .vmul _ v => v.word 0x02
  | .vdiv _ v => v.word 0x03
  | .vfma _ v => v.word 0x04
  | .vfms _ v => v.word 0x05
  | .vmin _ v => v.word 0x06
  | .vmax _ v => v.word 0x07
  | .vaddF _ v => v.word 0x08
  | .vsubF _ v => v.word 0x09
  | .vmulF _ v => v.word 0x0A
  | .vfmaF _ v => v.word 0x0B
  | .vmov _ v => v.word 0x0C
  | .vneg _ v => v.word 0x0D
  | .vabs _ v => v.word 0x0E
  | .vsqrt _ v => v.word 0x0F
  | .vrsqrt _ v => v.word 0x10
  | .vrecip _ v => v.word 0x11
  | .vexp _ v => v.word 0x12
  | .vlog _ v => v.word 0x13
  | .vtanh _ v => v.word 0x14
  | .vsigm _ v => v.word 0x15
  | .vgelu _ v => v.word 0x16
  | .vsilu _ v => v.word 0x17
  | .vand _ v => v.word 0x18
  | .vor _ v => v.word 0x19
  | .vxor _ v => v.word 0x1A
  | .vshl _ v => v.word 0x1B
  | .vsra _ v => v.word 0x1C
  | .vsel _ v => v.word 0x1D
  | .vfill _ v => v.word 0x1E
  | .vcmpEq _ v => v.word 0x00
  | .vcmpNe _ v => v.word 0x01
  | .vcmpLt _ v => v.word 0x02
  | .vcmpLe _ v => v.word 0x03
  | .vcmpGt _ v => v.word 0x04
  | .vcmpGe _ v => v.word 0x05
  | .vcmpUn _ v => v.word 0x06
  | .mand _ v => v.word 0x08
  | .mor _ v => v.word 0x09
  | .mxor _ v => v.word 0x0A
  | .mnot _ v => v.word 0x0B
  | .vwmul _ v => v.word 0x00
  | .vwfma _ v => v.word 0x01
  | .vdot4 _ v => v.word 0x02
  | .vcvt _ v src => v.word (0x10 + src.toNat)
  | .red _ v => v.word
  | .rclr _ acc op => wMaj 0x34 + acc.toNat * 2 ^ 14 + op.toNat * 2 ^ 11 + 1
  | .rget _ f acc => wMaj 0x34 + f.toNat * 2 ^ 21 + acc.toNat * 2 ^ 14 + 2
  | .rput _ f acc => wMaj 0x34 + f.toNat * 2 ^ 21 + acc.toNat * 2 ^ 14 + 3
  | .setvl _ d a => wRri 0x35 d a 0
  | .setvli _ d imm => wRri 0x35 d 0 (0x1000 + imm.toNat)
  | .padd _ k imm => wMaj 0x35 + k.toNat * 2 ^ 22 + 0x2000 + imm.toNat
  | .mt5Vadd _ v => v.word 0x0
  | .mt5Vsub _ v => v.word 0x1
  | .mt5Vmul _ v => v.word 0x2
  | .mt5Vfma _ v => v.word 0x3
  | .mt5Vmin _ v => v.word 0x4
  | .mt5Vmax _ v => v.word 0x5
  | .mt5Vmov _ v => v.word 0x6
  | .mt5Vneg _ v => v.word 0x7
  | .mt5Vabs _ v => v.word 0x8
  | .mt5Vdiv _ v => v.word 0x9
  | .mt5Vsqrt _ v => v.word 0xA
  | .mt5Vrecip _ v => v.word 0xB
  | .mt5Vrsqrt _ v => v.word 0xC
  | .mt5Vexp _ v => v.word 0xD
  | .mt5Rsum _ v => v.word 0xE
  | .mt5Rmax _ v => v.word 0xF
  | .dld _ k a => wMaj 0x38 + k.toNat * 2 ^ 22 + a.toNat * 2 ^ 16 + 0x0000
  | .dst _ k a => wMaj 0x38 + k.toNat * 2 ^ 22 + a.toNat * 2 ^ 16 + 0x1000
  | .dbase _ k a => wMaj 0x38 + k.toNat * 2 ^ 22 + a.toNat * 2 ^ 16 + 0x2000
  | .daddb _ k a => wMaj 0x38 + k.toNat * 2 ^ 22 + a.toNat * 2 ^ 16 + 0x3000
  | .sgo _ k ds dd a => wMaj 0x39 + k.toNat * 2 ^ 23 + ds.toNat * 2 ^ 19 + dd.toNat * 2 ^ 15 + a.toNat * 2 ^ 10
  | .swait _ k a => wMaj 0x3A + k.toNat * 2 ^ 23 + a.toNat * 2 ^ 16 + 0x0000
  | .scred _ k a => wMaj 0x3A + k.toNat * 2 ^ 23 + a.toNat * 2 ^ 16 + 0x1000
  | .sresume _ k => wMaj 0x3A + k.toNat * 2 ^ 23 + 0x2000
  | .sstop _ k => wMaj 0x3A + k.toNat * 2 ^ 23 + 0x3000
  | .scancel _ k => wMaj 0x3A + k.toNat * 2 ^ 23 + 0x4000
  | .lbar _ => wMaj 0x3B
  | .tld _ tile dn tfmt _ => wMaj 0x3C + tile.toNat * 2 ^ 20 + dn.toNat * 2 ^ 16 + tfmt.toNat
  | .tst _ tile dn _ => wMaj 0x3C + tile.toNat * 2 ^ 20 + dn.toNat * 2 ^ 16 + 0x1000
  | .trel _ tile => wMaj 0x3C + tile.toNat * 2 ^ 20 + 0x2000
  | .tcfg _ a b => wRri 0x3C a b 0x3000
  | .tmov _ tile pk dir tfmt ofmt => wMaj 0x3C + tile.toNat * 2 ^ 20 + pk.toNat * 2 ^ 16 + 0x4000 + dir.toNat * 2 ^ 10
      + tfmt.toNat * 2 ^ 5 + ofmt.toNat
  | .mmf _ m keep => m.word + b2n keep * 2 ^ 9
  | .mmgather _ m nw1 => m.word + 0x1000 + nw1.toNat * 2 ^ 8
  | .mmflush _ arr => wMaj 0x3D + arr.val * 2 ^ 25 + 0x2000
  | .mmbwd _ m => m.word
  | .zdrain _ z roff acc => wMaj 0x3E + z.toNat * 2 ^ 19 + roff.toNat * 2 ^ 16 + 0x1000 + b2n acc * 2 ^ 8
  | .gaccAdd _ k a => wMaj 0x3E + a.toNat * 2 ^ 21 + k.toNat * 2 ^ 16 + 0x2000
  | .gaccPut _ k a => wMaj 0x3E + a.toNat * 2 ^ 21 + k.toNat * 2 ^ 16 + 0x3000
  | .gaccGet _ k a => wMaj 0x3E + a.toNat * 2 ^ 21 + k.toNat * 2 ^ 16 + 0x4000
  | .fenceCore _ => wMaj 0x2E + 0 * 16 + 0 * 4
  | .fenceAtollRel _ => wMaj 0x2E + 1 * 16 + 1 * 4
  | .fenceAtoll _ => wMaj 0x2E + 0 * 16 + 1 * 4
  | .fenceDieRel _ => wMaj 0x2E + 1 * 16 + 2 * 4
  | .fenceDie _ => wMaj 0x2E + 0 * 16 + 2 * 4
  | .fenceBoardRel _ => wMaj 0x2E + 1 * 16 + 3 * 4
  | .fenceBoard _ => wMaj 0x2E + 0 * 16 + 3 * 4
  | .fenceTask _ => wMaj 0x2E + 0x1000
  | .ifence _ => wMaj 0x2E + 0x2000
  | .dead _ a b => wRri 0x2E a b 0x3000
  | .cwb _ scope a b => wRri 0x2E a b (0x4000 + scope.code * 4)
  | .cinv _ scope a b => wRri 0x2E a b (0x5000 + scope.code * 4)
  | .reservedOpcode _ w => w.toNat
  | .timerExpiry _ => 0
  | .recvComplete _ => 0
  | .messageLaunch _ => 0
  | .messageArrival _ => 0
  | .ackArrival _ => 0
  | .wakeArrival _ => 0
  | .refuseRetryTimeout _ _ => 0
  | .reservationLapse _ _ => 0
  | .takeInterrupt _ => 0
  | .swaitComplete _ => 0
  | .lbarComplete _ => 0
  | .streamGranule _ => 0
  | .tileReleaseComplete _ _ => 0
  | .tmovRun _ => 0
  | .arrayPass _ _ => 0
  | .gatherTimeout _ _ => 0
  | .mmbwdRun _ => 0
  | .zdrainWave _ => 0
  | .gaccRun _ => 0
  | .atollTaskPart _ _ => 0
  | .ddrGrantBurst _ _ => 0
  | .ddrAgeLimit _ _ _ => 0
  | .patrolScrub _ _ => 0
  | .meshGrant _ _ _ => 0
  | .meshAgeLimit _ _ _ _ => 0
  | .causewayDown _ => 0
  | .causewayFlitReplay _ => 0
  | .unitStartPacket _ => 0
  | .cqAgeLimit _ _ => 0
  | .parkedPacketComplete _ _ => 0
  | .ping _ => 0
  | .loadImage _ => 0
  | .startTask _ => 0
  | .drain _ => 0
  | .drainComplete _ => 0
  | .abort _ => 0
  | .atollOffline _ => 0
  | .atollOnline _ _ => 0
  | .atollSwapReserve _ => 0
  | .fwStage _ => 0
  | .fwActivate _ => 0
  | .treeConfig _ => 0
  | .straitTrain _ _ => 0
  | .straitRelay _ => 0
  | .snapConfig _ => 0
  | .snapNow _ => 0
  | .restore _ => 0
  | .inject _ => 0
  | .logRead _ => 0
  | .logFreeze _ => 0
  | .attest _ => 0
  | .debugUnlock _ => 0
  | .powerState _ => 0
  | .meterRead _ => 0
  | .jobHandoff _ => 0
  | .atollGate _ _ => 0
  | .atollUngate _ _ => 0
  | .dieStageAdd _ _ _ => 0
  | .nodeGroupAdd _ _ => 0
  | .stepEnd => 0
  | .frameSend _ => 0
  | .frameReceive _ _ _ => 0
  | .controlCodeword _ _ => 0
  | .portControlSilence _ => 0
  | .portLaneLockLoss _ => 0
  | .inputPowerOn => 0
  | .servicePowerGood => 0
  | .inputUndervoltage _ => 0
  | .inputOvervoltage _ => 0
  | .inputBelow40v => 0
  | .regulatorFault _ => 0
  | .railNotGoodTimeout _ => 0
  | .rootPllLockLoss => 0
  | .wakeRequest _ => 0
  | .coldReset _ => 0
  | .pcieReset => 0
  | .tapReset => 0
  | .serviceWatchdog => 0
  | .dieControllerWatchdog _ => 0
  | .powerMonitorSample _ _ => 0
  | .temperatureSample _ _ _ _ => 0
  | .leakDetect _ => 0
  | .recorderAutoFreeze => 0
  | .crashCopyComplete => 0
  | .debugHalt _ => 0
  | .debugStep _ => 0
  | .debugRun _ => 0
  | .debugRead _ _ _ => 0
  | .traceOn _ _ _ => 0
  | .traceOff _ => 0
  | .debugStatus _ => 0
  | .boundaryScan _ _ => 0
  | .smbusBlockRead => 0
  | .instructionFetchFault _ => 0
  | .cseqOutOfSequence _ _ => 0
  | .pcieInboundRequest _ => 0
  | .nvmePathTransfer _ => 0
  | .idcodeBypass _ _ => 0
  | .consoleRx _ => 0

/-- Bits [hi:lo] of a word are 0. -/
def zeroBits (w : Nat) (hi lo : Nat) : Bool := bitsOf w hi lo == 0

/-- A word that some instruction's layout gives, every field that must be 0 being 0 (R27, R28, R30, R36, R49, R55, R80,
R109, R114 to R116, R120, R137, R140, R173, R174, R215, R247). -/
def laidOut (w : Nat) : Bool :=
  let maj := bitsOf w 31 26
  let f11 := bitsOf w 10 0
  let sub := bitsOf w 15 12
  let f5 := bitsOf w 4 0
  let z := zeroBits w
  match maj with
  | 0x01 => decide (f11 ≤ 0x10)
  | 0x0A => decide (f11 ≤ 6)
  | 0x0B => decide (f11 ≤ 0xD)
  | 0x07 => bitsOf w 7 6 != 3
  | 0x29 => z 20 12
  | 0x2C => decide (sub ≤ 3)
  | 0x2D => if sub = 0 then z 11 8 && z 3 0 else decide (sub ≤ 2) && z 20 16 && z 7 0
  | 0x2E =>
    if sub = 0 then z 25 16 && z 11 5 && z 1 0 && (!w.testBit 4 || !z 3 2)
    else if sub ≤ 2 then z 25 16 && z 11 0
    else if sub = 3 then z 11 0 else decide (sub ≤ 5) && z 11 4 && z 1 0
  | 0x2F => z 25 16 && z 11 7 && (sub == 0 || (decide (sub ≤ 3) && z 6 0))
  | 0x30 => f5 != 0x1F
  | 0x31 => f5 != 0x1F
  | 0x32 => z 22 21 && decide (f5 ≤ 11) && f5 != 7
  | 0x33 => decide (f5 ≤ 2 ∨ (0x10 ≤ f5 ∧ f5 ≤ 0x17))
  | 0x34 =>
    if f5 = 0 then z 25 21
    else if f5 = 1 then z 25 16 && z 10 5 else decide (f5 ≤ 3) && z 20 16 && z 13 5
  | 0x35 => if sub = 0 then z 11 0 else if sub = 1 then z 20 16 else sub == 2 && z 21 16
  | 0x38 => decide (sub ≤ 3) && z 21 21 && z 11 0
  | 0x39 => z 9 0
  | 0x3A => z 22 21 && z 11 0 && (decide (sub ≤ 1) || (decide (sub ≤ 4) && z 20 16))
  | 0x3B => z 25 0
  | 0x3C =>
    if sub = 0 then z 11 5 else if sub = 1 then z 11 0 else if sub = 2 then z 19 16 && z 11 0
    else if sub = 3 then z 11 0 else sub == 4
  | 0x3D => if sub = 0 then z 8 0 else if sub = 1 then z 7 0 else sub == 2 && z 24 16 && z 11 0
  | 0x3E =>
    if sub = 0 then z 3 0 else if sub = 1 then z 25 22 && z 11 9 && z 7 0
    else decide (sub ≤ 4) && z 20 20 && z 11 0
  | _ => decide ((0x02 ≤ maj ∧ maj ≤ 0x09) ∨ (0x10 ≤ maj ∧ maj ≤ 0x17) ∨ (0x19 ≤ maj ∧ maj ≤ 0x1D)
      ∨ (0x20 ≤ maj ∧ maj ≤ 0x28) ∨ maj = 0x2A ∨ maj = 0x36)

/-- A reserved word: no instruction's layout gives it. -/
def reservedWord (w : W32) : Bool := !laidOut w.toNat

end Sys2Proof
end

