-- ==== Sys2Proof/Machine/Fp.lean ====
section
/-! DEFINITION. Number formats, rounding and conversion (chapter 7): exact values, encodings, flags, block scales and the
arithmetic that rounds once. -/

namespace Sys2Proof.Machine
open Sys2Proof

/-- The exact value of an operand or result: ±m × 2^e, an infinity, or NaN. A zero keeps its sign. -/
inductive FV where
  | fin (neg : Bool) (m : Nat) (e : Int)
  | inf (neg : Bool)
  | nan
  deriving DecidableEq, Repr

def FV.zero (neg : Bool) : FV := .fin neg 0 0
def FV.ofInt (i : Int) : FV := .fin (decide (i < 0)) i.natAbs 0

/-- Rounding modes, coded as FFLAGS.RM (R37, R207): 0 nearest even, 1 toward zero, 2 downward, 3 upward. -/
abbrev RMode := Nat

/-- The flag bits (R212). -/
abbrev Flags := BitVec 6
def flNV : Flags := 1
def flDZ : Flags := 2
def flOF : Flags := 4
def flUF : Flags := 8
def flNX : Flags := 16
def flSAT : Flags := 32

/-- A floating format (R195): exponent bits, mantissa bits, bias, whether it has infinities, and its largest finite value as
maxM × 2^maxE. `sat`: saturating on overflow (R205). -/
structure Fmt where
  eb : Nat
  mb : Nat
  bias : Int
  ieee : Bool
  maxM : Nat
  maxE : Int
  sat : Bool
  deriving DecidableEq, Repr

def fmtFp32 : Fmt := ⟨8, 23, 127, true, 0xFFFFFF, 104, false⟩
def fmtBf16 : Fmt := ⟨8, 7, 127, true, 0xFF, 120, false⟩
def fmtFp16 : Fmt := ⟨5, 10, 15, true, 0x7FF, 5, false⟩
def fmtE4m3 : Fmt := ⟨4, 3, 7, false, 14, 5, true⟩
def fmtE5m2 : Fmt := ⟨5, 2, 15, true, 7, 13, false⟩
def fmtE3m2 : Fmt := ⟨3, 2, 3, false, 7, 2, true⟩
def fmtE2m3 : Fmt := ⟨2, 3, 1, false, 15, -1, true⟩
def fmtE2m1 : Fmt := ⟨2, 1, 1, false, 3, 1, true⟩

/-- The element format of a format code (R130, R195); INT32 and INT8 have none. -/
def fmtOf (code : Nat) : Fmt :=
  if code = 1 then fmtBf16 else if code = 2 ∨ code = 7 then fmtFp16 else if code = 3 ∨ code = 8 then fmtE4m3
  else if code = 4 ∨ code = 9 then fmtE5m2 else if code = 10 then fmtE3m2 else if code = 11 then fmtE2m3
  else if code = 12 then fmtE2m1 else fmtFp32

/-- Bits of an element (R130). -/
def elemBits (code : Nat) : Nat :=
  if code = 0 ∨ code = 5 then 32 else if code = 1 ∨ code = 2 ∨ code = 7 then 16
  else if code = 10 ∨ code = 11 then 6 else if code = 12 then 4 else 8
def isIntCode (code : Nat) : Bool := code == 5 || code == 6
/-- The block-scaled formats: G16 and the MX formats (R198). -/
def blockScaled (code : Nat) : Bool := decide (7 ≤ code)
def isMx (code : Nat) : Bool := decide (8 ≤ code)

/-- The canonical NaN of a format with one (R195). -/
def Fmt.canonNan (f : Fmt) : Nat :=
  if f.ieee then (2 ^ f.eb - 1) * 2 ^ f.mb + 2 ^ (f.mb - 1) else 2 ^ (f.eb + f.mb) - 1
def Fmt.hasNan (f : Fmt) : Bool := f.ieee || f == fmtE4m3
def Fmt.infBits (f : Fmt) : Nat := (2 ^ f.eb - 1) * 2 ^ f.mb
/-- The encoding of the largest finite value. -/
def Fmt.maxBits (f : Fmt) : Nat :=
  if f.ieee then f.infBits - 1 else if f == fmtE4m3 then 2 ^ (f.eb + f.mb) - 2 else 2 ^ (f.eb + f.mb) - 1
def Fmt.signed (f : Fmt) (neg : Bool) (b : Nat) : Nat := b2n neg * 2 ^ (f.eb + f.mb) + b

/-- The value that a format's bits encode (R195, R196). -/
def Fmt.decode (f : Fmt) (bits : Nat) : FV :=
  let neg := bits.testBit (f.eb + f.mb)
  let ex := (bits >>> f.mb) % 2 ^ f.eb
  let m := bits % 2 ^ f.mb
  if f.ieee ∧ ex = 2 ^ f.eb - 1 then (if m = 0 then .inf neg else .nan)
  else if f = fmtE4m3 ∧ bits % 128 = 127 then .nan
  else if ex = 0 then .fin neg m (1 - f.bias - f.mb)
  else .fin neg (2 ^ f.mb + m) ((ex : Int) - f.bias - f.mb)

/-- Round m × 2^e to a multiple of 2^q: the multiple, and whether it is inexact (R207). -/
def roundTo (mode : RMode) (neg : Bool) (m : Nat) (e q : Int) : Nat × Bool :=
  if q ≤ e then (m <<< (e - q).toNat, false)
  else
    let k := (q - e).toNat
    let n := m >>> k
    let r := m % 2 ^ k
    let half := 2 ^ (k - 1)
    let up := match mode with
      | 0 => decide (half < r) || (r == half && n % 2 == 1)
      | 1 => false
      | 2 => neg && r != 0
      | _ => !neg && r != 0
    (if up then n + 1 else n, r != 0)

/-- Exponent of the highest 1 bit of m × 2^e. -/
def topExp (m : Nat) (e : Int) : Int := (Nat.log2 m : Int) + e

/-- The grid that a finite nonzero value is rounded to in a format, and the rounded multiple. -/
def Fmt.grid (f : Fmt) (m : Nat) (e : Int) : Int := max (topExp m e) (1 - f.bias) - f.mb

/-- m × 2^e exceeds n × 2^q. -/
def dyadicLt (n : Nat) (q : Int) (m : Nat) (e : Int) : Bool :=
  if q ≤ e then decide (n < m <<< (e - q).toNat) else decide (n <<< (q - e).toNat < m)

/-- A finite nonzero value overflows in a format under a rounding mode (R205). -/
def Fmt.overflows (f : Fmt) (mode : RMode) (neg : Bool) (m : Nat) (e : Int) : Bool :=
  if m = 0 then false
  else
    let q := f.grid m e
    dyadicLt f.maxM f.maxE (roundTo mode neg m e q).1 q

/-- Encode an exact value into a floating format, rounding once (R205, R207, R212). -/
def Fmt.encode (f : Fmt) (mode : RMode) : FV → Nat × Flags
  | .nan => (f.canonNan, 0)
  | .inf neg => if f.sat then (f.signed neg f.maxBits, flSAT) else (f.signed neg f.infBits, 0)
  | .fin neg m e =>
    if m = 0 then (f.signed neg 0, 0)
    else
      let q := f.grid m e
      let (n, inexact) := roundTo mode neg m e q
      if f.overflows mode neg m e then
        if f.sat then (f.signed neg f.maxBits, flSAT ||| flNX)
        else
          let toMax := mode == 1 || (mode == 2 && !neg) || (mode == 3 && neg)
          (f.signed neg (if toMax then f.maxBits else f.infBits), flOF ||| flNX)
      else
        -- n × 2^q, with n below 2^(mb+1), or equal to it where rounding carried
        let ex := q + f.mb + f.bias
        let bits := if n < 2 ^ f.mb then n else ((ex - 1).toNat * 2 ^ f.mb) + n
        let tiny := decide (topExp m e < 1 - f.bias)
        (f.signed neg bits, if inexact then (if tiny then flUF ||| flNX else flNX) else 0)

/-- Encode into a two's complement integer of w bits, saturating (R205). -/
def encodeInt (w : Nat) (mode : RMode) : FV → Nat × Flags
  | .nan => (0, flNV)
  | .inf neg => (if neg then 2 ^ (w - 1) else 2 ^ (w - 1) - 1, flSAT)
  | .fin neg m e =>
    let (n, inexact) := roundTo mode neg m e 0
    if neg then
      if 2 ^ (w - 1) < n then (2 ^ (w - 1), flSAT ||| flNX)
      else ((2 ^ w - n) % 2 ^ w, if inexact then flNX else 0)
    else
      if 2 ^ (w - 1) - 1 < n then (2 ^ (w - 1) - 1, flSAT ||| flNX)
      else (n, if inexact then flNX else 0)

/-- Encode an element of any format code, without a scale (R205). -/
def encodeElem (code : Nat) (mode : RMode) (v : FV) : Nat × Flags :=
  if code = 5 then encodeInt 32 mode v else if code = 6 then encodeInt 8 mode v else (fmtOf code).encode mode v

/-- The value of an element of any format code, without a scale. -/
def decodeElem (code bits : Nat) : FV :=
  if code = 5 then .ofInt (Sys2Proof.signed 32 bits) else if code = 6 then .ofInt (Sys2Proof.signed 8 bits)
  else (fmtOf code).decode bits

/-- Multiply a value by a power of two. -/
def FV.scale (v : FV) (k : Int) : FV :=
  match v with
  | .fin n m e => .fin n m (e + k)
  | v => v

/-- The value of an element under its group's scale byte (R198). -/
def decodeScaled (code x bits : Nat) : FV :=
  if x = 255 then .nan else (decodeElem code bits).scale ((x : Int) - 127)

/-! ### Arithmetic on exact values (R202, R203, R206, R212) -/

def FV.isNan : FV → Bool
  | .nan => true
  | _ => false
def FV.isInf : FV → Bool
  | .inf _ => true
  | _ => false
def FV.isZero : FV → Bool
  | .fin _ m _ => m == 0
  | _ => false
def FV.sign : FV → Bool
  | .fin n _ _ => n
  | .inf n => n
  | .nan => false
def FV.negate : FV → FV
  | .fin n m e => .fin (!n) m e
  | .inf n => .inf (!n)
  | .nan => .nan
def FV.absv : FV → FV
  | .fin _ m e => .fin false m e
  | .inf _ => .inf false
  | .nan => .nan

/-- m × 2^e as a multiple of 2^q, for q at most e. -/
def alignTo (neg : Bool) (m : Nat) (e q : Int) : Int :=
  let v : Int := (m <<< (e - q).toNat : Nat)
  if neg then -v else v

/-- The exact sum; an exact zero sum of operands with different signs is −0 downward, else +0 (R203). -/
def fvAdd (mode : RMode) (a b : FV) : FV × Flags :=
  match a, b with
  | .nan, _ => (.nan, 0)
  | _, .nan => (.nan, 0)
  | .inf x, .inf y => if x = y then (.inf x, 0) else (.nan, flNV)
  | .inf x, _ => (.inf x, 0)
  | _, .inf y => (.inf y, 0)
  | .fin x m e, .fin y n f =>
    let q := min e f
    let v := alignTo x m e q + alignTo y n f q
    if v = 0 then (.fin (if m = 0 ∧ n = 0 ∧ x = y then x else mode == 2) 0 q, 0)
    else (.fin (decide (v < 0)) v.natAbs q, 0)

/-- The exact product; ∞ × 0 is NaN with NV. -/
def fvMul (a b : FV) : FV × Flags :=
  match a, b with
  | .nan, _ => (.nan, 0)
  | _, .nan => (.nan, 0)
  | .inf x, .inf y => (.inf (x != y), 0)
  | .inf x, .fin y n _ => if n = 0 then (.nan, flNV) else (.inf (x != y), 0)
  | .fin x m _, .inf y => if m = 0 then (.nan, flNV) else (.inf (x != y), 0)
  | .fin x m e, .fin y n f => (.fin (x != y) (m * n) (e + f), 0)

/-- c + a × b, exact. -/
def fvFma (mode : RMode) (c a b : FV) : FV × Flags :=
  let (p, f1) := fvMul a b
  let (r, f2) := fvAdd mode c p
  (r, f1 ||| f2)

/-- c − a × b, exact. -/
def fvFms (mode : RMode) (c a b : FV) : FV × Flags :=
  let (p, f1) := fvMul a b
  let (r, f2) := fvAdd mode c p.negate
  (r, f1 ||| f2)

/-- Append a sticky bit: a value just above m × 2^e where the remainder is not 0. -/
def sticky (m : Nat) (rest : Bool) : Nat := 2 * m + b2n rest

/-- The quotient, with a sticky bit below at least 64 correct bits (R206). -/
def fvDiv (a b : FV) : FV × Flags :=
  match a, b with
  | .nan, _ => (.nan, 0)
  | _, .nan => (.nan, 0)
  | .inf _, .inf _ => (.nan, flNV)
  | .inf x, .fin y _ _ => (.inf (x != y), 0)
  | .fin x _ _, .inf y => (.fin (x != y) 0 0, 0)
  | .fin x m e, .fin y n f =>
    if n = 0 then (if m = 0 then (.nan, flNV) else (.inf (x != y), flDZ))
    else if m = 0 then (.fin (x != y) 0 0, 0)
    else
      let k := 64 + Nat.log2 n
      let num := m <<< k
      (.fin (x != y) (sticky (num / n) (num % n != 0)) (e - f - k - 1), 0)

/-- The integer square root, bit by bit. -/
def isqrt (n : Nat) : Nat :=
  let k := Nat.log2 n / 2 + 1
  (List.range k).foldl (fun r i => let t := r + 2 ^ (k - 1 - i); if t * t ≤ n then t else r) 0

/-- The square root, with a sticky bit. -/
def fvSqrt (a : FV) : FV × Flags :=
  match a with
  | .nan => (.nan, 0)
  | .inf x => if x then (.nan, flNV) else (.inf false, 0)
  | .fin x m e =>
    if m = 0 then (.fin x 0 0, 0)
    else if x then (.nan, flNV)
    else
      let (m', e') := if e % 2 = 0 then (m, e) else (2 * m, e - 1)
      let w := m' <<< 128
      let r := isqrt w
      (.fin false (sticky r (r * r != w)) ((e' - 128) / 2 - 1), 0)

/-- The reciprocal square root, with a sticky bit. -/
def fvRsqrt (a : FV) : FV × Flags :=
  match a with
  | .nan => (.nan, 0)
  | .inf x => if x then (.nan, flNV) else (.fin false 0 0, 0)
  | .fin x m e =>
    if m = 0 then (.inf x, flDZ)
    else if x then (.nan, flNV)
    else
      let (m', e') := if e % 2 = 0 then (m, e) else (2 * m, e - 1)
      let k := 64 + Nat.log2 m'
      let r := isqrt ((2 ^ (2 * k)) / m')
      (.fin false (sticky r (r * r * m' != 2 ^ (2 * k))) (-(k : Int) - e' / 2 - 1), 0)

def fvOne : FV := .fin false 1 0

/-- Exact comparison of two values that are not NaN: −1, 0 or 1; −0 equals +0 (R206). -/
def fvCmp (a b : FV) : Int :=
  match a, b with
  | .inf x, .inf y => if x = y then 0 else if x then -1 else 1
  | .inf x, _ => if x then -1 else 1
  | _, .inf y => if y then 1 else -1
  | .fin x m e, .fin y n f =>
    let q := min e f
    let d := alignTo x m e q - alignTo y n f q
    if d < 0 then -1 else if d = 0 then 0 else 1
  | _, _ => 0

/-- Order of minimum and maximum: −0 below +0 (R206). -/
def fvLess (a b : FV) : Bool :=
  let c := fvCmp a b
  c == -1 || (c == 0 && a.isZero && b.isZero && a.sign && !b.sign)
def fvMin (a b : FV) : FV := if a.isNan || b.isNan then .nan else if fvLess b a then b else a
def fvMax (a b : FV) : FV := if a.isNan || b.isNan then .nan else if fvLess a b then b else a

/-! ### Block scales (R199) -/

/-- |a| below |b| for finite values. -/
def absLt (a b : FV) : Bool :=
  match a, b with
  | .fin _ m e, .fin _ n f => dyadicLt m e n f
  | _, _ => false

/-- The largest finite magnitude of a group, if any value is finite and not 0. -/
def groupMax (vs : List FV) : Option (Nat × Int) :=
  vs.foldl (fun (best : Option (Nat × Int)) v =>
    match v with
    | .fin _ m e =>
      if m = 0 then best
      else match best with
        | none => some (m, e)
        | some (n, f) => if dyadicLt n f m e then some (m, e) else best
    | _ => best) none

/-- floor(log2 M) of a block-scaled format (R199). -/
def scaleEmax (code : Nat) : Int :=
  if code = 7 ∨ code = 9 then 15 else if code = 8 then 8 else if code = 10 then 4 else 2

/-- The scale byte of a group (R199). -/
def chooseScale (code : Nat) (mode : RMode) (vs : List FV) : Nat :=
  match groupMax vs with
  | none => 0
  | some (m, e) =>
    let x := topExp m e - scaleEmax code + 127
    let past := vs.any fun v => match v with
      | .fin n a b => !(dyadicLt a b m e) && (fmtOf code).overflows mode n a (b - (x - 127))
      | _ => false
    let x := if past then x + 1 else x
    (min (max x 0) 254).toNat

/-- A group's scale byte, elements and flags (R199, R213). -/
def encodeGroup (code : Nat) (mode : RMode) (vs : List FV) : Nat × List Nat × Flags :=
  if isMx code && vs.any (fun v => v.isNan || v.isInf) then
    (255, vs.map fun _ => 0, if vs.any FV.isInf then flNV else 0)
  else
    let x := chooseScale code mode vs
    let es := vs.map fun v => (fmtOf code).encode mode (v.scale (127 - (x : Int)))
    (x, es.map (·.1), es.foldl (fun f e => f ||| e.2) 0)

/-! ### FP32 by bits -/

def fpDec (w : Nat) : FV := fmtFp32.decode w
/-- Round an exact result to FP32 (rnd32). -/
def fpEnc (mode : RMode) (r : FV × Flags) : Nat × Flags :=
  let (b, f) := fmtFp32.encode mode r.1
  (b, f ||| r.2)

/-- FP32 addition and multiplication to nearest even, as the folds and the strait engine do them (R119, R211). -/
def fp32Add (a b : Nat) : Nat × Flags := fpEnc 0 (fvAdd 0 (fpDec a) (fpDec b))
def fp32Mul (a b : Nat) : Nat × Flags := fpEnc 0 (fvMul (fpDec a) (fpDec b))

end Sys2Proof.Machine
end

