-- ==== Sys2Proof/Config.lean ====
section
/-! DEFINITION. What an installation fixes, and the free values: constants with no body, whose values nothing in
Lean can see. Each is named in a row of notes/assumptions. -/

namespace Sys2Proof

/-- A fresh free number for the n-th point the manual leaves open. -/
opaque Config.freeNat : Nat → Nat
/-- The distance in units in the last place of an Exponential or Function class result from the correctly rounded
one (R113), for an operation number and the operand's bits; used clamped to the bound. -/
opaque Config.functionUlp : Nat → Nat → Int
/-- The address at which firmware releases compute and mainland cores (R383). -/
opaque Config.coreResetPc : W64
/-- Handler address and stack of the shipped M firmware on a core (R412). -/
opaque Config.firmwareHandler : Nat → W64
opaque Config.firmwareStack : Nat → W64
/-- Where the shipped M firmware's gate table of a core lies (R412). -/
opaque Config.firmwareTable : Nat → W64
/-- Parameters that a configuration blob of the given body holds (R389): BINCAP (R281, R286), THRESH of a detector's counter
(R410), CQAGE.r.LIMIT where it gives one (R374), and a byte of the 60-byte operator debug key (R396). -/
opaque Config.blobBinCap : List Byte → Nat
opaque Config.blobThresh : List Byte → Nat → Nat
opaque Config.blobAgeLimit : List Byte → Nat → Option Nat
opaque Config.blobOperatorKey : List Byte → Nat → Byte
/-- Where the service core puts the mainland boot image in die 0's DRAM (R384). -/
opaque Config.bootImageBase : Nat
/-- Event code of the record that extends a measurement register, by register and kind of event (R393). -/
opaque Config.measureCode : Nat → Nat → BitVec 16
/-- The identity seed that the PUF yields (R389). -/
opaque Config.pufSeed : Nat → Byte
/-- The vendor root key of the boot ROM, 60 bytes (R389). -/
opaque Config.vendorKey : Nat → Byte
/-- A byte of boot flash whose place the manual does not give, from its offset and what flash keeps there beside the images: the
active banks, the atoll maps and the identity links. -/
opaque Config.flashByte : SMap Nat → SMap Nat → SMap (List Byte) → Nat → Byte
/-- Where a byte of boot flash lies: in an image by bank key and byte; a bit of a unary counter of the monotonic region, by offset
and bit, as a counter and a position (counters 0 VENDOR_ENTRIES, 1 UNLOCK, 2 + c FLOOR.c, 6 + i LEAF.i); a byte of the crash
region, by offset, as a ring and a byte of its entries (R390, R392, R420). -/
opaque Config.flashImage : Nat → Option (Nat × Nat)
opaque Config.flashBit : Nat → Nat → Option (Nat × Nat)
opaque Config.flashCrash : Nat → Option (Nat × Nat)
/-- A byte of the boot ROM. -/
opaque Config.bootRomByte : Nat → Byte
/-- Firmware versions of the banks as shipped, by component and bank (R391). -/
opaque Config.shippedVersion : Nat → Nat → Nat
/-- MINVER and the body of the bank as shipped, by component and bank (R391). -/
opaque Config.shippedMinver : Nat → Nat → Nat
opaque Config.shippedBody : Nat → Nat → List Byte
/-- A byte of a die controller's memory that no firmware image and no write has set, by core key and offset (R383). -/
opaque Config.controllerByte : Nat → Nat → Byte
/-- ECC syndrome, bank and row that a DRAM detector reports (R416). -/
opaque Config.eccSyndrome : Nat → W64
opaque Config.bankRow : Nat → W64
/-- Lanes of a causeway module that its spare lanes can replace (R293). -/
opaque Config.spareLanes : Nat
/-- The contents of PCIe configuration space, where R435 does not give them, and the place of a capability in it. -/
opaque Config.pcieConfig : Nat → W32
opaque Config.pcieCapPlace : Nat → Nat
/-- What the service console has sent, from what it has received (R438). -/
opaque Config.consoleText : List Byte → List Byte
/-- The entry of the inbound window table that a store of `n` bytes of value `v` at an address of mainland register space writes:
BAR0 page and table entry (R267, R435). -/
opaque Config.inboundRegister : Nat → Nat → Nat → Option (Nat × Nat)
/-- A byte of the 32-byte randomizer of a one-time signature, by tree and leaf (R394, R395). -/
opaque Config.lmotsRandom : Nat → Nat → Nat → Byte
/-- The identification word of a TAP controller apart from its part field (R440). -/
opaque Config.idcodeRest : Nat → Nat
/-- The bytes of a trace record, whose layout the manual does not give (R404). -/
opaque Config.traceRecord : Nat → List Byte
/-- The mainland general core, modulo 16, that a debug TARGET with a bit of [14:9] set names (R404, R441). -/
opaque Config.mainlandTarget : Nat → Nat
/-- What a boundary-scan chain reads (R404). -/
opaque Config.scanBits : Nat → List Bool

end Sys2Proof
end

