-- ==== Sys2Proof/Machine/State.lean ====
section
/-! DEFINITION. The state of the board as plain data: every register, FIFO, buffer, cache, tile, counter, mode and
pin that the manual names, and the queue of waiting commands. The default of each field is its reset value. -/

namespace Sys2Proof.Machine

/-- The three levels (R69). -/
inductive Level where
  | u | s | m
  deriving DecidableEq, Repr

/-- Whether a core issues (R84, R383, R384). A halted core keeps its halting cause. -/
inductive CoreRun where
  | inReset
  | running
  | halted (cause : Nat)
  deriving DecidableEq, Repr

/-- What a core that has issued a waiting instruction waits for (R58, R150, R152, R255). -/
inductive Wait where
  | none
  | recv (d : BitVec 5) (mbx : BitVec 4)
  | swait (k : BitVec 3) (thr : Option W64)
  | lbar
  | fenceTask
  deriving DecidableEq, Repr

/-- A machine-check condition waiting for an instruction boundary (R411). -/
structure Mchk where
  num : Nat
  index : Nat
  addr : W64
  deferred : Bool
  /-- a FATAL detection that a die controller or the service core takes; and one that an injection caused -/
  fatal : Bool := false
  injected : Bool := false
  deriving DecidableEq, Repr

/-- A message (R53 to R58, R329). `engine` names the die whose strait engine sent it. -/
structure Msg where
  tag : BitVec 16
  epoch : BitVec 16
  src : Nat
  mbx : Nat
  dst : Nat
  payload : List W64
  engine : Option Nat
  deriving DecidableEq, Repr

/-- Where a queued message stands between its sender and its receiver (R299). -/
inductive OutState where
  | queued | inFlight | refused | refusedFull
  deriving DecidableEq, Repr

/-- An entry of an outbound queue (R57, R299) or of a strait engine's notice queue (R329). -/
structure OutMsg where
  msg : Msg
  st : OutState := .queued
  deriving DecidableEq, Repr

/-- Answers of the receiving core (R299, R300). -/
inductive Answer where
  | accept | discard | refuse | refuseFull
  deriving DecidableEq, Repr

/-- An acknowledgement on its way back to the sender of a message. -/
structure Ack where
  msg : Msg
  ans : Answer
  deriving DecidableEq, Repr

/-- A WAKE on its way to a refused sender (R300). -/
structure Wake where
  sender : Nat
  engine : Option Nat
  dst : Nat
  mbx : Nat
  deriving DecidableEq, Repr

/-- An entry of a core's wait list, or a slot reserved for a woken sender (R300). -/
structure Waiter where
  sender : Nat
  engine : Option Nat
  mbx : Nat
  deriving DecidableEq, Repr

/-- A stream unit (R141, R143, R149, R154, R159). `state`: 0 IDLE, 1 RUNNING, 2 HALTED, 3 DONE. -/
structure StreamUnit where
  state : Nat := 0
  src : List W64 := []
  dst : List W64 := []
  ctl : W64 := 0
  note : W64 := 0
  epoch : BitVec 16 := 0
  level : Level := .u
  cls : Nat := 0
  credits : Nat := 0
  crovf : Bool := false
  fdir : Bool := false
  fcause : Nat := 0
  flags : BitVec 6 := 0
  target : Nat := 0
  iter : Nat := 0
  index : Nat := 0
  sfaddr : W64 := 0
  sfill : Nat := 0
  /-- bytes written into the destination since SGO, in walk order -/
  moved : Nat := 0
  /-- credits taken for operand-cache bytes since SGO, or ahead for the next W register of the ring -/
  paid : Nat := 0
  /-- the credits of the tile or W register being written are taken -/
  taken : Bool := false
  /-- source elements and scales of a tile row's scale group that is not complete (R199) -/
  part : List (Nat × Nat) := []
  /-- bytes written into 64-byte spans not yet filled, by place, and those of these spans that another unit has written since (R148) -/
  span : List (Nat × Byte) := []
  hit : List Nat := []
  /-- what the unit has written of the tile row being filled: bits, and scale bytes by group (R148) -/
  rowBits : Nat := 0
  rowScales : List (Nat × Nat) := []
  /-- number of tiles or W registers of the ring filled since SGO, and the element position in the present one -/
  tileNo : Nat := 0
  tilePos : Nat := 0
  /-- every element is moved; the notice still waits for a queue slot (R144) -/
  noticeDue : Bool := false
  /-- physical lines written, for the release of R252 -/
  wrote : List Nat := []
  deriving DecidableEq, Repr

/-- A T tile, Z tile or W register (R160 to R165). `st`: 0 EMPTY, 1 FILLING, 2 FULL, 3 PARTIAL, 4 RELEASING.
Row r of a T tile lies at byte 64 r, of a Z tile at 128 r, of a W register at 64 r. -/
structure Tile where
  rows : Nat := 0
  st : Nat := 0
  poison : Bool := false
  /-- the detector that produced POISON (R416) -/
  pdet : Nat := 0
  fmt : Nat := 0
  writer : Nat := 15
  data : SMap Byte := []
  scale : SMap Byte := []
  /-- rows that hold a word with an error (R193): row × 8 + 1 single bit, 2 uncorrectable, + 4 where injected -/
  bad : List Nat := []
  deriving DecidableEq, Repr

/-- The weights in the cells of an array (R163, R177, R220): element code and block scale of cell 32 k + c.
`cls`: 0 none, 1 16-bit, 2 8-bit, 3 4-bit. -/
structure Cells where
  cls : Nat := 0
  fmt : Nat := 0
  code : SMap Nat := []
  scl : SMap Nat := []
  deriving DecidableEq, Repr

/-- A request of a gather group (R187): its T tile and that tile's format, first Z tile, ACC, and for each block whether its Z
tile held data when the request was accepted. -/
structure GReq where
  t : Nat
  tf : Nat
  z : Nat
  acc : Bool
  zHeld : List Bool
  deriving DecidableEq, Repr

/-- An open gather group (R187, R188). `rels`: tiles to release after it, with their writers. -/
structure Gather where
  w : Nat
  nw : Nat
  cls : Nat
  reqs : List GReq
  rels : List (Nat × Nat)
  tokens : Nat
  timed : Bool
  deriving DecidableEq, Repr

/-- An accepted background instruction that has not completed, in program order (R88, R166). Tile operands are tile codes;
`held`: the Z tile held data when the instruction was accepted. `rel` is a release that waits for earlier readers (R184), with
the tile's writer. -/
inductive BgOp where
  | pass (arr t tf w z : Nat) (acc keep held : Bool)
  | gather (arr w nw j : Nat) (reqs : List GReq)
  | rel (tile writer : Nat)
  | tmov (tile pk base dir tfmt ofmt : Nat) (held : Bool)
  | mmbwd (dy dx xf w z : Nat) (acc keep tw held : Bool)
  | zdrain (z roff : Nat) (acc held : Bool)
  | gacc (form z row : Nat) (held : Bool)
  deriving DecidableEq, Repr

/-- The snapshot of a ZDRAIN (R224, R225): the accumulators, whether no token stood in them, and APOIS. -/
structure Shadow where
  snap : SMap W32
  idle : Bool
  pois : Bool
  deriving DecidableEq, Repr

/-- A line of a core's L1 data cache (R233, R234, R265). `line` is the physical, `vline` the virtual line number.
`poison` is 0 or the producing detector of a poison mark, plus 65,536 where an injection made it; `fresh` the bytes
written since the mark was set. `err`: 1 a single-bit, 2 an uncorrectable error in the stored word, plus 4 where an
injection made it; `errWord` the 8-byte word that holds it. -/
structure L1Line where
  valid : Bool := false
  line : Nat := 0
  vline : Nat := 0
  data : LineData := 0
  dirty : LineMask := 0
  poison : Nat := 0
  fresh : LineMask := 0
  err : Nat := 0
  errWord : Nat := 0
  lru : Nat := 0
  deriving DecidableEq, Repr

/-- A line of a lagoon (R240, R265). `st`: 0 ZERO, 1 COMPRESSED, 2 FULL. -/
structure LagLine where
  valid : Bool := false
  line : Nat := 0
  data : LineData := 0
  dirty : LineMask := 0
  st : Nat := 0
  poison : Nat := 0
  fresh : LineMask := 0
  err : Nat := 0
  errWord : Nat := 0
  lru : Nat := 0
  /-- a TRANSIENT or prefetched line not accessed since it was entered (R237, R245) -/
  transient : Bool := false
  deriving DecidableEq, Repr

/-- A line of the instruction cache (R263). -/
structure IcLine where
  valid : Bool := false
  line : Nat := 0
  data : LineData := 0
  err : Nat := 0
  lru : Nat := 0
  deriving DecidableEq, Repr

/-- A tracker of the stream detector (R245). -/
structure Tracker where
  core : Nat
  line : Nat
  dir : Int
  hits : Nat
  lru : Nat
  deriving DecidableEq, Repr

/-- A dead-range entry (R258): the aligned 16 MiB region and its marked lines. -/
structure DeadEntry where
  valid : Bool := false
  region : Nat := 0
  bits : SMap Bool := []
  deriving DecidableEq, Repr

/-- A leaf held in a TLB (R278): page number at the page's size, its physical base, its U X W R bits and whether it
belongs to the M translation. -/
structure TlbEntry where
  m : Bool
  log2 : Nat
  vpn : Nat
  pa : Nat
  perm : Nat
  deriving DecidableEq, Repr

/-- A pointer entry held in a walk cache, tagged with its root (R277, R278): the walk level of the table it was read
from, the virtual address bits above that level's page, and the next table's base. -/
structure WalkEntry where
  root : Nat
  level : Nat
  key : Nat
  next : Nat
  deriving DecidableEq, Repr

/-- What a trace record tells of (R404). -/
inductive TraceKind where
  | branch | entry | ret | stop | mGap | ended
  deriving DecidableEq, Repr

/-- A trace capture in progress on a core (R404): its buffer, the bytes used and the records made. -/
structure Trace where
  pa : Nat
  bytes : Nat
  used : Nat
  records : List (TraceKind × W64)
  /-- the M-GAP record of the present stay at M is written -/
  gap : Bool := false
  deriving DecidableEq, Repr

/-- A debug request (R404, R441). -/
inductive DebugReq where
  | halt | step | run
  | read (level : Nat) (regs : List Nat)
  | traceOn (pa bytes : Nat)
  | traceOff
  deriving DecidableEq, Repr

/-- A core (R16): its programmer's state, its engines and its private caches. -/
structure Core where
  x : SMap W64 := []
  f : SMap W32 := []
  pc : W64 := 0
  level : Level := .m
  ieS : Bool := false
  ieM : Bool := false
  /-- system registers that hold what is written to them, by number (R48) -/
  sys : SMap W64 := []
  run : CoreRun := .inReset
  /-- GATEBASE.M names the shipped M firmware's gate table, which the firmware has installed on this core (R75, R412) -/
  mfw : Bool := false
  dbgHalted : Bool := false
  dbgHaltReq : Bool := false
  dbgStep : Bool := false
  /-- a VTRAP whose instruction has completed, not taken yet: the level and PC at that boundary, and the flags (R77, R123) -/
  vtrapDue : Option (Level × W64 × Nat) := none
  wait : Wait := .none
  mchk : List Mchk := []
  notices : List (BitVec 16) := []
  trace : Option Trace := none
  dbgDeferred : Option DebugReq := none
  -- messages
  mbx : SMap (List Msg) := []
  outq : List OutMsg := []
  waitlist : List Waiter := []
  reserved : List Waiter := []
  staleRun : Option (BitVec 16) := none
  -- vector engine
  oc : SMap Byte := []
  ocBad : List Nat := []
  -- descriptors and streams
  desc : SMap W64 := []
  units : SMap StreamUnit := []
  rr : Nat := 0
  -- matrix engine
  tiles : SMap Tile := []
  cells0 : Cells := {}
  cells1 : Cells := {}
  transp0 : Bool := false
  mode1 : Bool := false
  acc : SMap W32 := []
  /-- the drain shadow of the oldest ZDRAIN, while it is being written (R225) -/
  shadow : Option Shadow := none
  atok : Nat := 0
  apois : Bool := false
  mxflags : BitVec 6 := 0
  bg : List BgOp := []
  gather0 : Option Gather := none
  gather1 : Option Gather := none
  gbuf : SMap W32 := []
  gbpois : W64 := 0
  gbBad : List Nat := []
  /-- ROWS at the stop of a TLD, by its PC tag × 64 + tile code (R191) -/
  tldStops : SMap Nat := []
  -- caches and translation
  l1 : SMap L1Line := []
  l1clock : Nat := 0
  icache : SMap IcLine := []
  icClock : Nat := 0
  itlb : List TlbEntry := []
  dtlb : List TlbEntry := []
  stlb : List TlbEntry := []
  taskArrived : Bool := false
  taskRan : Bool := false
  /-- a write of a register has stored an injected parity error (R409, R414) -/
  parity : Bool := false
  /-- the 256 KiB controller memory of a die controller or the service core (R383): the firmware loaded into it, and the bytes
  written since -/
  ctlBody : List Byte := []
  ctlMem : SMap (Option Byte) := []
  deriving DecidableEq, Repr

/-- A physical atoll position (R14), or the mainland cache under a key of its own: lagoon, windows, dead-range entries,
detector, walk cache and power. -/
structure Atoll where
  powered : Bool := false
  gated : Bool := false
  /-- a FATAL detection of the atoll: its cores issue nothing more (R408) -/
  failed : Bool := false
  sys : SMap W64 := []
  lag : SMap LagLine := []
  lagClock : Nat := 0
  trackers : List Tracker := []
  deadr : SMap DeadEntry := []
  walk : List WalkEntry := []
  /-- injected errors stored in the lagoon's tags, by key, and in the dead bitmap, by 2^20 plus the entry (R409, R414) -/
  tagBad : List (Nat × Nat) := []
  deriving DecidableEq, Repr

/-- An arbiter (R285, R290, R374): the waiting requests of each class, oldest first, and its age, classes in the order in
which they became urgent, and the weighted round robin's place (class and grants left in its turn). A request is the
list of the arbiters that it still has to pass after this one. -/
structure Arbiter where
  waiting : SMap (List (List Nat)) := []
  age : SMap Nat := []
  urgent : List Nat := []
  rrCls : Nat := 0
  rrLeft : Nat := 0
  deriving DecidableEq, Repr

/-- An output of the response plane (R290): the waiting packets of each input, as the hops still before them, and the input served
last. -/
structure RespPort where
  waiting : SMap (List (List Nat)) := []
  last : Nat := 4
  deriving DecidableEq, Repr

/-- A memory module in a socket of a die (R281): capacity in GB, speed bin in MT/s, organisation, and whether its channel trains. -/
structure Dimm where
  gb : Nat := 96
  mts : Nat := 11200
  x4 : Bool := true
  ranks : Nat := 2
  trains : Bool := true
  deriving DecidableEq, Repr

/-- A segment operand of a strait engine: the FP32 values of one 32-element group; none is ABSENT (R322). -/
abbrev GroupVal := Option (List W32)

/-- The strait engine of a die (R318 to R336). `state`: 0 IDLE, 1 WAIT, 2 REDUCE, 3 BCAST, 4 HALT. STEFLAGS and STALEFRM
stand with the die's registers. The parts of a step below `stage` are the head die's. -/
structure Engine where
  cfg : List W64 := []
  state : Nat := 0
  step : Nat := 0
  tepoch : Nat := 0
  /-- epoch and step for which the die last wrote STEREADY -/
  rdy : Option (Nat × Nat) := none
  staleRun : Option (BitVec 16) := none
  relay : List W32 := []
  /-- segment-table entries read for this step, by index -/
  tab : SMap (List W64) := []
  /-- p on C1, q on C3: die-stage sums by segment × 2^20 + group, once they are done -/
  stage : SMap (Option GroupVal) := []
  /-- groups of each segment whose node sum is done -/
  ndone : SMap Nat := []
  /-- encoded node sums (64 element bytes and the scale) not yet packed into a frame, by segment × 2^20 + group -/
  enc : SMap (List Byte) := []
  /-- some group of the segment had an operand -/
  present : SMap Bool := []
  /-- table index and frame index of the next frame to go up -/
  upSeg : Nat := 0
  upFrm : Nat := 0
  rseg : Nat := 0
  pseg : Nat := 0
  /-- STEPDONE.COUNT -/
  doneCnt : Nat := 0
  /-- groups of owned segments written from SHARD frames -/
  shardGot : SMap Nat := []
  notices : List OutMsg := []
  /-- notices that wait for a place in the queue, oldest first (R329) -/
  owed : List OutMsg := []
  /-- KIND 1 notices withheld under R344 -/
  withheld : List Nat := []
  deriving DecidableEq, Repr

/-- A strait port (R306 to R317, R336). `state`: 0 OFF, 1 DOWN, 2 TRAINING, 3 UP, 4 FAILED. -/
structure Port where
  state : Nat := 0
  fcause : Nat := 0
  pcred : Nat := 0
  hcred : Nat := 0
  fecUncorr : Nat := 0
  fecCorr : Nat := 0
  replayCnt : Nat := 0
  badfrm : Nat := 0
  txSeq : Nat := 0
  rxSeq : Nat := 0
  nakSent : Bool := false
  /-- how far after the LSEQ due the last sound frame out of sequence was (R311) -/
  rxDrop : Nat := 0
  replay : List Frame := []
  resends : Nat := 0
  /-- frames to resend before any new one (R311) -/
  resendQ : List Frame := []
  rx : List Frame := []
  qNotice : List Frame := []
  qTree : List Frame := []
  qRelay : List Frame := []
  qSnap : List Frame := []
  qPut : List Frame := []
  wrrCls : Nat := 0
  wrrLeft : Nat := 0
  /-- the CSEQ due next, the bytes of the last cell that its frame used, and whether the byte stream is discarded (R308) -/
  rxCseq : Nat := 0
  rxOff : Nat := 0
  discarding : Bool := false
  /-- the cell being sent: its CSEQ, the bytes used in it, and whether a frame starts in it (R308) -/
  txCseq : Nat := 0
  txOff : Nat := 0
  txStarted : Bool := false
  /-- the headers of the cells sent last, and the bytes on the wire of the frame in them (R308, R309) -/
  txCells : List (BitVec 20) := []
  txBytes : List Byte := []
  /-- an ACK or a NAK is due, and the last control codeword sent (R308, R311) -/
  ackDue : Bool := false
  nakDue : Bool := false
  ctlOut : Option Control := none
  freedPay : Nat := 0
  freedHdr : Nat := 0
  /-- the link was trained afresh and holds state with its peer -/
  linkState : Bool := false
  deriving DecidableEq, Repr

/-- A command packet as fetched from its slot (R369). -/
structure Packet where
  opc : Nat
  seq : Nat
  len : Nat
  target : Nat
  flags : Nat
  params : List W64
  ring : Nat
  slot : Nat
  deriving DecidableEq, Repr

/-- A parked packet (R373): the packet, for a finished operation its status and results, and for STRAIT_TRAIN the port, its
state before the training and what the training finds. -/
structure Parked where
  pkt : Packet
  ready : Bool
  status : Nat
  results : List W64
  mask : Nat
  train : Option (Nat × Nat × TrainResult) := none
  deriving DecidableEq, Repr

/-- A command ring (R364, R367). Indices count packets modulo 2^16. -/
structure Ring where
  present : Bool := false
  base : Nat := 0
  log2 : Nat := 0
  tail : Nat := 0
  fetched : Nat := 0
  replied : Nat := 0
  parked : Option Parked := none
  deriving DecidableEq, Repr

/-- A packet unit: a die controller or the service core (R363 to R377). -/
structure PUnit where
  ready : Bool := false
  rings : SMap Ring := []
  replyPresent : Bool := false
  replyBase : Nat := 0
  replyLog2 : Nat := 0
  replyHead : Nat := 0
  replyNext : Nat := 0
  phase : Bool := true
  current : Option Packet := none
  arb : Arbiter := {}
  promo : SMap Nat := []
  ageLimit : SMap Nat := []
  bootFault : Nat := 0
  /-- the CMDDIR value whose directory read is due once every fetched packet has a reply (R366), and the one read last -/
  dirPending : Option Nat := none
  dir : Nat := 0
  deriving DecidableEq, Repr

/-- An event-recorder entry (R416). -/
structure Entry where
  index : Nat
  code : Nat
  sev : Nat
  injected : Bool
  unit : Nat
  time : Nat
  loc : Nat
  count : Nat
  step : Nat
  addr : W64
  data0 : W64
  data1 : W64
  data2 : W64
  boot : Nat
  deriving DecidableEq, Repr

/-- A recorder ring (R415, R417, R419). -/
structure Recorder where
  entries : List Entry := []
  next : Nat := 0
  frozen : Bool := false
  auto : Bool := false
  copying : Bool := false
  dropped : Nat := 0
  deriving DecidableEq, Repr

/-- A counter of a detector (R410). -/
structure DetCount where
  count : Nat := 0
  overFlag : Bool := false
  thresh : Option Nat := none
  deriving DecidableEq, Repr

/-- An armed injection (R413, R414). -/
structure Armed where
  num : Nat
  loc : Nat
  kind : Nat
  deriving DecidableEq, Repr

/-- The usage meters of a die or of the board (R388). -/
structure Meters where
  handoffs : Nat := 0
  active : Nat := 0
  vec : Nat := 0
  mat : Nat := 0
  stream : Nat := 0
  strait : Nat := 0
  rdBytes : Nat := 0
  wrBytes : Nat := 0
  txBytes : Nat := 0
  rxBytes : Nat := 0
  energy : Nat := 0
  /-- nanojoules that are not yet a whole millijoule (R423) -/
  energyRest : Nat := 0
  cycles : Nat := 0
  steps : Nat := 0
  deriving DecidableEq, Repr

/-- A compute die (R16): counter, registers, arbiters, engine, task state, recorder and power. -/
structure Die where
  powered : Bool := false
  phy : Bool := false
  serdes : Bool := false
  dimmOn : Bool := false
  /-- in P3 (R400) -/
  retain : Bool := false
  ctlRunning : Bool := false
  trained : Bool := false
  zeroed : Bool := false
  ctr : Nat := 0
  sys : SMap W64 := []
  atollMap : SMap Nat := []
  offline : Nat := 0
  p1en : Nat := 0
  draining : Nat := 0
  drained : Nat := 0
  running : Nat := 0
  taskState : Nat := 0
  image : Option (List W64) := none
  /-- the modules in the eight sockets -/
  dimms : List (Option Dimm) := List.replicate 8 (some {})
  /-- sockets trained, one bit each, and the fault that boot found: 0 none, 1 empty socket, 2 unsupported module, 3 mismatch,
  4 training (R385) -/
  sockets : Nat := 0
  dimmFault : Nat := 0
  /-- a FATAL detection of the die: its cores issue nothing more (R408) -/
  failed : Bool := false
  /-- corrected DRAM errors by channel and rank, LOC of R409 (R283) -/
  corrected : SMap Nat := []
  dramCap : Nat := 0
  bin : Nat := 0
  ddr : SMap Arbiter := []
  ddrPromo : SMap Nat := []
  mesh : SMap Arbiter := []
  meshPromo : SMap Nat := []
  resp : SMap RespPort := []
  eng : Engine := {}
  meters : Meters := {}
  selfTest : Nat := 0
  deriving DecidableEq, Repr

/-- Snapshot state, held by the head die's engine and read alike by every die (R356). `status`: 0 NONE, 1 ACTIVE,
2 SECURED, 3 EXPOSED, 4 ABANDONED, 5 LOST. -/
structure Snap where
  cfg : List W64 := []
  /-- an accepted record that applies once the ACTIVE snapshot has ended (R340) -/
  newCfg : List W64 := []
  estSet : Bool := false
  /-- the estimator has had a step since it was set -/
  estRun : Bool := false
  /-- the die whose engine holds these registers: HEAD of the last record -/
  headDie : Nat := 0
  /-- this board is the snapshot leader under the last record in force, which ABORT leaves as it stands (R341, R356) -/
  leads : Bool := false
  next : Option Nat := none
  nowLocal : Bool := false
  ordinal : Nat := 0
  status : Nat := 0
  cstep : Nat := 0
  /-- the buddy that the snapshot is sent to -/
  buddy : Option Nat := none
  local_ : Bool := false
  acked : Bool := false
  /-- owned segments of the snapshot read so far, in table order -/
  read : Nat := 0
  off : Nat := 0
  /-- owned segments and bytes of the whole image -/
  nown : Nat := 0
  size : Nat := 0
  dir : List (List W64) := []
  localCnt : Nat := 0
  buddyFeed : Nat := 0
  lastSec : Nat := 0xFFFFFFFF
  /-- the node that holds the recovery point -/
  secBuddy : Option Nat := none
  instSec : Nat := 0xFFFFFFFF
  lastLocal : Nat := 0xFFFFFFFF
  flags : BitVec 5 := 0
  rxDone : Nat := 0
  /-- the image being received: its step, the strait epoch and the offset of its first frame, and its size -/
  rxStep : Option Nat := none
  rxEpoch : Nat := 0
  rxStart : Nat := 0
  rxSize : Nat := 0
  /-- bytes written in offset order without a gap, the offset at which the next follows, and all the bytes written (R348) -/
  rxBytes : Nat := 0
  rxEnd : Option Nat := none
  rxAll : Nat := 0
  rxAcked : Nat := 0
  rxComplete : Bool := false
  /-- the image was refused as too large -/
  rxRefused : Bool := false
  /-- the image before it was received completely -/
  rxLastComplete : Bool := false
  estA : Nat := 0
  estB : Nat := 0
  cbar : Nat := 0
  tbase : Nat := 0
  extra : Nat := 0
  stepStart : Nat := 0
  held : Bool := false
  failCnt : Nat := 0
  keys : List (Nat × Nat) := []
  /-- the owners that the leader counted (R358) -/
  ownerIds : List Nat := []
  /-- SECURED steps that each owner has reported to the leader, newest first (R358) -/
  owners : SMap (List Nat) := []
  deriving DecidableEq, Repr

/-- A RESTORE in progress (R359). -/
structure Restore where
  cfg : List W64
  /-- bytes copied -/
  got : Nat := 0
  /-- the outcome, once the restore has ended -/
  result : Option Bool := none
  deriving DecidableEq, Repr

/-- Boot-flash state that the manual names (R389, R390, R392, R416, R420): counters, the images that FW_STAGE has stored, map,
identity links. `fails`: programs and reads fail (R409: 0x060A). -/
structure Flash where
  vendorEntries : Nat := 0
  unlock : Nat := 0
  floor : SMap Nat := []
  leaf : SMap Nat := []
  /-- the active bank of a component (component 0 by die, R386), and what each bank holds -/
  active : SMap Nat := []
  image : SMap (List Byte) := []
  seedIdx : Nat := 0
  links : SMap (List Byte) := []
  atollMaps : SMap Nat := []
  boots : Nat := 0
  fails : Bool := false
  crash : List Recorder := []
  crashValid : Bool := false
  crashLoaded : Bool := false
  deriving DecidableEq, Repr

/-- Board-level state: input, service domain, mainland, security, power and pins (chapters 14 to 17). -/
structure Board where
  inputOn : Bool := true
  servicePowered : Bool := true
  serviceGood : Bool := false
  emergencyOff : Bool := false
  standby : Bool := false
  mainlandOn : Bool := false
  mioOn : Bool := false
  serviceFwOk : Bool := false
  svcCtr : Nat := 0
  mctr : Nat := 0
  phase : Bool := false
  security : Nat := 0
  challenge : Option (List Byte) := none
  seedPresent : Bool := true
  meas : SMap (List Byte) := []
  cmddir : Nat := 0
  meters : Meters := {}
  staged : SMap Nat := []
  flash : Flash := {}
  /-- the body of the configuration blob that boot accepted (R389, R393), and the version that each controller, the service core
  and the blob run with (R378, R385) -/
  blob : List Byte := []
  runVersion : SMap Nat := []
  /-- lanes of a causeway module that do not train, by causeway × 8 + module (R293) -/
  cwLanes : SMap Nat := []
  causeway : SMap Bool := []
  cwRepaired : SMap Nat := []
  cwRetry : SMap Nat := []
  lastMv : Nat := 54000
  lastMa : Nat := 0
  temps : SMap Int := []
  /-- a warning stands until a sample 5 °C below the limit; and the last sample was above the limit (R427, R442) -/
  warned : SMap Bool := []
  hot : SMap Bool := []
  leak : SMap Bool := []
  /-- OSFP rails that have failed since they were enabled, and supplies, by key, that fail when they are next enabled (R425, R426) -/
  osfpFailed : SMap Bool := []
  failsNext : SMap Bool := []
  nvmeOn : SMap Bool := []
  pcieUp : Bool := false
  pcieD3 : Bool := false
  /-- inbound window: 2 MiB page index of BAR0 to physical page (R435) -/
  pcieTable : SMap Nat := []
  /-- BAR1 to BAR3 as configuration writes leave them (R435) -/
  pcieBars : SMap Nat := []
  doorbellPage : SMap Byte := []
  lastReply : List Byte := []
  console : List Byte := []
  tapIr : SMap Nat := []
  smbusReply : List Byte := []
  debugReply : Option (Nat × List W64) := none
  /-- what the last scan or TAP read shifted out (R404, R440) -/
  tapOut : List Bool := []
  freezeTimer : Bool := false
  /-- every ring has been thawed since the last automatic freeze (R419) -/
  freezeArmed : Bool := true
  deriving DecidableEq, Repr

/-- DRAM of the four dies by physical address, and lines with an error (R283, R414): 1 one device, 2 two devices, 256 or
more the producing detector of a poisoned line; 65,536 is added for one that an injection made. -/
structure Dram where
  bytes : SMap Byte := []
  ecc : SMap Nat := []
  deriving DecidableEq, Repr

/-- Why the model stops (closed). -/
inductive Fault where
  /-- Raised by PCIE_INBOUND_REQUEST and NVME_PATH_TRANSFER for a physical address beyond the 46-bit space of R267, which
  does not exist. Safe: the model stops where the hardware has no such address. -/
  | outsideAddressSpace (pa : Nat)
  deriving DecidableEq, Repr

/-- What the model gives no meaning (closed). -/
inductive Refusal where
  /-- An instruction not modelled yet, rejected by name. Safe. -/
  | notModelled (mnemonic : String)
  deriving DecidableEq, Repr

/-- The state of the board. `free` counts the free values drawn (the model's own field). -/
structure State where
  cores : SMap Core := []
  atolls : SMap Atoll := []
  dies : SMap Die := []
  ports : SMap Port := []
  punits : SMap PUnit := []
  recs : SMap Recorder := []
  dets : SMap DetCount := []
  armed : SMap (List Armed) := []
  dram : Dram := {}
  wireMsgs : List Msg := []
  wireAcks : List Ack := []
  wireWakes : List Wake := []
  snap : Snap := {}
  restore : Option Restore := none
  board : Board := {}
  free : Nat := 0
  pending : List Instr := []
  deriving DecidableEq, Repr

/-- The board right after power-on reset of the service domain (R422, R429, R432): the input has risen through 44.0 V,
every other domain is off, every register holds its reset value, and no command waits. -/
def State.reset : State := {}

end Sys2Proof.Machine
end

