-- ==== Sys2Proof/Machine/Parts.lean ====
section
/-! DEFINITION. Names of the cores and of the parts of the state, and the logical numbers of cores (R14, R16, R298). -/

namespace Sys2Proof.Machine
open Sys2Proof

/-! ### Names of cores (R14, R16) -/

/-- The key under which a core is held. -/
def coreKey : CoreId → Nat
  | .compute die pos core => die.val * 144 + pos.val * 16 + core.val
  | .general i => 576 + i.val
  | .dieCtl die => 592 + die.val
  | .service => 596

/-- Key of mainland general core 0, which receives the board's notices (R410, R412). -/
def mainland0 : Nat := 576

/-- A compute core's key: die, physical position, core. -/
def computeKey (die pos core : Nat) : Nat := die * 144 + pos * 16 + core

def isCompute (k : Nat) : Bool := decide (k < 576)
def isGeneral (k : Nat) : Bool := decide (576 ≤ k ∧ k < 592)
def isCtl (k : Nat) : Bool := decide (592 ≤ k)
/-- Cores that carry the vector engine (R29). -/
def hasVector (k : Nat) : Bool := decide (k < 592)
/-- Compute die of a compute core or die controller; 0 on the mainland die (CORE.ID.DIE). -/
def dieOfKey (k : Nat) : Nat := if k < 576 then k / 144 else if 592 ≤ k ∧ k < 596 then k - 592 else 0
/-- Physical atoll position of a compute core. -/
def posOfKey (k : Nat) : Nat := k % 144 / 16
/-- Core within its atoll, or general core number. -/
def coreInAtoll (k : Nat) : Nat := if k < 576 then k % 16 else if k < 592 then k - 576 else 0
/-- The atoll whose lagoon a core reaches; key 36 is the mainland cache; none for controllers (R254). -/
def atollOfKey (k : Nat) : Option Nat :=
  if k < 576 then some (k / 16) else if k < 592 then some 36 else none
/-- The unit whose recorder and counters a core's detections go to (R410, R415). -/
def unitOfKey (k : Nat) : Nat := if k < 576 then k / 144 else if 592 ≤ k ∧ k < 596 then k - 592 else 4
/-- Gradient-holding cores (R221). -/
def gradientHolding (k : Nat) : Bool := isCompute k && (coreInAtoll k == 0 || coreInAtoll k == 8)

/-! ### Parts of the state -/

def State.core (s : State) (k : Nat) : Core := s.cores.get {} k
def State.setCore (s : State) (k : Nat) (c : Core) : State := { s with cores := s.cores.set {} k c }
def State.updCore (s : State) (k : Nat) (g : Core → Core) : State := s.setCore k (g (s.core k))

def State.atoll (s : State) (k : Nat) : Atoll := s.atolls.get {} k
def State.setAtoll (s : State) (k : Nat) (a : Atoll) : State := { s with atolls := s.atolls.set {} k a }
def State.updAtoll (s : State) (k : Nat) (g : Atoll → Atoll) : State := s.setAtoll k (g (s.atoll k))

def State.die (s : State) (k : Nat) : Die := s.dies.get {} k
def State.setDie (s : State) (k : Nat) (d : Die) : State := { s with dies := s.dies.set {} k d }
def State.updDie (s : State) (k : Nat) (g : Die → Die) : State := s.setDie k (g (s.die k))

def State.port (s : State) (k : Nat) : Port := s.ports.get {} k
def State.setPort (s : State) (k : Nat) (p : Port) : State := { s with ports := s.ports.set {} k p }
def State.updPort (s : State) (k : Nat) (g : Port → Port) : State := s.setPort k (g (s.port k))

def State.punit (s : State) (k : Nat) : PUnit := s.punits.get {} k
def State.setPunit (s : State) (k : Nat) (p : PUnit) : State := { s with punits := s.punits.set {} k p }
def State.updPunit (s : State) (k : Nat) (g : PUnit → PUnit) : State := s.setPunit k (g (s.punit k))

def State.recorder (s : State) (k : Nat) : Recorder := s.recs.get {} k
def State.setRec (s : State) (k : Nat) (r : Recorder) : State := { s with recs := s.recs.set {} k r }
def State.updRec (s : State) (k : Nat) (g : Recorder → Recorder) : State := s.setRec k (g (s.recorder k))

def State.updBoard (s : State) (g : Board → Board) : State := { s with board := g s.board }
def State.updSnap (s : State) (g : Snap → Snap) : State := { s with snap := g s.snap }
def State.updEng (s : State) (d : Nat) (g : Engine → Engine) : State :=
  s.updDie d fun x => { x with eng := g x.eng }

/-- Draw the next free value: the counter's value, and the state with the counter advanced. -/
def State.draw (s : State) : Nat × State := (s.free, { s with free := s.free + 1 })

/-! ### The atoll map and logical numbers (R14, R298) -/

/-- The physical position of a logical atoll. -/
def Die.position (d : Die) (k : Nat) : Nat := d.atollMap.get k k

/-- The logical atoll that a physical position serves, if any. -/
def Die.logicalAt (d : Die) (pos : Nat) : Option Nat := (List.range 8).find? fun k => d.position k == pos

/-- Key of the compute core with a logical number 0 to 511. -/
def State.keyOfLcore (s : State) (l : Nat) : Nat :=
  computeKey (l / 128) ((s.die (l / 128)).position (l % 128 / 16)) (l % 16)

/-- Logical number of a core: 0 where it is no compute core of a mapped atoll (CORE.ID.LCORE). -/
def State.lcoreOf (s : State) (k : Nat) : Nat :=
  if isCompute k then
    match (s.die (k / 144)).logicalAt (posOfKey k) with
    | some a => k / 144 * 128 + a * 16 + k % 16
    | none => 0
  else 0

end Sys2Proof.Machine
end

