-- ==== Sys2Proof/Machine/Route.lean ====
section
/-! DEFINITION. The die mesh as a map: stops, routes and the packets that wait at a router's outputs or at a DRAM channel (R284,
R287, R288, R289). -/

namespace Sys2Proof.Machine
open Sys2Proof

/-! ### Waiting requests (R285, R290) -/

/-- Class c has a request waiting. -/
def Arbiter.isPending (a : Arbiter) (c : Nat) : Bool := !(a.waiting.get [] c).isEmpty

/-- A request joins its class's queue; a class that was empty starts its age anew. -/
def Arbiter.post (a : Arbiter) (c : Nat) (rest : List Nat) : Arbiter :=
  { a with waiting := a.waiting.set [] c (a.waiting.get [] c ++ [rest]),
           age := if a.isPending c then a.age else a.age.set 0 c 0 }

/-! ### Stops and routes (R287, R288) -/

/-- Stop of a physical atoll position, as x and y. -/
def atollStop (pos : Nat) : Nat × Nat :=
  if pos < 4 then (1 + pos, 1) else if pos < 8 then (pos - 3, 2) else (1, 3)
def channelStop (ch : Nat) : Nat × Nat := (1 + ch / 2, 4)
def engineStop : Nat × Nat := (4, 0)
def dieCtlStop : Nat × Nat := (5, 0)

/-- An agent's place: its die, 4 for the mainland die, and its stop. -/
structure Place where
  die : Nat
  stop : Nat × Nat
  deriving DecidableEq, Repr

/-- The place of a core. -/
def corePlace (k : Nat) : Place :=
  if k < 576 then ⟨k / 144, atollStop (posOfKey k)⟩
  else if 592 ≤ k ∧ k < 596 then ⟨k - 592, dieCtlStop⟩
  else ⟨4, (0, 0)⟩

def enginePlace (die : Nat) : Place := ⟨die, engineStop⟩
def mainlandPlace : Place := ⟨4, (0, 0)⟩

/-- Output ports of a router: toward larger x, smaller x, larger y, smaller y, and the unit at the stop (DESIGN CHOICE:
notes/assumptions/4). -/
def outKey (die : Nat) (p : Nat × Nat) (out : Nat) : Nat := die * 150 + (p.2 * 6 + p.1) * 5 + out

/-- The outputs a transfer takes within a die: along x first, then along y, then out to the unit (R288). -/
def routeIn (die : Nat) (a b : Nat × Nat) : List Nat :=
  let xs := if a.1 ≤ b.1 then (rangeFrom a.1 (b.1 - a.1)).map fun x => outKey die (x, a.2) 0
    else ((rangeFrom (b.1 + 1) (a.1 - b.1)).reverse).map fun x => outKey die (x, a.2) 1
  let ys := if a.2 ≤ b.2 then (rangeFrom a.2 (b.2 - a.2)).map fun y => outKey die (b.1, y) 2
    else ((rangeFrom (b.2 + 1) (a.2 - b.2)).reverse).map fun y => outKey die (b.1, y) 3
  xs ++ ys ++ [outKey die b 4]

/-- Causeway numbers: 0 C0–C1, 1 C2–C3 (CA); 2 C0–C2, 3 C1–C3 (CB); 4 + n the CH causeway of die n (DESIGN CHOICE:
notes/assumptions/4). -/
def cwHorizontal (die : Nat) : Nat := die / 2
def cwVertical (die : Nat) : Nat := 2 + die % 2

/-- The causeways a transfer crosses from one die (4: mainland) to another (R288). -/
def crossings (a b : Nat) : List Nat :=
  if a = b then []
  else if a = 4 then [4 + b]
  else if b = 4 then [4 + a]
  else (if a % 2 ≠ b % 2 then [cwHorizontal a] else [])
    ++ (if a / 2 ≠ b / 2 then [cwVertical (a / 2 * 2 + b % 2)] else [])

/-- The causeway j (0 CA, 1 CB, 2 CH) of a die. -/
def causewayOf (die j : Nat) : Nat := if j = 0 then cwHorizontal die else if j = 1 then cwVertical die else 4 + die

/-- The two ends of a causeway as (die, j); the mainland end of a CH causeway has none. -/
def causewayEnds (cw : Nat) : List (Nat × Nat) :=
  if cw = 0 then [(0, 0), (1, 0)] else if cw = 1 then [(2, 0), (3, 0)]
  else if cw = 2 then [(0, 1), (2, 1)] else if cw = 3 then [(1, 1), (3, 1)] else [(cw - 4, 2)]

/-- Gateways of a causeway j, and the causeway that leaves by a stop, if one does (R287). -/
def gatewayOf (j g : Nat) : Nat × Nat := if j = 0 then (0, 1 + g) else if j = 1 then (5, 1 + g) else (g, 0)
def gatewayAt (die : Nat) (p : Nat × Nat) : Option Nat :=
  if p.2 = 0 then (if p.1 < 4 then some (causewayOf die 2) else none)
  else if p.1 = 0 then some (causewayOf die 0) else if p.1 = 5 then some (causewayOf die 1) else none

/-- The outputs a transfer takes from one place to another, by gateway g (R288). The mainland die has no mesh. -/
def routeTo (src : Place) (g : Nat) (dst : Place) : List Nat :=
  if src.die = dst.die then (if src.die = 4 then [] else routeIn dst.die src.stop dst.stop)
  else if src.die = 4 then routeIn dst.die (gatewayOf 2 g) dst.stop
  else if dst.die = 4 then routeIn src.die src.stop (gatewayOf 2 g)
  else
    let h := src.die % 2 ≠ dst.die % 2
    let v := src.die / 2 ≠ dst.die / 2
    let mid := src.die / 2 * 2 + dst.die % 2
    (if h then routeIn src.die src.stop (gatewayOf 0 g) else [])
      ++ (if h ∧ v then routeIn mid (gatewayOf 0 g) (gatewayOf 1 g) else if v then routeIn src.die src.stop (gatewayOf 1 g) else [])
      ++ routeIn dst.die (gatewayOf (if v then 1 else 0) g) dst.stop

/-! ### Hops: an output of the request plane, of the response plane, or a DRAM channel -/

/-- Keys from 1,000 name a DRAM channel's arbiter and class, from 10,000 an output of the response plane with the input that the
packet comes from (DESIGN CHOICE: notes/assumptions/4). -/
def ddrHop (die ch cls : Nat) : Nat := 1000 + (die * 8 + ch) * 8 + cls
def respHop (out inp : Nat) : Nat := 10000 + out * 5 + inp

/-- A route over the response plane: each output with the input before it; a die is entered at a unit's input, 4. -/
def respRoute : Nat → List Nat → List Nat
  | _, [] => []
  | inp, h :: l => respHop h inp :: respRoute (h % 5) l

/-- A packet enters the first arbiter of its route; with no hop left it has arrived. -/
def State.postAt (s : State) (cls : Nat) : List Nat → State
  | [] => s
  | h :: rest =>
    if 10000 ≤ h then
      let key := (h - 10000) / 5
      s.updDie (key / 150) fun d =>
        let p := d.resp.get {} (key % 150)
        let inp := (h - 10000) % 5
        { d with resp := d.resp.set {} (key % 150) { p with waiting := p.waiting.set [] inp (p.waiting.get [] inp ++ [rest]) } }
    else if 1000 ≤ h then
      s.updDie ((h - 1000) / 64) fun d =>
        let ch := (h - 1000) / 8 % 8
        { d with ddr := d.ddr.set {} ch ((d.ddr.get {} ch).post ((h - 1000) % 8) rest) }
    else
      s.updDie (h / 150) fun d =>
        { d with mesh := d.mesh.set {} (h % 150) ((d.mesh.get {} (h % 150)).post cls rest) }

/-- The stop of a die's unit that reports a detection: the core's or the atoll's, the channel's, the router's, the engine's, the
gateway's, else the die controller's own (R287, R409). -/
def State.reportStop (s : State) (u code loc : Nat) : Nat × Nat :=
  let pos := fun (a : Nat) => (s.die u).position a
  if code / 256 = 1 then atollStop (pos (loc % 128 / 16))
  else if code / 256 = 2 then atollStop (pos (loc % 16))
  else if code = 0x301 ∨ code = 0x302 ∨ code = 0x303 then channelStop (loc % 8)
  else if code = 0x305 then (loc % 6, loc / 6)
  else if code = 0x306 ∨ code = 0x307 then gatewayOf loc 0
  else if code / 256 = 4 ∨ code / 256 = 5 then engineStop
  else dieCtlStop

/-- An event-recorder write goes to the die controller in mesh class CONTROL (R289, R415). -/
def State.postRecorder (s : State) (u code loc : Nat) : State :=
  if u < 4 then s.postAt 0 (routeIn u (s.reportStop u code loc) dieCtlStop) else s

end Sys2Proof.Machine
end

