-- ==== Sys2Proof/Machine/Ops.lean ====
section
/-! DEFINITION. The named operations over the state: access to cores, atolls, dies, ports and units; registers;
detectors, recorder, notices and halts (chapters 2, 3, 16); the monad the meanings are written in. -/

namespace Sys2Proof.Machine
open Sys2Proof

/-! ### Registers of a core -/

/-- Read an x register; x0 reads 0 (R25). -/
def Core.rx (c : Core) (r : Reg) : W64 := if r = 0 then 0 else c.x.get 0 r.toNat

/-- Write an x register; a write to x0 is discarded (R25). -/
def Core.wx (c : Core) (r : Reg) (v : W64) : Core :=
  if r = 0 then c else { c with x := c.x.set 0 r.toNat v }

def Core.rf (c : Core) (r : Reg) : W32 := c.f.get 0 r.toNat
def Core.wf (c : Core) (r : Reg) (v : W32) : Core := { c with f := c.f.set 0 r.toNat v }

/-- The reset value of a core's stored system register: only GCFG's is not 0 (R165). -/
def sysReset (n : Nat) : W64 := if n = 0x0E9 then 0x1000001F else 0

/-- A stored system register of the core. -/
def Core.sr (c : Core) (n : Nat) : W64 := c.sys.get (sysReset n) n
def Core.setSr (c : Core) (n : Nat) (v : W64) : Core := { c with sys := c.sys.set (sysReset n) n v }

/-- LAGCFG resets to CMPEN 1 and PFDEPTH 8 (R245). -/
def atollSysReset (n : Nat) : W64 := if n = 0x128 then 0x108 else 0
def Atoll.sr (a : Atoll) (n : Nat) : W64 := a.sys.get (atollSysReset n) n
def Atoll.setSr (a : Atoll) (n : Nat) (v : W64) : Atoll := { a with sys := a.sys.set (atollSysReset n) n v }

/-- Reset values of the die-wide registers (R286, R291, R336). -/
def dieSysReset (n : Nat) : W64 :=
  if n = 0x600 then w64 (8 * 2 ^ 36 + 2 * 2 ^ 24 + 2 * 2 ^ 20 + 4 * 2 ^ 16 + 8 * 2 ^ 12)
  else if 0x610 ≤ n ∧ n ≤ 0x614 then 0x10000
  else if n = 0x620 then 0x42448
  else if 0x628 ≤ n ∧ n ≤ 0x62D then 0x10000
  else if n = 0x64E then 0x2248
  else 0
def Die.sr (d : Die) (n : Nat) : W64 := d.sys.get (dieSysReset n) n
def Die.setSr (d : Die) (n : Nat) (v : W64) : Die := { d with sys := d.sys.set (dieSysReset n) n v }

/-- Encoding of a level (R69). -/
def Level.code : Level → Nat
  | .u => 0 | .s => 1 | .m => 2

/-- A level from its encoding; 0b11 is reserved and gives none (R69). -/
def Level.ofCode : Nat → Option Level
  | 0 => some .u | 1 => some .s | 2 => some .m | _ => none

/-- Numbers of a level's save registers: PC, ST, CAUSE, ADDR, VPOS, TPOS, LOOP, then XSP (R72). -/
def saveBase : Level → Nat
  | .u => 0x050 | .s => 0x550 | .m => 0xA50
def gateBaseNo : Level → Nat
  | .u => 0x520 | .s => 0x521 | .m => 0xA20

def vposNo : Nat := 0x060
def tposNo : Nat := 0x061

/-- BUSY of a level's save set (R80). -/
def Core.busy (c : Core) (t : Level) : Bool := (c.sr (saveBase t + 2)).getLsbD 63

/-- Loop registers of level n: START, END, CNT (R46). -/
def loopNo (lv part : Nat) : Nat := 0x100 + 4 * lv + part
def Core.loopActive (c : Core) (lv : Nat) : Bool := (c.sr (loopNo lv 2)).getLsbD 63
def Core.loopCount (c : Core) (lv : Nat) : Nat := bitsOf (c.sr (loopNo lv 2)).toNat 31 0
def loopCnt (active : Bool) (count : Nat) : W64 := w64 (b2n active * 2 ^ 63 + count % 2 ^ 32)
def Core.endLoop (c : Core) (lv : Nat) : Core := c.setSr (loopNo lv 2) 0

/-! ### The atoll map (R298) -/

/-- Logical atoll k of a die is offline (R386). -/
def Die.isOffline (d : Die) (k : Nat) : Bool := d.offline.testBit k

/-- Set or clear bit i of a number. -/
def setBit (n i : Nat) (b : Bool) : Nat :=
  if n.testBit i then (if b then n else n - 2 ^ i) else (if b then n + 2 ^ i else n)

/-- Keys of the sixteen cores at a physical position. -/
def coresAt (die pos : Nat) : List Nat := (List.range 16).map fun c => computeKey die pos c

/-! ### Counters, detectors, recorder (chapter 16) -/

/-- The time a unit stamps on its entries (R416). -/
def State.unitTime (s : State) (u : Nat) : Nat := if u < 4 then (s.die u).ctr else s.board.svcCtr

/-- The step a unit stamps on its entries (R416). -/
def State.unitStep (s : State) (u : Nat) : Nat := (s.die (if u < 4 then u else 0)).eng.step

/-- Capacity of a recorder ring (R415). -/
def recCap (u : Nat) : Nat := if u < 4 then 8192 else 16384

/-- Runs of R303 and R333 continue the newest entry only within one run (R417). -/
def runCode (code : Nat) : Bool := code == 0x0309 || code == 0x0405

/-- What an entry is made of before its ring gives it an index (R416). -/
structure Report where
  code : Nat
  sev : Nat
  loc : Nat
  addr : W64 := 0
  data0 : W64 := 0
  data1 : W64 := 0
  data2 : W64 := 0
  injected : Bool := false
  newRun : Bool := false
  deriving DecidableEq, Repr

/-- Whether a new occurrence joins the newest entry (R417). -/
def Entry.joins (e : Entry) (r : Report) : Bool :=
  e.code == r.code && e.sev == r.sev && e.injected == r.injected && e.loc == r.loc && e.addr == r.addr
    && decide (e.count < 65535) && !(runCode r.code && r.newRun)

/-- The entry a report makes in a unit's ring. -/
def State.entryOf (s : State) (u : Nat) (q : Recorder) (r : Report) : Entry :=
  { index := q.next, code := r.code, sev := r.sev, injected := r.injected, unit := u, time := s.unitTime u,
    loc := r.loc, count := 1, step := s.unitStep u, addr := r.addr, data0 := r.data0, data1 := r.data1,
    data2 := r.data2, boot := s.board.flash.boots % 65536 }

/-- Append a new entry; a full ring loses its oldest (R415). -/
def State.appendEntry (s : State) (u : Nat) (q : Recorder) (r : Report) : Recorder :=
  let es := q.entries ++ [s.entryOf u q r]
  { q with entries := es.drop (es.length - recCap u), next := (q.next + 1) % 2 ^ 32 }

/-- The ring after an occurrence: joined to the newest entry where R417 says so. -/
def State.ringAfter (s : State) (u : Nat) (q : Recorder) (r : Report) : Recorder :=
  match q.entries.getLast? with
  | some e =>
    if e.joins r then
      let e' : Entry := { e with count := e.count + 1, time := s.unitTime u, step := s.unitStep u }
      { q with entries := q.entries.dropLast ++ [e'] }
    else s.appendEntry u q r
  | none => s.appendEntry u q r

/-- An occurrence joins the newest entry of a ring: no entry is written (R417). -/
def Recorder.joined (q : Recorder) (r : Report) : Bool := q.entries.getLast?.any (·.joins r)

/-- Write an occurrence into a unit's recorder ring (R415 to R417, R419): a frozen ring only counts it. A FATAL entry starts the
automatic freeze; an occurrence that joins an entry writes none. -/
def State.record (s : State) (u : Nat) (r : Report) : State :=
  let q := s.recorder u
  if q.frozen then s.setRec u { q with dropped := satAdd q.dropped 1 0xFFFF }
  else
    let s' := (s.setRec u (s.ringAfter u q r)).postRecorder u r.code r.loc
    if r.sev = 4 ∧ s.board.freezeArmed ∧ q.joined r = false then
      s'.updBoard fun b => { b with freezeTimer := true, freezeArmed := false }
    else s'

/-- INDEX of the newest entry of a unit's ring (R411, R417). -/
def State.newest (s : State) (u : Nat) : Nat := ((s.recorder u).next + 2 ^ 32 - 1) % 2 ^ 32

/-- Raise NOTICE at S on a core (R76, R410). -/
def State.notice (s : State) (k detail : Nat) : State :=
  s.updCore k fun c => { c with notices := c.notices ++ [BitVec.ofNat 16 detail] }

def detKey (u code : Nat) : Nat := u * 65536 + code
/-- THRESH of a detector's counter: as written, else as the configuration blob gives it (R410). -/
def State.threshOf (s : State) (d : DetCount) (code : Nat) : Nat := (d.thresh.getD (Config.blobThresh s.board.blob code)) % 65536

/-- Count an occurrence and write its entry as R410 gives: a CORRECTED one writes an entry, and raises NOTICE on
mainland core 0, only when it takes COUNT to THRESH. -/
def State.detect (s : State) (u : Nat) (r : Report) : State :=
  let d := s.dets.get {} (detKey u r.code)
  let n := satAdd d.count 1 0xFFFFFFFF
  let th := s.threshOf d r.code
  let hit := decide (th ≠ 0 ∧ n = th ∧ d.count ≠ n)
  let d' : DetCount := { d with count := n, overFlag := d.overFlag || decide (th ≠ 0 ∧ th ≤ n) }
  let s : State := { s with dets := s.dets.set {} (detKey u r.code) d' }
  if r.sev = 1 then
    if hit then (s.record u r).notice mainland0 (0x0320 + u) else s
  else s.record u r

/-! ### Armed injections (R413, R414) -/

/-- Take the armed injection of a detector of a unit at a location, if there is one. -/
def State.takeArmed (s : State) (u num loc : Nat) : Option Nat × State :=
  let l := s.armed.get [] u
  match l.find? fun a => a.num == num && a.loc == loc with
  | some a => (some a.kind, { s with armed := s.armed.set [] u (l.filter (· != a)) })
  | none => (none, s)

/-- An armed ECC injection stores an error with the write: 1 single bit, 2 uncorrectable, plus 4 as injected. -/
def State.armedErr (s : State) (u : Nat) (nums : List Nat) (loc : Nat) : Nat × State :=
  nums.foldl (fun (acc : Nat × State) num =>
    match acc.2.takeArmed u num loc with
    | (some k, s) => (if k = 0 then 5 else 6, s)
    | (none, s) => (acc.1, s)) (0, s)

/-! ### The monad of the meanings -/

/-- An event of R76. -/
structure Event where
  code : Nat
  detail : Nat := 0
  addr : W64 := 0
  /-- index of the recorder entry, and conditions merged, of a machine check (R411) -/
  index : Nat := 0
  merged : Nat := 0
  deferred : Bool := false
  fatal : Bool := false
  injected : Bool := false
  /-- the access that met the error was a write (R154: SSTAT.FDIR) -/
  write : Bool := false
  deriving DecidableEq, Repr

/-- How an instruction ends without completing: an exception; a stall, after which it is offered again; a
refusal by name. -/
inductive Err where
  | exc (e : Event)
  | stall
  | refuse (r : Refusal)
  deriving DecidableEq, Repr

/-- A meaning: it changes the state and answers a value, or ends early. Changes made before an early end stay. -/
abbrev M := EStateM Err State

/-- Where control goes after an instruction that completes. `vtrap` raises VTRAP after completion (R123); `done`:
the instruction has set the PC itself, with no loop test (R42, R79). -/
inductive Flow where
  | next
  | vtrap (flags : Nat)
  | jump (t : W64)
  | done
  deriving DecidableEq, Repr

def getC (k : Nat) : M Core := do return (← get).core k
def modC (k : Nat) (g : Core → Core) : M Unit := modify fun s => s.updCore k g
def trap {α : Type} (code : Nat) (detail : Nat := 0) (addr : W64 := 0) : M α :=
  throw (.exc { code := code, detail := detail, addr := addr })
/-- ILLEGAL with ADDR the instruction word (R76). -/
def illegal {α : Type} (w : W32) : M α := trap 0x01 0 (w.setWidth 64)
/-- PRIVILEGE with ADDR the instruction word (R76). -/
def privilege {α : Type} (w : W32) : M α := trap 0x02 0 (w.setWidth 64)
def stall {α : Type} : M α := throw .stall
def mcheck {α : Type} (k num : Nat) (addr : W64) (deferred : Bool := false) (injected : Bool := false) (write : Bool := false) :
    M α := do
  let s ← get
  throw (.exc { write, code := 0x12, detail := num, addr := addr, index := s.newest (unitOfKey k), deferred := deferred, injected := injected })
/-- Draw a free number. -/
def drawM : M Nat := modifyGet fun s => s.draw

/-- Do an action for each element of a list, in order. -/
def forEach {α : Type} : List α → (α → M Unit) → M Unit
  | [], _ => pure ()
  | a :: l, g => do g a; forEach l g

/-- Collect the results of an action over a list, in order. -/
def collect {α β : Type} : List α → (α → M β) → M (List β)
  | [], _ => pure []
  | a :: l, g => do
    let b ← g a
    let bs ← collect l g
    return b :: bs

end Sys2Proof.Machine
end

