-- ==== Sys2Proof/Machine/Entry.lean ====
section
/-! DEFINITION. Taking an event and returning from it as one operation each (R74, R78, R79), machine checks and halts, and the
shipped firmware of the die controllers and the service core (R84, R411, R412). -/

namespace Sys2Proof.Machine
open Sys2Proof

def Level.le (a b : Level) : Bool := decide (a.code ≤ b.code)
def Level.max (a b : Level) : Level := if a.code ≤ b.code then b else a

/-- A gate entry (R74). -/
structure Gate where
  handler : W64
  sp : W64
  flags : Nat
  deriving DecidableEq, Repr

def Gate.valid (g : Gate) : Bool := g.flags.testBit 0
def Gate.target (g : Gate) : Nat := bitsOf g.flags 2 1
def Gate.mask (g : Gate) : Bool := g.flags.testBit 3
def Gate.autosave (g : Gate) : Bool := g.flags.testBit 4
def Gate.keepsp (g : Gate) : Bool := g.flags.testBit 5

/-- The entry of the shipped M gate table: VALID, TARGET M, MASK, AUTOSAVE (R412). -/
def firmwareGate (k : Nat) : Gate := { handler := Config.firmwareHandler k, sp := Config.firmwareStack k, flags := 0x1D }

/-- SAVE.ST of the present state (R78, R80). -/
def Core.stWord (c : Core) : W64 := w64 (c.level.code * 64 + b2n c.ieM * 32 + b2n c.ieS * 16)

/-- SAVE.CAUSE as entry writes it (R78, R80). -/
def causeWord (spld : Bool) (detail code : Nat) : W64 :=
  w64 (2 ^ 63 + b2n spld * 2 ^ 62 + detail % 65536 * 2 ^ 32 + code % 256)

/-- Entry into a handler (R78), once t and e are found and SAVE[t] is free. -/
def Core.enter (c : Core) (t : Level) (g : Gate) (e : Event) (pc : W64) : Core :=
  let b := saveBase t
  let x2 := c.rx 2
  let c := c.setSr b (pc &&& ~~~(3 : W64))
  let c := c.setSr (b + 1) c.stWord
  let c := c.setSr (b + 2) (causeWord (!g.keepsp) e.detail e.code)
  let c := c.setSr (b + 3) e.addr
  let c := c.setSr (b + 6) (w64 (c.loopCount 1 * 2 ^ 32 + c.loopCount 0))
  let c := (c.endLoop 0).endLoop 1
  let c := if g.autosave then
      (((c.setSr (b + 4) (c.sr vposNo)).setSr (b + 5) (c.sr tposNo)).setSr vposNo 0).setSr tposNo 0
    else (c.setSr (b + 4) 0).setSr (b + 5) 0
  let c := if g.keepsp then c else (c.setSr (b + 7) x2).wx 2 g.sp
  let c := if g.mask then (match t with | .s => { c with ieS := false } | .m => { c with ieM := false } | .u => c) else c
  { c with level := t, pc := g.handler &&& ~~~(3 : W64), wait := .none }

/-- Return from a handler at level t (R79). The caller has checked the level and SAVE.ST. -/
def Core.leave (c : Core) (t : Level) (dest : Level) : Core :=
  let b := saveBase t
  let st := c.sr (b + 1)
  let lp := (c.sr (b + 6)).toNat
  let cause := c.sr (b + 2)
  let c := { c with level := dest, ieS := if t = Level.u then c.ieS else st.getLsbD 4,
                    ieM := if t = Level.m then st.getLsbD 5 else c.ieM, pc := c.sr b }
  let c := c.setSr (loopNo 0 2) (loopCnt (lp % 2 ^ 32 != 0) (lp % 2 ^ 32))
  let c := c.setSr (loopNo 1 2) (loopCnt (lp / 2 ^ 32 != 0) (lp / 2 ^ 32))
  let c := (c.setSr vposNo (c.sr (b + 4))).setSr tposNo (c.sr (b + 5))
  let c := if cause.getLsbD 62 then c.wx 2 (c.sr (b + 7)) else c
  c.setSr (b + 2) (cause &&& ~~~(w64 (2 ^ 63)))

/-- MCINFO (R411). -/
def mcinfoNo : Nat := 0xB70
def mclastNo : Nat := 0x690

/-- Record the entry index and the merged conditions of a machine check (R411). -/
def Core.noteMcheck (c : Core) (e : Event) : Core :=
  if e.code = 0x12 then c.setSr mcinfoNo (w64 (e.index % 2 ^ 32 * 2 ^ 32 + min e.merged 255 * 2 ^ 24)) else c

/-- The waiting machine-check conditions as one event (R411): the lowest detector number, the others merged. -/
def mergeMchk : List Mchk → Option Event
  | [] => none
  | m :: l =>
    let low := l.foldl (fun a b => if b.num < a.num then b else a) m
    some { code := 0x12, detail := low.num, addr := low.addr, index := low.index, merged := l.length, deferred := low.deferred
           fatal := low.fatal, injected := low.injected }

/-! ### Detections and halts (R84, R409, R411) -/

/-- Make a machine-check condition wait at a core (R411). -/
def State.raiseMchk (s : State) (k : Nat) (m : Mchk) : State :=
  s.updCore k fun c => { c with mchk := c.mchk ++ [m] }

/-- Report an UNCORRECTED or DEFERRED detection and raise MCHECK on a core (R411). -/
def State.detectMchk (s : State) (k : Nat) (r : Report) (vaddr : W64) : State :=
  let s := s.detect (unitOfKey k) r
  s.raiseMchk k { num := r.code, index := s.newest (unitOfKey k), addr := vaddr, deferred := r.sev == 2, injected := r.injected }

/-- The NOTICE that a unit's firmware raises on mainland core 0 for a FATAL detection (R409, R412). -/
def State.fatalNotice (s : State) (u : Nat) : State := s.notice mainland0 (0x0310 + u)

/-- Halt a core with a halting cause; its die writes the 0x0111 entry, with the PC that the entry's DATA1 holds (R84, R409, R414,
R416). -/
def State.haltAt (s : State) (k cause evCode : Nat) (pc : W64) (injected : Bool := false) : State :=
  let c := s.core k
  let loc := if isCompute k then s.lcoreOf k else coreInAtoll k
  let s := s.setCore k { c with run := .halted cause, wait := .none }
  let s := s.detect (unitOfKey k)
    { code := 0x0111, sev := 4, loc := loc, data0 := w64 (cause % 256 + evCode % 256 * 256), data1 := pc,
      data2 := w64 c.level.code, injected := injected }
  s.fatalNotice (unitOfKey k)

def State.halt (s : State) (k cause evCode : Nat) : State := s.haltAt k cause evCode (s.core k).pc

/-! ### Machine checks of the die controllers and the service core (R411, R412) -/

/-- The compute die runs its memory: powered and not in P3 (R295). -/
def Die.up (d : Die) : Bool := d.powered && !d.retain

/-- The key of the core that serves a unit: its die controller, or the service core. -/
def ctlKey (u : Nat) : Nat := 592 + u

/-- The core of a unit runs its firmware. -/
def State.ctlLive (s : State) (u : Nat) : Bool :=
  (if u < 4 then (s.die u).up && (s.die u).ctlRunning else s.board.servicePowered && s.board.serviceFwOk)
    && (s.core (ctlKey u)).run == .running

/-- The NOTICE that a die controller's or the service core's firmware raises for a machine check (R412). -/
def Event.ctlNotice (e : Event) (u : Nat) : Nat := if e.fatal then 0x0310 + u else 0x0330 + u

/-- The core of a unit enters M for its waiting machine checks, raises the NOTICE of R412 and executes MRET; with SAVE.M busy it
halts (R83). -/
def State.ctlEnter (s : State) (u : Nat) (e : Event) : State :=
  let k := ctlKey u
  let c := s.core k
  let s := s.setCore k { c with mchk := [] }
  if c.busy .m then s.haltAt k 0x12 0x12 c.pc e.injected
  else
    let back : Core → Core := fun x => (((x.noteMcheck e).enter .m (firmwareGate k) e x.pc).leave .m x.level)
    (s.updCore k fun x => { back x with wait := x.wait }).notice mainland0 (e.ctlNotice u)

/-- A machine check of a unit's own: taken at once where the unit's core runs, else held until it starts again (R386, R411). -/
def State.ctlMchk (s : State) (u : Nat) (m : Mchk) : State :=
  let s := s.raiseMchk (ctlKey u) m
  if s.ctlLive u then
    match mergeMchk (s.core (ctlKey u)).mchk with
    | some e => s.ctlEnter u e
    | none => s
  else s

/-- A FATAL detection of a die-level or board-level unit: its entry, the newest of `ring`, is written already; and MCHECK on the
unit's core (R411). -/
def State.fatalToCtl (s : State) (u code : Nat) (injected : Bool := false) (ring : Nat := u) : State :=
  s.ctlMchk u { num := code, index := s.newest ring, addr := 0, deferred := false, fatal := true, injected := injected }

end Sys2Proof.Machine
end

