-- ==== Sys2Proof/Machine/Mesh.lean ====
section
/-! DEFINITION. The die mesh, the causeways and the arbiters (R285, R287 to R293, R295): what is reachable, grants and
ages. -/

namespace Sys2Proof.Machine
open Sys2Proof

/-- A class is urgent: it is pending, its LIMIT is not 0 and its age has reached it. -/
def Arbiter.isUrgent (a : Arbiter) (limit : Nat → Nat) (c : Nat) : Bool :=
  a.isPending c && decide (limit c ≠ 0 ∧ limit c ≤ a.age.get 0 c)

/-- Note the classes that have become urgent, higher code first among those that become so together. -/
def Arbiter.noteUrgent (a : Arbiter) (limit : Nat → Nat) (classes : List Nat) : Arbiter :=
  let keep := a.urgent.filter (a.isUrgent limit)
  { a with urgent := keep ++ (classes.reverse.filter fun c => a.isUrgent limit c && !keep.contains c) }

/-- The next class of a weighted round robin over `cs`: the present one while it has grants left, else the next pending
class with a weight, else plain round robin over the pending ones. Answers the class and its grants left. -/
def Arbiter.roundRobin (a : Arbiter) (weight : Nat → Nat) (cs : List Nat) : Option (Nat × Nat) :=
  if a.rrLeft ≠ 0 ∧ a.isPending a.rrCls ∧ weight a.rrCls ≠ 0 then some (a.rrCls, a.rrLeft - 1)
  else
    let order := cs.filter (fun c => a.rrCls < c) ++ cs.filter (fun c => c ≤ a.rrCls)
    match order.find? fun c => a.isPending c && weight c != 0 with
    | some c => some (c, weight c - 1)
    | none => (order.find? a.isPending).map fun c => (c, 0)

/-- One grant of an arbiter: the class chosen, whether it was urgent, the granted requests and what remains. -/
structure Grant where
  cls : Nat
  promoted : Bool
  granted : List (List Nat)
  arb : Arbiter
  deriving DecidableEq, Repr

/-- Choose a class and grant up to `burst` requests (R285, R290). `fixed` are the classes served before the round
robin, in order. -/
def Arbiter.grant (a : Arbiter) (limit weight : Nat → Nat) (fixed rr : List Nat) (burst : Nat) : Option Grant :=
  let a := a.noteUrgent limit (fixed ++ rr)
  let pick : Option (Nat × Bool × Arbiter) := match a.urgent.head? with
    | some c => some (c, true, a)
    | none => match fixed.find? a.isPending with
      | some c => some (c, false, a)
      | none => (a.roundRobin weight rr).map fun p => (p.1, false, { a with rrCls := p.1, rrLeft := p.2 })
  match pick with
  | none => none
  | some (c, u, a) =>
    let q := a.waiting.get [] c
    some { cls := c, promoted := u, granted := q.take burst,
           arb := { a with waiting := a.waiting.set [] c (q.drop burst), age := a.age.set 0 c 0,
                           urgent := a.urgent.filter (· != c) } }

/-- Ages saturate at the largest LIMIT. -/
def ageMax : Nat := 0xFFFFF

/-- A cycle of MCLK: the age of every pending class grows (R285). -/
def Arbiter.tick (a : Arbiter) (limit : Nat → Nat) (classes : List Nat) : Arbiter :=
  let older := classes.foldl
    (fun m c => if a.isPending c then SMap.set 0 m c (satAdd (SMap.get 0 m c) 1 ageMax) else m) a.age
  ({ a with age := older }).noteUrgent limit classes

/-- A class's age reaches its LIMIT. -/
def Arbiter.reachLimit (a : Arbiter) (limit : Nat → Nat) (classes : List Nat) (c : Nat) : Arbiter :=
  if a.isPending c ∧ limit c ≠ 0 then
    ({ a with age := a.age.set 0 c (max (a.age.get 0 c) (limit c)) }).noteUrgent limit classes
  else a

def ddrClasses : List Nat := [0, 1, 2, 3, 4]
def meshClasses : List Nat := [0, 1, 2, 3, 4, 5]

/-- DDRAGE.c.LIMIT and MESHAGE.c.LIMIT. -/
def Die.ddrLimit (d : Die) (c : Nat) : Nat := (d.sr (0x610 + c)).toNat % 2 ^ 20
def Die.meshLimit (d : Die) (c : Nat) : Nat := (d.sr (0x628 + c)).toNat % 2 ^ 20
/-- Round-robin weights of DDRCFG (classes 1 to 4) and MESHCFG (classes 2 to 5). -/
def Die.ddrWeight (d : Die) (c : Nat) : Nat := bitsOf (d.sr 0x600).toNat (11 + 4 * c) (8 + 4 * c)
def Die.meshWeight (d : Die) (c : Nat) : Nat := bitsOf (d.sr 0x620).toNat (4 * c - 5) (4 * c - 8)
def Die.ddrBurst (d : Die) : Nat := max 1 (bitsOf (d.sr 0x600).toNat 39 36)
def Die.meshBurst (d : Die) : Nat := max 1 (bitsOf (d.sr 0x620).toNat 19 16)

/-- Every causeway between two dies is up, and both dies run (R293, R295). -/
def State.reachable (s : State) (a b : Nat) : Bool :=
  (crossings a b).all (fun cw => s.board.causeway.get false cw)
    && (a == 4 || (s.die a).up) && (b == 4 || (s.die b).up)

/-- Mesh class of a DDR class (R289). -/
def meshOfDdr (c : Nat) : Nat := if c = 0 then 1 else if c = 1 then 2 else if c = 2 then 4 else 5

/-- The channel of a physical address (R282). -/
def ddrChannel (pa : Nat) : Nat := (bitsOf pa 10 8) ^^^ (bitsOf pa 15 13) ^^^ (bitsOf pa 20 18)
def ddrRank (pa : Nat) : Nat := (bitsOf pa 11 11) ^^^ (bitsOf pa 21 21)

/-- A request for a line of DRAM takes its route, waits at its channel, and its response comes back by the same gateway over the
response plane (R284, R288). -/
def State.postDram (s : State) (src : Place) (die pa ddr mesh : Nat) : State :=
  let at_ : Place := ⟨die, channelStop (ddrChannel pa)⟩
  let g := bitsOf pa 8 7
  s.postAt mesh (routeTo src g at_ ++ [ddrHop die (ddrChannel pa) ddr] ++ respRoute 4 (routeTo at_ g src))

/-- A request to a unit that is no DRAM channel, and its response. -/
def State.postUnit (s : State) (src dst : Place) (g cls : Nat) : State :=
  s.postAt cls (routeTo src g dst ++ respRoute 4 (routeTo dst g src))

/-- A cycle of MCLK on a die's arbiters. -/
def Die.tickArbiters (d : Die) : Die :=
  { d with ddr := d.ddr.map fun p => (p.1, p.2.tick d.ddrLimit ddrClasses),
           mesh := d.mesh.map fun p => (p.1, p.2.tick d.meshLimit meshClasses) }

/-! ### Commands -/

/-- A DDR channel starts a grant burst (R285). -/
def execDdrGrantBurst (die : Fin 4) (ch : Fin 8) (s : State) : Host.Outcome State Fault Refusal :=
  let d := s.die die
  match (d.ddr.get {} ch.val).grant d.ddrLimit d.ddrWeight [0] [1, 2, 3, 4] d.ddrBurst with
  | none => .next s
  | some g =>
    let promo := if g.promoted then d.ddrPromo.set 0 g.cls (satAdd (d.ddrPromo.get 0 g.cls) 1 0xFFFFFFFF) else d.ddrPromo
    let s := s.setDie die { d with ddr := d.ddr.set {} ch.val g.arb, ddrPromo := promo }
    .next (g.granted.foldl (fun s r => s.postAt g.cls r) s)

/-- A pending class's age at a channel reaches DDRAGE.c.LIMIT (R285). -/
def execDdrAgeLimit (die : Fin 4) (ch : Fin 8) (cls : Fin 5) (s : State) : Host.Outcome State Fault Refusal :=
  let d := s.die die
  let a := (d.ddr.get {} ch.val).reachLimit d.ddrLimit ddrClasses cls.val
  .next (s.setDie die { d with ddr := d.ddr.set {} ch.val a })

/-- A waiting class's age at a router output reaches MESHAGE.c.LIMIT (R290). -/
def execMeshAgeLimit (die : Fin 4) (stop : Fin 30) (out : Fin 5) (cls : Fin 6) (s : State) :
    Host.Outcome State Fault Refusal :=
  let d := s.die die
  let key := stop.val * 5 + out.val
  let a := (d.mesh.get {} key).reachLimit d.meshLimit meshClasses cls.val
  .next (s.setDie die { d with mesh := d.mesh.set {} key a })

/-- The adapter replays a flit with a CRC error: CWSTAT.RETRY at each die's end, and detector 0x0306 (R293, R409). -/
def State.flitReplay (s : State) (cw : Nat) (injected : Bool) : State :=
  (causewayEnds cw).foldl (fun s e =>
    let s := s.updBoard fun b =>
      let key := e.1 * 3 + e.2
      { b with cwRetry := b.cwRetry.set 0 key (satAdd (b.cwRetry.get 0 key) 1 0xFFFFFFFF) }
    s.detect e.1 { code := 0x0306, sev := 1, loc := e.2, injected := injected }) s

/-- A flit of an up causeway is replayed (R293). -/
def execCausewayFlitReplay (cw : Fin 8) (s : State) : Host.Outcome State Fault Refusal :=
  .next (if s.board.causeway.get false cw.val then s.flitReplay cw.val false else s)

/-- CWSTAT.j of a die (R291). -/
def State.cwstat (s : State) (die j : Nat) : W64 :=
  w64 (b2n (s.board.causeway.get false (causewayOf die j)) * 2 ^ 63
    + s.board.cwRepaired.get 0 (causewayOf die j) % 256 * 2 ^ 40 + s.board.cwRetry.get 0 (die * 3 + j) % 2 ^ 32)

/-- A causeway goes down in use: the die controllers at both ends take MCHECK 0x0307 (R293, R409, R412). -/
def State.takeCausewayDown (s : State) (cw : Nat) (injected : Bool) : State :=
  let s := s.updBoard fun b => { b with causeway := b.causeway.set false cw false }
  (causewayEnds cw).foldl (fun s e =>
    (s.detect e.1 { code := 0x0307, sev := 4, loc := e.2, data0 := s.cwstat e.1 e.2, injected := injected }).fatalToCtl e.1 0x0307 injected)
    s

/-- A causeway that carries flits takes what is armed at its ends: the next flit is replayed, the next check fails (R414). -/
def State.causewayArmed (s : State) (cw : Nat) : State :=
  (causewayEnds cw).foldl (fun s e =>
    if s.board.causeway.get false cw then
      let (a, s) := s.takeArmed e.1 0x0306 e.2
      let s := if a.isSome then s.flitReplay cw true else s
      let (b, s) := s.takeArmed e.1 0x0307 e.2
      if b.isSome then s.takeCausewayDown cw true else s
    else s) s

/-- CAUSEWAY_DOWN (R293). -/
def execCausewayDown (cw : Fin 8) (s : State) : Host.Outcome State Fault Refusal :=
  .next (if s.board.causeway.get false cw.val then s.takeCausewayDown cw.val false else s)

end Sys2Proof.Machine
end

