-- ==== Sys2Proof/Machine/Dram.lean ====
section
/-! DEFINITION. The physical map and DRAM behind it (R267 to R270, R281 to R284, R293, R295). Memory is byte-addressed,
little-endian; a DRAM byte that nothing has written reads 0, because boot zeroes DRAM (R384). -/

namespace Sys2Proof.Machine
open Sys2Proof

/-- The ranges of the physical map (R267). -/
inductive Region where
  | dram (die : Nat)
  | hole
  | pcie
  | reg (die : Nat)
  | flash
  | rom
  deriving DecidableEq, Repr

/-- The place that serves a range that is no DRAM, for a request of a place on the board: a die's register space at its controller's
stop, else the mainland die (R267, R287, R288). -/
def Region.home : Region → Place
  | .reg d => if d < 4 then ⟨d, dieCtlStop⟩ else mainlandPlace
  | _ => mainlandPlace

/-- Size of a die's DRAM window (R268). -/
def dieWindow : Nat := 0xC000000000

/-- Populated size C of a die's window: 512 GiB, 768 GiB, or none while the die is not trained (R268, R281). -/
def Die.capacity (d : Die) : Nat :=
  if d.dramCap = 1 then 512 * 2 ^ 30 else if d.dramCap = 2 then 768 * 2 ^ 30 else 0

/-- The range that holds a physical address (R267). -/
def State.region (s : State) (pa : Nat) : Region :=
  if pa < 4 * dieWindow then
    if pa % dieWindow < (s.die (pa / dieWindow)).capacity then .dram (pa / dieWindow) else .hole
  else if 0x100000000000 ≤ pa ∧ pa < 0x200000000000 then .pcie
  else if 0x3F0000000000 ≤ pa ∧ pa < 0x3F5000000000 then .reg ((pa - 0x3F0000000000) / 0x1000000000)
  else if 0x3FF000000000 ≤ pa ∧ pa < 0x3FF008000000 then .flash
  else if 0x3FFFFFF00000 ≤ pa ∧ pa < 0x3FFFFFF40000 then .rom
  else .hole

/-- The part of a die's DRAM below the firmware region (R20, R268). -/
def Die.usable (d : Die) : Nat := d.capacity - 2 ^ 30

/-- `n` bytes from a physical address lie wholly in the usable DRAM of one die (R20). -/
def State.inUsable (s : State) (pa n : Nat) : Bool :=
  decide (pa < 4 * dieWindow ∧ pa % dieWindow + n ≤ (s.die (pa / dieWindow)).usable)

/-- A page that ATP may map: wholly in usable DRAM of one die, or in the PCIe outbound window (R276). -/
def State.atpAllows (s : State) (base size : Nat) : Bool :=
  s.inUsable base size || decide (0x100000000000 ≤ base ∧ base + size ≤ 0x200000000000)

/-- The answer to the read of a line: its bytes, the producing detector of a poison mark (plus 65,536 where injected; 0
for none), whether the line is marked dead, and whether the answer is an error response (R269). -/
structure LineRes where
  data : LineData := 0
  poison : Nat := 0
  dead : Bool := false
  bad : Bool := false
  deriving DecidableEq, Repr

/-- The 128 bytes of a line as DRAM holds them. -/
def Dram.line (m : Dram) (line : Nat) : LineData := BitVec.ofNat 1024 (ofLe (readBytes m.bytes (line * 128) 128))

/-- Merge bytes into a line of DRAM (R233). -/
def Dram.merge (m : Dram) (line : Nat) (data : LineData) (mask : LineMask) : Dram :=
  { m with bytes := writeBytes m.bytes (line * 128) (leBytes 128 (mergeLine (m.line line) data mask).toNat) }

def fullMask : LineMask := BitVec.allOnes 128

/-- LOC of a DRAM detector: channel and rank (R282, R409). -/
def dramLoc (pa : Nat) : Nat := ddrChannel pa + 8 * ddrRank pa

/-- A DRAM detection, with the syndrome, bank and row that the detector reports; corrected errors are also counted per channel and
rank (R283, R416). -/
def State.dramDetect (s : State) (die code sev line : Nat) (inj : Bool) : State :=
  let (n, s) := s.draw
  let loc := dramLoc (line * 128)
  let s := if sev = 1 then s.updDie die fun d => { d with corrected := d.corrected.set 0 loc (d.corrected.get 0 loc + 1) } else s
  s.detect die { code := code, sev := sev, loc := loc, addr := w64 (line * 128), injected := inj,
                 data0 := Config.eccSyndrome n, data1 := Config.bankRow n }

/-- Whether a request from a place reaches a line: it is populated DRAM, its die runs, and the causeways are up (R269,
R293, R295). -/
def State.lineReachable (s : State) (src : Place) (line : Nat) : Bool :=
  match s.region (line * 128) with
  | .dram d => s.reachable src.die d && (s.die d).up
  | _ => false

/-- A request to a unit that is no DRAM channel enters the mesh: register spaces by gateway 0 in class CONTROL, the others by PA[8:7]
in class DEMAND (R288, R289; DESIGN CHOICE for the latter: notes/assumptions/126). -/
def State.postWindow (s : State) (src : Place) (pa : Nat) : State :=
  match s.region pa with
  | .reg d => s.postUnit src (Region.home (.reg d)) 0 0
  | r => s.postUnit src r.home (bitsOf pa 8 7) 1

/-- The unit behind a range can be reached: the causeways on the way are up and a compute die at the end runs (R293, R295). -/
def State.windowReachable (s : State) (src : Place) (pa : Nat) : Bool := s.reachable src.die (s.region pa).home.die

def State.setEcc (s : State) (line v : Nat) : State :=
  { s with dram := { s.dram with ecc := s.dram.ecc.set 0 line v } }

def State.countRd (s : State) (die n : Nat) : State :=
  s.updDie die fun d => { d with meters := { d.meters with rdBytes := d.meters.rdBytes + n } }
def State.countWr (s : State) (die n : Nat) : State :=
  s.updDie die fun d => { d with meters := { d.meters with wrBytes := d.meters.wrBytes + n } }

/-- Read a line of DRAM from a place, in a DDR and a mesh class (R283, R284). The bytes are those held at the request;
the arbiters keep the request until they grant it (DESIGN CHOICE: notes/assumptions/5). -/
def State.dramRead (s : State) (src : Place) (line ddr mesh : Nat) : LineRes × State :=
  if s.lineReachable src line then
    let die := line * 128 / dieWindow
    let s := (s.postDram src die (line * 128) ddr mesh).countRd die 128
    let e := s.dram.ecc.get 0 line
    let inj := decide (65536 ≤ e)
    let data := s.dram.line line
    if e % 65536 = 0 then ({ data := data }, s)
    else if e % 65536 = 1 then ({ data := data }, (s.dramDetect die 0x0301 1 line inj).setEcc line 0)
    else if e % 65536 = 2 then
      ({ data := data, poison := 0x0302 + b2n inj * 65536 }, s.dramDetect die 0x0302 2 line inj)
    else ({ data := data, poison := e }, s)
  else ({ bad := true }, s)

/-- Write bytes of a line to DRAM (R233, R269, R283): a write to a hole is discarded; a full-line write clears poison; a
partial one merges and keeps it; bytes that carry a mark poison the line. -/
def State.dramWrite (s : State) (src : Place) (line : Nat) (data : LineData) (mask : LineMask) (poison ddr mesh : Nat) :
    State :=
  if s.lineReachable src line && mask != 0 then
    let die := line * 128 / dieWindow
    let e := s.dram.ecc.get 0 line
    let inj := decide (65536 ≤ e)
    let part := mask != fullMask
    let e' := if poison ≠ 0 then poison
      else if part && decide (2 ≤ e % 65536) then (if e % 65536 = 2 then 0x0302 + b2n inj * 65536 else e) else 0
    let s := (s.postDram src die (line * 128) ddr mesh).countWr die 128
    let s := if part && e % 65536 == 1 then s.dramDetect die 0x0301 1 line inj
      else if part && e % 65536 == 2 then s.dramDetect die 0x0302 2 line inj else s
    let s := { s with dram := s.dram.merge line data mask }
    s.setEcc line e'
  else s

/-- Write bytes anywhere in DRAM line by line, at BOARD scope: the write of an agent that works with physical addresses. -/
def State.physWrite (s : State) (src : Place) (pa : Nat) (bytes : List Byte) (ddr mesh : Nat) : State :=
  let n := bytes.length
  let v := ofLe bytes
  (rangeFrom (pa / 128) ((pa + n + 127) / 128 - pa / 128)).foldl (fun s line =>
    let lo := max pa (line * 128)
    let hi := min (pa + n) (line * 128 + 128)
    let part := bitsOf v (8 * (hi - pa) - 1) (8 * (lo - pa))
    s.dramWrite src line (lineAt (lo - line * 128) part) (spanMask (lo - line * 128) (hi - lo)) 0 ddr mesh) s

/-- What a physical read met: nothing, an error response, or poison with its producing detector. -/
inductive PhysErr where
  | none
  | hole
  | poison (code : Nat)
  deriving DecidableEq, Repr

/-- Read bytes of DRAM at physical addresses, with the first error met. -/
def State.physRead (s : State) (src : Place) (pa n ddr mesh : Nat) : List Byte × PhysErr × State :=
  let go := (rangeFrom (pa / 128) ((pa + n + 127) / 128 - pa / 128)).foldl
    (fun (acc : PhysErr × State) line =>
      let (r, s) := acc.2.dramRead src line ddr mesh
      let e := if acc.1 != .none then acc.1 else if r.bad then .hole else if r.poison ≠ 0 then .poison r.poison else .none
      (e, s)) (PhysErr.none, s)
  (readBytes s.dram.bytes pa n, go.1, go.2)

/-- A read of a decode hole by an agent that is no core or stream: the 0x0304 entry in its unit's ring, and MCHECK where the agent is
the unit's own core (R269, R409, R411). The manual gives such an agent no LOC: it is free (notes/assumptions/127). -/
def State.holeRead (s : State) (u : Nat) (ctl : Bool) (line : Nat) : State :=
  let (n, s) := s.draw
  let s := s.detect u { code := 0x0304, sev := 3, loc := Config.freeNat n % 65536, addr := w64 (line * 128), data0 := w64 (line * 128),
                        data1 := 2 }
  if ctl then s.ctlMchk u { num := 0x0304, index := s.newest u, addr := w64 (line * 128), deferred := false } else s

/-- The producing detector of the poison that a read of a line with this ECC state answers, 0 for none (R283, R416). -/
def eccPoison (e : Nat) : Nat :=
  if e % 65536 ≤ 1 then 0 else if e % 65536 = 2 then 0x0302 + e / 65536 * 65536 else e

/-- A poisoned line read by a unit's own core: the 0x0110 entry and MCHECK (R409, R411, R416). Its LOC, too, is free
(notes/assumptions/127). -/
def State.poisonRead (s : State) (u line prod : Nat) : State :=
  let (n, s) := s.draw
  let inj := decide (65536 ≤ prod)
  let s := s.detect u { code := 0x0110, sev := 3, loc := Config.freeNat n % 65536, addr := w64 (line * 128), data0 := w64 (line * 128),
                        data1 := 2, data2 := w64 (prod % 65536), injected := inj }
  s.ctlMchk u { num := 0x0110, index := s.newest u, addr := w64 (line * 128), deferred := false, injected := inj }

/-- A read by an agent that works with physical addresses, of a unit: each line that answers with an error is reported. `ctl`: the
agent is the unit's own core, which consumes what it reads. -/
def State.agentRead (s : State) (u : Nat) (ctl : Bool) (src : Place) (pa n ddr mesh : Nat) : List Byte × PhysErr × State :=
  let lines := rangeFrom (pa / 128) ((pa + n + 127) / 128 - pa / 128)
  let holes := lines.filter fun l => !s.lineReachable src l
  let bad := if ctl then
      (lines.filter (s.lineReachable src)).filterMap fun l =>
        let p := eccPoison (s.dram.ecc.get 0 l)
        if p = 0 then none else some (l, p)
    else []
  let r := s.physRead src pa n ddr mesh
  let t := holes.foldl (fun s l => s.holeRead u ctl l) r.2.2
  (r.1, r.2.1, bad.foldl (fun s x => s.poisonRead u x.1 x.2) t)

/-! ### Boot flash (R267, R390, R392, R416, R420) -/

/-- The 64 bytes of an entry (R416). -/
def Entry.bytes (e : Entry) : List Byte :=
  let b := leBytes 4 e.index ++ leBytes 2 e.code ++ leBytes 1 (e.sev % 8 + b2n e.injected * 8) ++ leBytes 1 e.unit
    ++ leBytes 8 e.time ++ leBytes 2 e.loc ++ leBytes 2 e.count ++ leBytes 4 e.step ++ leBytes 8 e.addr.toNat
    ++ leBytes 8 e.data0.toNat ++ leBytes 8 e.data1.toNat ++ leBytes 8 e.data2.toNat ++ leBytes 2 e.boot ++ leBytes 2 0
  b ++ leBytes 4 (crc32c b)

/-- A program or a read of boot flash fails: 0x060A, FATAL (R409). -/
def State.flashFault (s : State) : State := s.detect 4 { code := 0x060A, sev := 4, loc := 0 }

/-- The value of a counter of the monotonic region. -/
def Flash.counter (f : Flash) (c : Nat) : Nat :=
  if c = 0 then f.vendorEntries else if c = 1 then f.unlock else if c < 6 then f.floor.get 0 (c - 2) else f.leaf.get 0 (c - 6)

/-- A byte of boot flash as the state holds it: in the monotonic region a bit below its counter's value is cleared, and a bit of no
counter never changes; the crash region
holds the copied entries; a bank that FW_STAGE has written holds its image (DESIGN CHOICE: notes/assumptions/128). -/
def State.flashByte (s : State) (off : Nat) : Byte :=
  let f := s.board.flash
  let rest := Config.flashByte f.active f.atollMaps f.links off
  if 0x7800000 ≤ off then
    BitVec.ofNat 8 ((List.range 8).foldl (fun n b =>
      n + (match Config.flashBit off b with
        | some (c, i) => b2n (decide (f.counter c ≤ i))
        | none => b2n ((Config.flashByte [] [] [] off).getLsbD b)) * 2 ^ b) 0)
  else if 0x7400000 ≤ off then
    match Config.flashCrash off with
    | some (u, i) => (((f.crash[u]?.bind fun q => q.entries[i / 64]?).map fun e => e.bytes.getD (i % 64) 0)).getD rest
    | none => rest
  else match Config.flashImage off with
    | some (key, i) => ((f.image.get [] key)[i]?).getD rest
    | none => rest

/-- The patrol scrubber reads a line, corrects it or marks it poisoned (R283, R409: 0x0303). -/
def execPatrolScrub (die : Fin 4) (line : Nat) (s : State) : Host.Outcome State Fault Refusal :=
  let d := s.die die
  let ln := die.val * dieWindow / 128 + line
  if d.up && decide (line * 128 < d.capacity) then
    let e := s.dram.ecc.get 0 ln
    let inj := decide (65536 ≤ e)
    .next (if e % 65536 = 1 then (s.dramDetect die 0x0301 1 ln inj).setEcc ln 0
      else if e % 65536 = 2 then (s.dramDetect die 0x0303 2 ln inj).setEcc ln (0x0303 + b2n inj * 65536) else s)
  else .next s

end Sys2Proof.Machine
end

