-- ==== Sys2Proof/Machine/Translate.lean ====
section
/-! DEFINITION. Virtual addresses, page tables, TLBs and the walker (R271 to R280). -/

namespace Sys2Proof.Machine
open Sys2Proof

/-- Kinds of access (R275). DEAD needs W; CWB and CINV need R. -/
inductive Acc where
  | fetch | load | store | dead | cmo
  deriving DecidableEq, Repr

/-- DETAIL bits [2:0] of PAGE_FAULT (R76, R250, R257). -/
def Acc.detail : Acc → Nat
  | .fetch => 1 | .load => 2 | .store => 4 | .dead => 4 | .cmo => 2

/-- Why a translation failed (R277): permission or not present, WALKSTAT.REASON and WLEVEL, or a machine check of the
walk: detector, physical address and producing detector. -/
structure XFault where
  perm : Bool
  reason : Nat
  lv : Nat := 0
  mchk : Option (Nat × Nat × Nat) := none
  deriving DecidableEq, Repr

/-- The 57 bits of a virtual address. -/
def va57 (va : W64) : Nat := va.toNat % 2 ^ 57

/-- Bits [63:57] all equal bit 56 (R271). -/
def canonical (va : W64) : Bool := va == sext64 (va.setWidth 57 : BitVec 57)

/-- First index bit of a walk level, number of index bits (R272). -/
def walkShift (lv : Nat) : Nat := if lv = 3 then 39 else if lv = 2 then 30 else if lv = 1 then 21 else 16
def walkBits (lv : Nat) : Nat := if lv = 3 then 18 else if lv = 2 then 9 else if lv = 1 then 9 else 5
/-- log2 of the alignment of the table that a pointer at this level names (R272). -/
def tableAlign (lv : Nat) : Nat := if lv = 1 then 8 else 12

/-- Fields of a page-table entry (R273). -/
def pteV (e : Nat) : Bool := e.testBit 0
def pteLeaf (e : Nat) : Bool := e.testBit 1
def ptePa (e : Nat) : Nat := bitsOf e 45 8 * 256
/-- R, W, X, U in bits 0 to 3. -/
def ptePerm (e : Nat) : Nat := bitsOf e 5 2

/-- The malformed entries of R274. -/
def malformed (e lv : Nat) : Bool :=
  bitsOf e 63 46 != 0 || bitsOf e 7 6 != 0
    || (if pteLeaf e then
          lv == 3 || ((ptePerm e).testBit 1 && !(ptePerm e).testBit 0) || ptePa e % 2 ^ walkShift lv != 0
        else lv == 0 || ptePerm e != 0 || ptePa e % 2 ^ tableAlign lv != 0)

/-- Read a page-table entry from its home controller, in DDR class DEMAND (R279). -/
def State.readPte (s : State) (k pa : Nat) : Except XFault Nat × State :=
  let (r, s) := s.dramRead (corePlace k) (pa / 128) 0 1
  if r.bad then (.error { perm := false, reason := 0, mchk := some (0x0304, pa, 0) }, s)
  else if r.poison ≠ 0 then (.error { perm := false, reason := 0, mchk := some (0x0203, pa, r.poison) }, s)
  else (.ok (lineGet r.data (pa % 128) 8), s)

/-- Enter a pointer into the atoll's walk cache of 128 entries; a full one replaces a freely chosen entry. The mainland's general cores
share one, and a die controller and the service core have none (R277; DESIGN CHOICE: notes/assumptions/198). -/
def State.enterWalk (s : State) (k : Nat) (e : WalkEntry) : State :=
  match atollOfKey k with
  | none => s
  | some a =>
    let w := (s.atoll a).walk
    if w.length < 128 then s.updAtoll a fun x => { x with walk := w ++ [e] }
    else
      let (n, s) := s.draw
      s.updAtoll a fun x => { x with walk := w.set (Config.freeNat n % 128) e }

/-- Walk from a table at level `lv` down to a leaf (R272, R274, R276). -/
def State.walkFrom (s : State) (k : Nat) (m : Bool) (root va : Nat) : Nat → Nat → Except XFault TlbEntry × State
  | lv, table =>
    let idx := (va >>> walkShift lv) % 2 ^ walkBits lv
    match s.readPte k (table + 8 * idx) with
    | (.error f, s) => (.error { f with lv := lv }, s)
    | (.ok e, s) =>
      if !pteV e then (.error { perm := false, reason := 1, lv := lv }, s)
      else if malformed e lv then (.error { perm := false, reason := 4, lv := lv }, s)
      else if pteLeaf e then
        if !m && !s.atpAllows (ptePa e) (2 ^ walkShift lv) then (.error { perm := true, reason := 5, lv := lv }, s)
        else (.ok { m := m, log2 := walkShift lv, vpn := va >>> walkShift lv, pa := ptePa e, perm := ptePerm e }, s)
      else match lv with
        | 0 => (.error { perm := false, reason := 4, lv := 0 }, s)
        | lv' + 1 =>
          (s.enterWalk k { root := root, level := lv' + 1, key := va >>> walkShift (lv' + 1), next := ptePa e }).walkFrom
            k m root va lv' (ptePa e)
termination_by structural lv => lv

/-- The deepest walk-cache entry that serves a walk: the level to go on at and its table. -/
def State.walkStart (s : State) (k root va : Nat) : Nat × Nat :=
  let w := match atollOfKey k with | some a => (s.atoll a).walk | none => []
  let hit := fun lv => (w.find? fun e => e.root == root && e.level == lv && e.key == va >>> walkShift lv)
  match hit 1, hit 2, hit 3 with
  | some e, _, _ => (0, e.next)
  | none, some e, _ => (1, e.next)
  | none, none, some e => (2, e.next)
  | none, none, none => (3, root)

/-- The three TLBs of a core. -/
inductive TlbSel where
  | i | d | s
  deriving DecidableEq, Repr

def Core.tlb (c : Core) : TlbSel → List TlbEntry
  | .i => c.itlb | .d => c.dtlb | .s => c.stlb
def Core.setTlb (c : Core) (t : TlbSel) (l : List TlbEntry) : Core :=
  match t with
  | .i => { c with itlb := l } | .d => { c with dtlb := l } | .s => { c with stlb := l }
def TlbSel.size : TlbSel → Nat
  | .i => 16 | .d => 64 | .s => 32

/-- Enter a leaf into a TLB; a full one replaces a freely chosen entry (R278). -/
def State.enterTlb (s : State) (k : Nat) (t : TlbSel) (e : TlbEntry) : State :=
  let l := (s.core k).tlb t
  if l.length < t.size then s.updCore k fun c => c.setTlb t (l ++ [e])
  else
    let (n, s) := s.draw
    s.updCore k fun c => c.setTlb t (l.set (Config.freeNat n % t.size) e)

/-- What a leaf grants (R275); under the M translation the U bit is ignored (R276). -/
def TlbEntry.grants (e : TlbEntry) (lvl : Level) (acc : Acc) : Bool :=
  let r := e.perm.testBit 0; let w := e.perm.testBit 1; let x := e.perm.testBit 2; let u := e.perm.testBit 3
  let need := match acc with
    | .fetch => x | .load => r | .store => w | .dead => w | .cmo => r
  need && (match lvl, acc with
    | .m, _ => true
    | .u, _ => u
    | .s, .fetch => !u
    | .s, _ => true)

def atpNo : Nat := 0x540
def matpNo : Nat := 0xA40
def regMode (r : W64) : Bool := r.getLsbD 63
def regRoot (r : W64) : Nat := bitsOf r.toNat 24 0 * 2 ^ 21

/-- Whether an address lies in the uncached ranges, which only aligned scalar loads and stores reach (R270); a controller's
own memory is not among them (R383). -/
def State.uncached (s : State) (k pa : Nat) : Bool :=
  match s.region pa with
  | .dram _ => false
  | .hole => false
  | .rom => !isCtl k
  | _ => true

/-- Translate a virtual address at a level for an access (R271 to R278). `scalar`: a naturally aligned scalar load or
store, which alone may reach the uncached ranges (R270). Where several reasons hold, non-canonical comes before MODE and a protected range
before the permission bits (R277; DESIGN CHOICE: notes/assumptions/167). With MATP bare an address must be canonical too (DESIGN
CHOICE: notes/assumptions/185). -/
def State.xlate (s : State) (k : Nat) (lvl : Level) (t : TlbSel) (acc : Acc) (scalar : Bool) (va : W64) :
    Except XFault Nat × State :=
  let m := lvl == .m
  let reg := (s.core k).sr (if m then matpNo else atpNo)
  let check := fun (pa lv : Nat) (s : State) =>
    if !scalar && s.uncached k pa then (Except.error { perm := true, reason := 7, lv := lv }, s) else (Except.ok pa, s)
  if !canonical va then (.error { perm := false, reason := 2 }, s)
  else if !regMode reg then
    if m && va57 va < 2 ^ 46 then check (va57 va) 0 s else (.error { perm := false, reason := 3 }, s)
  else
    let v := va57 va
    let found : Except XFault TlbEntry × State :=
      match ((s.core k).tlb t).find? fun e => e.m == m && v >>> e.log2 == e.vpn with
      | some e => (.ok e, s)
      | none =>
        let (lv, table) := s.walkStart k (regRoot reg) v
        match s.walkFrom k m (regRoot reg) v lv table with
        | (.ok e, s) => (.ok e, s.enterTlb k t e)
        | (.error f, s) => (.error f, s)
    match found with
    | (.error f, s) => (.error f, s)
    | (.ok e, s) =>
      let lv := if e.log2 = 30 then 2 else if e.log2 = 21 then 1 else 0
      if !e.grants lvl acc then (.error { perm := true, reason := 6, lv := lv }, s)
      else check (e.pa + v % 2 ^ e.log2) lv s

def walkstatNo : Nat := 0x545

/-- Record a failed translation in WALKSTAT (R277). -/
def State.noteWalk (s : State) (k : Nat) (f : XFault) : State :=
  s.updCore k fun c => c.setSr walkstatNo (w64 (f.lv * 64 + f.reason))

/-- LOC of a core in recorder entries: its logical number, or its general core number. -/
def State.locOf (s : State) (k : Nat) : Nat := if isCompute k then s.lcoreOf k else coreInAtoll k

/-- Logical atoll of a core, for the detectors whose LOC it is. -/
def State.latollOf (s : State) (k : Nat) : Nat :=
  if isCompute k then ((s.die (k / 144)).logicalAt (posOfKey k)).getD 8 else 0

/-- Report an access's UNCORRECTED detection: 0x0110, 0x0203 or 0x0304, with DATA0 to DATA2 of R416. -/
def State.accessError (s : State) (k code : Nat) (va : W64) (pa detail prod : Nat) : State :=
  s.detect (unitOfKey k)
    { code := code, sev := 3, loc := if code = 0x0203 then s.latollOf k else s.locOf k, addr := va, data0 := w64 pa,
      data1 := w64 detail, data2 := w64 (prod % 65536), injected := decide (65536 ≤ prod) }

/-- An access's machine check, taken on the instruction itself (R411). -/
def accessMcheck {α : Type} (k code : Nat) (va : W64) (pa detail prod : Nat) : M α := do
  modify fun s => s.accessError k code va pa detail prod
  mcheck k code va false (decide (65536 ≤ prod)) (detail.testBit 2)

/-- Translate for an instruction: a failure raises PAGE_FAULT, or the machine check of the walk. `eng` sets DETAIL bit
[3] (R125, R179). -/
def translate (k : Nat) (lvl : Level) (t : TlbSel) (acc : Acc) (eng scalar : Bool) (va : W64) : M Nat := do
  let r ← modifyGet fun s => s.xlate k lvl t acc scalar va
  match r with
  | .ok pa => return pa
  | .error f =>
    match f.mchk with
    | some (code, pa, prod) => accessMcheck k code va pa (acc.detail + b2n eng * 8) prod
    | none =>
      modify fun s => s.noteWalk k f
      trap 0x04 (acc.detail + b2n eng * 8 + b2n f.perm * 16) va

/-! ### Dropping translations (R277, R280) -/

/-- Drop every entry of one translation from a core's TLBs. -/
def Core.dropTlbs (c : Core) (keep : TlbEntry → Bool) : Core :=
  { c with itlb := c.itlb.filter keep, dtlb := c.dtlb.filter keep, stlb := c.stlb.filter keep }

/-- TLBINV drops the entry: its page holds the address, or, where ALL is named, it is of the ATP translation (R277). -/
def TlbEntry.named (e : TlbEntry) (va : Option Nat) : Bool :=
  match va with
  | none => !e.m
  | some v => v >>> e.log2 == e.vpn

/-- TLBINV drops the entry of a walk cache; ALL drops every entry, whatever its root (DESIGN CHOICE: notes/assumptions/186). -/
def WalkEntry.named (e : WalkEntry) (va : Option Nat) : Bool :=
  match va with | none => true | some v => v >>> walkShift e.level == e.key

/-- The cores in a TLBINV's scope: the core, its atoll's, its die's (R277, R280). For a core that no atoll holds, ATOLL scope is the
general cores of the mainland die, or a controller alone (DESIGN CHOICE: notes/assumptions/184). -/
def invCores (k scope : Nat) : List Nat :=
  if scope = 0 then [k]
  else if isCompute k then
    if scope = 1 then coresAt (k / 144) (posOfKey k) else rangeFrom (k / 144 * 144) 144 ++ [592 + k / 144]
  else if scope = 1 then if isGeneral k then rangeFrom 576 16 else [k]
  else if isGeneral k || k == 596 then rangeFrom 576 16 ++ [596]
  else rangeFrom ((k - 592) * 144) 144 ++ [k]

/-- The atolls in its scope, whose walk caches drop the named entries; 36 is the mainland die's walk cache. -/
def invAtolls (k scope : Nat) : List Nat :=
  if isCompute k then if scope ≤ 1 then [k / 16] else rangeFrom (k / 144 * 9) 9
  else if isGeneral k || (k == 596 && decide (2 ≤ scope)) then [36]
  else if k < 596 ∧ 2 ≤ scope then rangeFrom ((k - 592) * 9) 9 else []

/-- TLBINV (R277, R280). -/
def State.tlbinv (s : State) (k : Nat) (v : W64) : State :=
  let scope := min 2 (bitsOf v.toNat 63 62)
  let va := if v.getLsbD 61 then none else some (bitsOf v.toNat 56 16 * 65536)
  let s := (invCores k scope).foldl (fun s c => s.updCore c fun x => x.dropTlbs fun e => !e.named va) s
  (invAtolls k scope).foldl (fun s a => s.updAtoll a fun x => { x with walk := x.walk.filter fun e => !e.named va }) s

end Sys2Proof.Machine
end

