-- ==== Sys2Proof/Machine/Cache.lean ====
section
/-! DEFINITION. L1 data caches, lagoons and the mainland cache, windows, the stream detector and the dead-range entries
(R232 to R245, R254, R258 to R262, R265). -/

namespace Sys2Proof.Machine
open Sys2Proof

/-! ### Windows (R235 to R238, R242 to R244) -/

/-- A window as its ADDR and CTL registers give it. `unit` is the largest QUOTA. -/
structure Window where
  size : Nat
  base : Nat
  priv : Bool
  pers : Nat
  quota : Nat
  deriving DecidableEq, Repr

def windowOf (addr ctl : W64) (lo hi qmax : Nat) : Window :=
  { size := max lo (min hi (bitsOf ctl.toNat 15 10)), base := addr.toNat, priv := ctl.getLsbD 9,
    pers := bitsOf ctl.toNat 7 6, quota := min qmax (bitsOf ctl.toNat (if qmax = 8 then 3 else 5) 0) }

/-- Address A lies in a window with QUOTA nonzero and A[56:SIZE] equal to BASE[56:SIZE] (R236). -/
def Window.holds (w : Window) (a : Nat) : Bool := 
  w.quota != 0 && (a % 2 ^ 57) / 2 ^ w.size == (w.base % 2 ^ 57) / 2 ^ w.size

def Core.l1win (c : Core) (k : Nat) : Window := windowOf (c.sr (0x110 + 2 * k)) (c.sr (0x111 + 2 * k)) 16 56 8
def Atoll.lagwin (a : Atoll) (k : Nat) : Window := windowOf (a.sr (0x120 + 2 * k)) (a.sr (0x121 + 2 * k)) 19 45 32

/-- The lowest-numbered window that holds an address (R236). -/
def Core.l1winOf (c : Core) (va : Nat) : Option Nat := [0, 1, 2, 3].find? fun k => (c.l1win k).holds va
def Atoll.lagwinOf (a : Atoll) (pa : Nat) : Option Nat := [0, 1, 2, 3].find? fun k => (a.lagwin k).holds pa

/-- Reserved units of the four windows, in window order, within a limit (R238, R244): none for a window that is not
PINNED or PERSIST, or that is demoted. -/
def reservePlan (ws : List Window) (limit : Nat) : List Nat :=
  (ws.foldl (fun (acc : Nat × List Nat) w =>
    if w.pers = 2 ∧ w.quota ≠ 0 ∧ w.quota ≤ limit - acc.1 then (acc.1 + w.quota, acc.2 ++ [w.quota])
    else (acc.1, acc.2 ++ [0])) (0, [])).2

def Core.l1plan (c : Core) : List Nat := reservePlan ([0, 1, 2, 3].map c.l1win) 6
def Atoll.lagplan (a : Atoll) : List Nat := reservePlan ([0, 1, 2, 3].map a.lagwin) 24

/-- Window k asks for reserved units and receives none. -/
def demoted (ws : List Window) (plan : List Nat) (k : Nat) : Bool :=
  match ws[k]? with
  | some w => w.pers == 2 && w.quota != 0 && plan.getD k 0 == 0
  | none => false

/-- The reserved ways of window k: from the first way not reserved by a lower-numbered window (DESIGN CHOICE:
notes/assumptions/6). -/
def Core.reservedWays (c : Core) (k : Nat) : List Nat :=
  rangeFrom ((c.l1plan.take k).foldl (· + ·) 0) (c.l1plan.getD k 0)
def Core.unreservedWays (c : Core) : List Nat :=
  let n := c.l1plan.foldl (· + ·) 0
  rangeFrom n (8 - n)

/-! ### The lagoon (R240, R241, R258 to R261) -/

def atollPlace (a : Nat) : Place := if a < 36 then ⟨a / 9, atollStop (a % 9)⟩ else mainlandPlace
def atollUnit (a : Nat) : Nat := if a < 36 then a / 9 else 4
def State.atollLoc (s : State) (a : Nat) : Nat :=
  if a < 36 then ((s.die (a / 9)).logicalAt (a % 9)).getD 8 else 0

/-- Sets of a lagoon of 16 MiB; the mainland cache of 32 MiB has twice as many (R240, R254; the latter's organisation DESIGN CHOICE:
notes/assumptions/130). -/
def lagSets (a : Nat) : Nat := if a = 36 then 16384 else 8192
def lagKeys (a line : Nat) : List Nat := (List.range 32).map (line % lagSets a * 32 + ·)

def Atoll.lagLine (a : Atoll) (key : Nat) : LagLine := a.lag.get {} key
def Atoll.setLag (a : Atoll) (key : Nat) (l : LagLine) : Atoll := { a with lag := a.lag.set {} key l }
def Atoll.lagFind (x : Atoll) (a line : Nat) : Option Nat :=
  (lagKeys a line).find? fun k => (x.lagLine k).valid && (x.lagLine k).line == line

/-- A line compresses (R241): delta form or sparse form. -/
def compresses (d : LineData) : Bool :=
  let w0 := lineGet d 0 4
  let delta := (List.range 32).all fun i =>
    let x := signed 32 (lineGet d (4 * i) 4 + 2 ^ 32 - w0)
    decide (-16384 ≤ x ∧ x ≤ 16383)
  let sparse := decide (((List.range 64).filter fun i => lineGet d (2 * i) 2 != 0).length ≤ 28)
  delta || sparse

/-- State of a line: 0 ZERO, 1 COMPRESSED, 2 FULL; the number is also its sectors (R240, R241). -/
def lineState (cmpen : Bool) (d : LineData) : Nat :=
  if d = 0 then 0 else if cmpen && compresses d then 1 else 2

def Atoll.cmpen (a : Atoll) : Bool := (a.sr 0x128).getLsbD 8
def Atoll.pfdepth (a : Atoll) : Nat := (a.sr 0x128).toNat % 16

/-- The pool of sectors a line is charged to: its PERSIST window where that has reserved sectors, else none. -/
def Atoll.poolOf (a : Atoll) (line : Nat) : Option Nat :=
  match a.lagwinOf (line * 128) with
  | some k => if a.lagplan.getD k 0 ≠ 0 then some k else none
  | none => none

def Atoll.poolCap (a : Atoll) : Option Nat → Nat
  | some k => a.lagplan.getD k 0
  | none => 32 - a.lagplan.foldl (· + ·) 0

/-- The dead-range entry of a line's region (R258). -/
def deadRegion (line : Nat) : Nat := line / 131072
def Atoll.deadKey (a : Atoll) (region : Nat) : Option Nat :=
  (List.range 8).find? fun k => (a.deadr.get {} k).valid && (a.deadr.get {} k).region == region
def Atoll.isDead (a : Atoll) (line : Nat) : Bool :=
  match a.deadKey (deadRegion line) with
  | some k => (a.deadr.get {} k).bits.get false (line % 131072)
  | none => false

/-- Clear a line's dead bit; an entry becomes free when its last bit clears (R258). -/
def Atoll.clearDead (a : Atoll) (line : Nat) : Atoll :=
  match a.deadKey (deadRegion line) with
  | some k =>
    let e := a.deadr.get {} k
    let bits := e.bits.set false (line % 131072) false
    { a with deadr := a.deadr.set {} k (if bits.isEmpty then {} else { e with bits := bits }) }
  | none => a

/-- Who an eviction's or an access's detection goes to: the core, or none where no core started it (R265). -/
abbrev Finder := Option Nat

/-- Report an uncorrectable error in dirty bytes of a lagoon line: MCHECK at the core that found it, else at the controller (R265,
R412). -/
def State.lagError (s : State) (a : Nat) (who : Finder) (line err : Nat) : State :=
  let r : Report := { code := 0x0201, sev := 3, loc := s.atollLoc a, addr := w64 (line * 128), injected := decide (4 ≤ err) }
  match who with
  | some k => s.detectMchk k r (w64 (line * 128))
  | none =>
    let s := s.detect (atollUnit a) r
    s.ctlMchk (atollUnit a) { num := 0x0201, index := s.newest (atollUnit a), addr := w64 (line * 128), deferred := false
                              injected := r.injected }

def poisonFrom (code err : Nat) : Nat := code + b2n (decide (4 ≤ err)) * 65536

/-- A mask has a byte in an 8-byte word. -/
def wordMeets (m : LineMask) (w : Nat) : Bool := (rangeFrom (8 * w) 8).any m.getLsbD

/-- An armed ECC injection strikes a write: the error, and the word of those written that it stands in, which is free (R414;
notes/assumptions/129). -/
def State.armedWord (s : State) (u : Nat) (nums : List Nat) (loc : Nat) (mask : LineMask) : (Nat × Nat) × State :=
  if mask = 0 then ((0, 0), s) else
  let (err, s) := s.armedErr u nums loc
  if err = 0 then ((0, 0), s)
  else
    let (n, s) := s.draw
    let ws := (List.range 16).filter (wordMeets mask)
    ((err, ws.getD (Config.freeNat n % ws.length) 0), s)

/-- The report of an error that is corrected, or met in clean bytes, of a lagoon line (R265). -/
def State.lagReport (s : State) (a : Nat) (l : LagLine) : Report :=
  { code := 0x0201, sev := 1, loc := s.atollLoc a, addr := w64 (l.line * 128), injected := decide (4 ≤ l.err) }

/-- Write a line's dirty bytes back to DRAM, a single-bit error in them corrected and counted; a line marked dead is dropped instead
(R248, R259, R265). The line stays, clean. -/
def State.lagWriteBack (s : State) (a : Nat) (key : Nat) (who : Finder) (ddr mesh : Nat) : State :=
  let at_ := s.atoll a
  let l := at_.lagLine key
  if at_.isDead l.line then s.updAtoll a fun x => x.setLag key {}
  else if l.dirty = 0 then s
  else
    let meets := wordMeets l.dirty l.errWord
    let bad := decide (l.err % 4 = 2) && meets
    let s := if bad then s.lagError a who l.line l.err
      else if decide (l.err % 4 = 1) && meets then s.detect (atollUnit a) (s.lagReport a l) else s
    let poison := if bad then poisonFrom 0x0201 l.err else l.poison
    let s := s.dramWrite (atollPlace a) l.line l.data l.dirty poison ddr mesh
    s.updAtoll a fun x => x.setLag key { l with dirty := 0, poison := poison, err := if meets then 0 else l.err,
                                                  fresh := if bad then 0 else l.fresh }

/-- Evict a line, in the class of the fill that causes it (R284). -/
def State.lagEvict (s : State) (a : Nat) (key : Nat) (who : Finder) (ddr mesh : Nat) : State :=
  (s.lagWriteBack a key who ddr mesh).updAtoll a fun x => x.setLag key {}

/-- The least recently used of some lines of a lagoon, the first of them where several are (DESIGN CHOICE: notes/assumptions/118). -/
def Atoll.lagLru (a : Atoll) (keys : List Nat) : Option Nat :=
  keys.foldl (fun (best : Option Nat) k =>
    match best with
    | none => some k
    | some b => if (a.lagLine k).lru < (a.lagLine b).lru then some k else some b) none

/-- Sectors that some lines occupy. -/
def Atoll.sectors (x : Atoll) (ks : List Nat) : Nat := ks.foldl (fun n k => n + (x.lagLine k).st) 0

/-- The lines of a window among some of its set, where they and `need` more sectors are beyond its QUOTA: only they may be replaced
(R237, R243). A window with reserved sectors is bounded by these. -/
def Atoll.lagQuota (x : Atoll) (line need : Nat) (others : List Nat) : List Nat :=
  match x.lagwinOf (line * 128) with
  | some w =>
    let mine := others.filter fun k => x.lagwinOf ((x.lagLine k).line * 128) == some w
    if (x.poolOf line).isNone && decide ((x.lagwin w).quota < need + x.sectors mine) then mine else []
  | none => []

/-- The victim that makes room for line `key` in its set, if one is needed: its window's QUOTA first, then its pool's sectors; where
only the set is over-full, a line that sits in sectors reserved since for another window (R239, R240, R243, R244). A line counts in
the pool that the windows now in force give it (DESIGN CHOICE: notes/assumptions/197). -/
def Atoll.lagOver (x : Atoll) (a key : Nat) : Option Nat :=
  let l := x.lagLine key
  let others := (lagKeys a l.line).filter fun k => k != key && (x.lagLine k).valid
  let pool := x.poolOf l.line
  let inPool := fun (p : Option Nat) => others.filter fun k => x.poolOf (x.lagLine k).line == p
  let same := x.lagQuota l.line l.st others
  if !same.isEmpty then x.lagLru same
  else if x.poolCap pool < l.st + x.sectors (inPool pool) then x.lagLru (inPool pool)
  else if 32 < l.st + x.sectors others then
    x.lagLru (others.filter fun k =>
      let p := x.poolOf (x.lagLine k).line
      p != pool && decide (x.poolCap p < x.sectors (inPool p)))
  else none

/-- Evict until line `key` fits (at most the 31 other lines of its set). -/
def State.lagFit (s : State) (a : Nat) (key : Nat) (who : Finder) (ddr mesh : Nat) : Nat → State
  | 0 => s
  | n + 1 =>
    match (s.atoll a).lagOver a key with
    | some v => (s.lagEvict a v who ddr mesh).lagFit a key who ddr mesh n
    | none => s

/-- A tag for a new line of `st` sectors: a free one; else that of its window's least recently used line, where the window already
holds its QUOTA; else that of the least recently used line of its pool; else that of a line that sits in sectors reserved for another
window; none where there is no such line, and then the line is not allocated (DESIGN CHOICE: notes/assumptions/7). -/
def Atoll.lagTag (x : Atoll) (a line st : Nat) : Option Nat :=
  match (lagKeys a line).find? fun k => !(x.lagLine k).valid with
  | some k => some k
  | none => match x.lagLru (x.lagQuota line (max 1 st) (lagKeys a line)) with
  | some k => some k
  | none =>
    let pool := x.poolOf line
    match x.lagLru ((lagKeys a line).filter fun k => x.poolOf (x.lagLine k).line == pool) with
    | some k => some k
    | none => x.lagLru ((lagKeys a line).filter fun k =>
        let p := x.poolOf (x.lagLine k).line
        decide (x.poolCap p < x.sectors ((lagKeys a line).filter fun j => x.poolOf (x.lagLine j).line == p)))

/-- The line stands alone in its pool and still does not fit its QUOTA or its pool. -/
def Atoll.lagTooBig (a : Atoll) (key : Nat) : Bool :=
  let l := a.lagLine key
  let q := match a.lagwinOf (l.line * 128) with | some w => (a.lagwin w).quota | none => 32
  decide (min q (a.poolCap (a.poolOf l.line)) < l.st)

/-- A tag, or a dead-range entry, is written: what stood in it is replaced, with the error of an armed injection (R414; DESIGN CHOICE:
notes/assumptions/200). -/
def State.tagWrite (s : State) (a key : Nat) : State :=
  let (err, s) := s.armedErr (atollUnit a) [0x0202] (s.atollLoc a)
  s.updAtoll a fun x => { x with tagBad := x.tagBad.filter (fun b => b.1 != key) ++ if err = 0 then [] else [(key, err)] }

/-- Put a line into the lagoon, evicting what its level lets it replace, in the class of the fill. -/
def State.lagInsert (s : State) (a : Nat) (l : LagLine) (who : Finder) (ddr mesh : Nat) : State :=
  match (s.atoll a).lagTag a l.line (lineState (s.atoll a).cmpen l.data) with
  | none => if l.dirty = 0 then s else s.dramWrite (atollPlace a) l.line l.data l.dirty l.poison ddr mesh
  | some key =>
    let s := (if ((s.atoll a).lagLine key).valid then s.lagEvict a key who ddr mesh else s).tagWrite a key
    let ((err, ew), s) := s.armedWord (atollUnit a) [0x0201] (s.atollLoc a) fullMask
    let s := s.updAtoll a fun x =>
      let clk := x.lagClock + 1
      ({ x with lagClock := clk }).setLag key
        { l with valid := true, st := lineState x.cmpen l.data, err := err, errWord := ew, lru := if l.transient then 0 else clk }
    let s := s.lagFit a key who ddr mesh 32
    if (s.atoll a).lagTooBig key then s.lagEvict a key who ddr mesh else s

/-- Mark a line as just used. -/
def State.lagTouch (s : State) (a : Nat) (key : Nat) : State :=
  s.updAtoll a fun x =>
    let clk := x.lagClock + 1
    ({ x with lagClock := clk }).setLag key { x.lagLine key with lru := clk, transient := false }

/-- Check a present line's stored word on an access: a corrected error is counted; an uncorrectable one in clean bytes
drops the line once its dirty bytes are written back, in class DEMAND (R284; DESIGN CHOICE: notes/assumptions/187), in dirty bytes
marks it (R265). Answers whether the line is still there. -/
def State.lagCheck (s : State) (a : Nat) (key : Nat) (who : Finder) : Bool × State :=
  let l := (s.atoll a).lagLine key
  let r := s.lagReport a l
  if l.err % 4 = 1 then
    (true, (s.detect (atollUnit a) r).updAtoll a fun x => x.setLag key { l with err := 0 })
  else if l.err % 4 = 2 then
    if !wordMeets l.dirty l.errWord then (false, (s.detect (atollUnit a) r).lagEvict a key who 0 1)
    else (true, (s.lagError a who l.line l.err).updAtoll a fun x =>
      x.setLag key { l with err := 0, poison := poisonFrom 0x0201 l.err, fresh := 0 })
  else (true, s)

/-- The level of the window that governs a line, a demoted window acting as NORMAL; 0 where none does (R243, R244). -/
def Atoll.lagLevel (a : Atoll) (line : Nat) : Nat :=
  match a.lagwinOf (line * 128) with
  | some k => if (a.lagwin k).pers = 2 ∧ a.lagplan.getD k 0 = 0 then 0 else (a.lagwin k).pers
  | none => 0

/-- Drop a copy of a line without write-back. -/
def State.lagDrop (s : State) (a line : Nat) : State :=
  match (s.atoll a).lagFind a line with
  | some key => s.updAtoll a fun x => x.setLag key {}
  | none => s

/-- The tags of a line's set and the dead bitmap of its region, by the keys that `Atoll.tagBad` has for them. -/
def Atoll.looksAt (x : Atoll) (a line key : Nat) : Bool :=
  key / 32 == line % lagSets a || ((x.deadKey (deadRegion line)).map (2 ^ 20 + ·)) == some key

/-- A lookup of a line meets the errors stored in the tags of its set and in the dead bitmap of its region: corrected and counted, or
FATAL for the atoll, which runs no more until its power is switched off (R408, R409, R414; DESIGN CHOICE: notes/assumptions/131,
200). -/
def State.tagLookup (s : State) (a line : Nat) : State :=
  ((s.atoll a).tagBad.filter fun b => (s.atoll a).looksAt a line b.1).foldl (fun s b =>
    let fix := b.2 % 4 == 1
    let s := (s.detect (atollUnit a)
      { code := 0x0202, sev := if fix then 1 else 4, loc := s.atollLoc a, addr := w64 (line * 128), injected := decide (4 ≤ b.2) }).updAtoll
        a fun x => { x with tagBad := x.tagBad.filter (· != b), failed := x.failed || !fix }
    if fix then s else s.fatalToCtl (atollUnit a) 0x0202 (decide (4 ≤ b.2))) s

/-- A present and sound line's key, after the check of its word. -/
def State.lagPresent (s : State) (a line : Nat) (who : Finder) : Option Nat × State :=
  match (s.atoll a).lagFind a line with
  | none => (none, s)
  | some key => match s.lagCheck a key who with
    | (true, s) => (some key, s)
    | (false, s) => (none, s)

/-- Read a line through a lagoon (R243, R259, R265). -/
def State.lagRead (s : State) (a line : Nat) (who : Finder) (ddr mesh : Nat) : LineRes × State :=
  let s := s.tagLookup a line
  if (s.atoll a).isDead line then ({ dead := true }, s.lagDrop a line)
  else
    match s.lagPresent a line who with
    | (some key, s) =>
      let l := (s.atoll a).lagLine key
      ({ data := l.data, poison := l.poison }, s.lagTouch a key)
    | (none, s) =>
      let (r, s) := s.dramRead (atollPlace a) line ddr mesh
      let p := (s.atoll a).lagLevel line
      if r.bad || p == 3 then (r, s)
      else (r, s.lagInsert a { line := line, data := r.data, poison := r.poison, transient := p == 1 } who ddr mesh)

/-- Bytes written to a line that carries a mark: the mark clears once every byte has been written since, and the line's write-back
is then a full-line write (R265). Answers the mark, the bytes written since it was set, and the bytes now dirty. -/
def freshen (poison : Nat) (fresh dirty mask : LineMask) : Nat × LineMask × LineMask :=
  if poison = 0 then (0, 0, dirty ||| mask)
  else if fresh ||| mask = fullMask then (0, 0, fullMask) else (poison, fresh ||| mask, dirty ||| mask)

/-- Write bytes of a line into a lagoon: L1 write-backs, NOALLOC stores and stream writes (R233, R243, R260, R265). In a BYPASS window,
which takes no line, a dead line's zeros merged with the bytes go to DRAM (DESIGN CHOICE: notes/assumptions/165). Answers false where
the bytes that fill the line met an error response, and nothing is written (R269, R295). -/
def State.lagWrite (s : State) (a line : Nat) (data : LineData) (mask : LineMask) (poison : Nat) (who : Finder)
    (ddr mesh : Nat) : Bool × State :=
  let s := s.tagLookup a line
  let p := (s.atoll a).lagLevel line
  if (s.atoll a).isDead line then
    let s := ((s.lagDrop a line).updAtoll a fun x => x.clearDead line).tagWrite a (2 ^ 20 + ((s.atoll a).deadKey (deadRegion line)).getD 0)
    let d := mergeLine 0 data mask
    (true, if p = 3 then s.dramWrite (atollPlace a) line d fullMask poison ddr mesh
    else s.lagInsert a { line := line, data := d, dirty := fullMask, poison := poison, transient := p == 1 } who ddr mesh)
  else
    match s.lagPresent a line who with
    | (some key, s) =>
      let l := (s.atoll a).lagLine key
      let (po, fr, di) := if poison ≠ 0 then (poison, 0, l.dirty ||| mask) else freshen l.poison l.fresh l.dirty mask
      let ((err, ew), s) := s.armedWord (atollUnit a) [0x0201] (s.atollLoc a) mask
      let s := s.updAtoll a fun x =>
        let d := mergeLine l.data data mask
        x.setLag key { l with data := d, dirty := di, poison := po, fresh := fr, st := lineState x.cmpen d,
                              err := if err = 0 then l.err else err, errWord := if err = 0 then l.errWord else ew }
      let s := (s.lagTouch a key).lagFit a key who ddr mesh 32
      (true, if (s.atoll a).lagTooBig key then s.lagEvict a key who ddr mesh else s)
    | (none, s) =>
      if p = 3 then (true, s.dramWrite (atollPlace a) line data mask poison ddr mesh)
      else
        let (r, s) := if mask = fullMask then (({} : LineRes), s) else s.dramRead (atollPlace a) line ddr mesh
        if r.bad then (false, s)
        else
          let (po, fr, di) := if poison ≠ 0 then (poison, 0, mask) else freshen r.poison 0 0 mask
          (true, s.lagInsert a { line := line, data := mergeLine r.data data mask, dirty := di, poison := po, fresh := fr,
                                 transient := p == 1 } who ddr mesh)

/-- The line that an L1 store miss fills from: a dead line becomes zeros, all dirty, with its bit cleared (R260). -/
def State.lagStoreFill (s : State) (a line : Nat) (who : Finder) : LineRes × State :=
  if (s.atoll a).isDead line then
    ({}, (s.lagWrite a line 0 0 0 who 0 1).2)
  else s.lagRead a line who 0 1

/-! ### The stream detector (R245) -/

/-- Enter a prefetched line: never beyond the 64 KiB region, into a BYPASS window, or a line marked dead; a NORMAL line is
entered as TRANSIENT. A prefetch never faults. Its class is DEMAND (R284; DESIGN CHOICE: notes/assumptions/187). -/
def State.prefetchLine (s : State) (a region : Nat) (line : Int) : State :=
  if line < 0 ∨ line.toNat / 512 ≠ region then s
  else
    let ln := line.toNat
    let at_ := s.atoll a
    let p := at_.lagLevel ln
    if at_.isDead ln || p == 3 || (at_.lagFind a ln).isSome then s
    else
      let (r, s) := s.dramRead (atollPlace a) ln 0 1
      if r.bad then s
      else s.lagInsert a { line := ln, data := r.data, poison := r.poison, transient := decide (p ≤ 1) } none 0 1

/-- An L1 read miss trains the detector; a trained tracker keeps PFDEPTH lines ahead (R245). Misses of the core elsewhere between the
three that train a tracker do not break it (DESIGN CHOICE: notes/assumptions/166). -/
def State.trainDetector (s : State) (a k line : Nat) : State :=
  let at_ := s.atoll a
  let depth := at_.pfdepth
  if depth = 0 then s
  else
    let clk := at_.lagClock + 1
    let matches_ := fun (t : Tracker) => t.core == k && t.line / 512 == line / 512
      && ((t.hits == 0 && ((line : Int) == t.line + 1 || (line : Int) == t.line - 1)) || (t.hits != 0 && (line : Int) == t.line + t.dir))
    match at_.trackers.find? matches_ with
    | some t =>
      let t' : Tracker := { t with line := line, dir := (line : Int) - t.line, hits := min 2 (t.hits + 1), lru := clk }
      let s := s.setAtoll a { at_ with lagClock := clk, trackers := at_.trackers.map fun x => if x == t then t' else x }
      if t'.hits = 2 then
        (rangeFrom 1 depth).foldl (fun s i => s.prefetchLine a (line / 512) ((line : Int) + t'.dir * i)) s
      else s
    | none =>
      let t' : Tracker := { core := k, line := line, dir := 0, hits := 0, lru := clk }
      let keep := if at_.trackers.length < 16 then at_.trackers
        else match at_.trackers.foldl (fun (b : Option Tracker) t => match b with
            | none => some t
            | some x => if t.lru < x.lru then some t else some x) none with
          | some v => at_.trackers.erase v
          | none => []
      s.setAtoll a { at_ with lagClock := clk, trackers := keep ++ [t'] }

/-! ### What an L1 reaches below it (R254) -/

/-- Read a line below a core's L1; every read miss of a load, vector operand, TLD or DLD trains the detector (R245). -/
def State.belowRead (s : State) (k line : Nat) (train : Bool) : LineRes × State :=
  match atollOfKey k with
  | some a =>
    let (r, s) := s.lagRead a line (some k) 0 1
    (r, if train && isCompute k then s.trainDetector a k line else s)
  | none => s.dramRead (corePlace k) line 0 1

def State.belowFill (s : State) (k line : Nat) : LineRes × State :=
  match atollOfKey k with
  | some a => s.lagStoreFill a line (some k)
  | none => s.dramRead (corePlace k) line 0 1

/-- Write bytes of a line below a core's L1. Answers false where they met an error response. -/
def State.belowWrite (s : State) (k line : Nat) (data : LineData) (mask : LineMask) (poison : Nat) : Bool × State :=
  match atollOfKey k with
  | some a => s.lagWrite a line data mask poison (some k) 0 1
  | none => (true, s.dramWrite (corePlace k) line data mask poison 0 1)

/-! ### The L1 data cache (R233, R234, R237, R239, R265) -/

def l1Keys (line : Nat) : List Nat := (List.range 8).map (line % 128 * 8 + ·)
def Core.l1Line (c : Core) (key : Nat) : L1Line := c.l1.get {} key
def Core.setL1 (c : Core) (key : Nat) (l : L1Line) : Core := { c with l1 := c.l1.set {} key l }
def Core.l1Find (c : Core) (line : Nat) : Option Nat :=
  (l1Keys line).find? fun k => (c.l1Line k).valid && (c.l1Line k).line == line

/-- PERS and number of the window that governs a virtual line, a demoted window acting as NORMAL (R237, R238). -/
def Core.l1Level (c : Core) (vline : Nat) : Nat × Option Nat :=
  match c.l1winOf (vline * 128) with
  | none => (0, none)
  | some k =>
    let p := (c.l1win k).pers
    (if p = 2 ∧ c.l1plan.getD k 0 = 0 then 0 else p, some k)

/-- The least recently used of some lines of an L1, the first of them where several are (DESIGN CHOICE: notes/assumptions/118). -/
def Core.l1Lru (c : Core) (keys : List Nat) : Option Nat :=
  keys.foldl (fun (best : Option Nat) k =>
    match best with
    | none => some k
    | some b => if (c.l1Line k).lru < (c.l1Line b).lru then some k else some b) none

/-- The lines of a window in a set, where they already are its QUOTA; else none (R237). -/
def Core.l1Quota (c : Core) (line : Nat) (w : Option Nat) : List Nat :=
  match w with
  | none => []
  | some j =>
    let own := (l1Keys line).filter fun k => (c.l1Line k).valid && c.l1winOf ((c.l1Line k).vline * 128) == w
    if (c.l1win j).quota ≤ own.length then own else []

/-- Where a fill goes (R237): the least recently used of the ways it may use, whose lines are those of its window or were left there
when the ways were reserved for it (R234, R239). -/
def Core.l1Victim (c : Core) (line vline : Nat) : Option Nat :=
  let (p, w) := c.l1Level vline
  let key := fun way => line % 128 * 8 + way
  if p = 2 then
    let ways := (match w with | some k => c.reservedWays k | none => []).map key
    match ways.find? fun k => !(c.l1Line k).valid with
    | some k => some k
    | none =>
      c.l1Lru ways
  else
    let ways := c.unreservedWays.map key
    let own := (c.l1Quota line w).filter ways.contains
    match c.l1Lru own with
    | some k => some k
    | none => match ways.find? fun k => !(c.l1Line k).valid with
      | some k => some k
      | none => c.l1Lru ways

/-- Report an uncorrectable error in dirty bytes of an L1 line (R265). -/
def State.l1Error (s : State) (k : Nat) (l : L1Line) : State :=
  s.detectMchk k { code := 0x0102, sev := 3, loc := s.locOf k, addr := w64 (l.vline * 128), injected := decide (4 ≤ l.err) }
    (w64 (l.vline * 128))

/-- The report of an error that is corrected, or met in clean bytes, of an L1 line (R265). -/
def State.l1Report (s : State) (k : Nat) (l : L1Line) : Report :=
  { code := if l.err % 4 = 1 then 0x0101 else 0x0102, sev := 1, loc := s.locOf k, addr := w64 (l.vline * 128),
    injected := decide (4 ≤ l.err) }

/-- Dirty bytes of a line go below. Where the line that they would fill has its home behind a causeway that is down or on a die that is
off, they are lost, and the core takes the MCHECK of the error response (R269, R293, R295; DESIGN CHOICE: notes/assumptions/190). -/
def State.l1Below (s : State) (k : Nat) (l : L1Line) (poison : Nat) : State :=
  match s.belowWrite k l.line l.data l.dirty poison with
  | (true, s) => s
  | (false, s) => s.detectMchk k { code := 0x0304, sev := 3, loc := s.locOf k, addr := w64 (l.vline * 128), data0 := w64 (l.line * 128)
                                   data1 := 4 } (w64 (l.vline * 128))

/-- Write a line's dirty bytes back below; the line stays, clean. A single-bit error in them is corrected and counted (R265). -/
def State.l1WriteBack (s : State) (k key : Nat) : State :=
  let l := (s.core k).l1Line key
  if !l.valid || l.dirty == 0 then s
  else
    let meets := wordMeets l.dirty l.errWord
    let bad := decide (l.err % 4 = 2) && meets
    let s := if bad then s.l1Error k l else if decide (l.err % 4 = 1) && meets then s.detect (unitOfKey k) (s.l1Report k l) else s
    let poison := if bad then poisonFrom 0x0102 l.err else l.poison
    let s := s.l1Below k l poison
    s.updCore k fun c => c.setL1 key { l with dirty := 0, poison := poison, err := if meets then 0 else l.err,
                                              fresh := if bad then 0 else l.fresh }

def State.l1Evict (s : State) (k key : Nat) : State := (s.l1WriteBack k key).updCore k fun c => c.setL1 key {}

/-- Enter a line into the L1. -/
def State.l1Insert (s : State) (k : Nat) (l : L1Line) : State :=
  match (s.core k).l1Victim l.line l.vline with
  | none => if l.dirty = 0 then s else s.l1Below k l l.poison
  | some key =>
    let s := s.l1Evict k key
    let ((err, ew), s) := s.armedWord (unitOfKey k) [0x0101, 0x0102] (s.locOf k) fullMask
    s.updCore k fun c =>
      let clk := c.l1clock + 1
      let tr := (c.l1Level l.vline).1 == 1
      ({ c with l1clock := clk }).setL1 key { l with valid := true, err := err, errWord := ew, lru := if tr then 0 else clk }

def State.l1Touch (s : State) (k key : Nat) : State :=
  s.updCore k fun c =>
    let clk := c.l1clock + 1
    ({ c with l1clock := clk }).setL1 key { c.l1Line key with lru := clk }

/-- Check a present line's stored word on an access, as in the lagoon (R265). -/
def State.l1Check (s : State) (k key : Nat) : Bool × State :=
  let l := (s.core k).l1Line key
  let r := s.l1Report k l
  if l.err % 4 = 1 then (true, (s.detect (unitOfKey k) r).updCore k fun c => c.setL1 key { l with err := 0 })
  else if l.err % 4 = 2 then
    if !wordMeets l.dirty l.errWord then (false, (s.detect (unitOfKey k) r).l1Evict k key)
    else (true, (s.l1Error k l).updCore k fun c =>
      c.setL1 key { l with err := 0, poison := poisonFrom 0x0102 l.err, fresh := 0 })
  else (true, s)

def State.l1Present (s : State) (k line : Nat) : Option Nat × State :=
  match (s.core k).l1Find line with
  | none => (none, s)
  | some key => match s.l1Check k key with
    | (true, s) => (some key, s)
    | (false, s) => (none, s)

/-- Read a line through a core's L1: a hit, a NOALLOC read, which does not train the detector, or a fill (R237, R245). -/
def State.l1Read (s : State) (k vline line : Nat) (train : Bool) : LineRes × State :=
  match s.l1Present k line with
  | (some key, s) =>
    let l := (s.core k).l1Line key
    ({ data := l.data, poison := l.poison }, s.l1Touch k key)
  | (none, s) =>
    let (r, s) := s.belowRead k line (train && ((s.core k).l1Level vline).1 != 3)
    if r.bad || r.dead || ((s.core k).l1Level vline).1 == 3 then (r, s)
    else (r, s.l1Insert k { line := line, vline := vline, data := r.data, poison := r.poison })

/-- Write bytes of a line through a core's L1. Answers false where the fill met an error response. -/
def State.l1Write (s : State) (k vline line : Nat) (data : LineData) (mask : LineMask) : Bool × State :=
  match s.l1Present k line with
  | (some key, s) =>
    let l := (s.core k).l1Line key
    let (po, fr, di) := freshen l.poison l.fresh l.dirty mask
    let ((err, ew), s) := s.armedWord (unitOfKey k) [0x0101, 0x0102] (s.locOf k) mask
    let s := s.updCore k fun c =>
      c.setL1 key { l with data := mergeLine l.data data mask, dirty := di, poison := po, fresh := fr,
                           err := if err = 0 then l.err else err, errWord := if err = 0 then l.errWord else ew }
    (true, s.l1Touch k key)
  | (none, s) =>
    if ((s.core k).l1Level vline).1 = 3 then s.belowWrite k line data mask 0
    else
      let (r, s) := s.belowFill k line
      if r.bad then (false, s)
      else
        let (po, fr, di) := freshen r.poison 0 0 mask
        (true, s.l1Insert k { line := line, vline := vline, data := mergeLine r.data data mask, dirty := di, poison := po,
                              fresh := fr })

end Sys2Proof.Machine
end

