-- ==== Sys2Proof/Machine/Mem.lean ====
section
/-! DEFINITION. Accesses of instructions to memory through L1 (R33, R34, R259, R265, R269, R270), and the trace records of
R404. -/

namespace Sys2Proof.Machine
open Sys2Proof

def memstatNo : Nat := 0x042
def memcfgNo : Nat := 0x118

/-- Set a bit of MEMSTAT (R262). -/
def State.setMemstat (s : State) (k bit : Nat) : State :=
  s.updCore k fun c => c.setSr memstatNo (c.sr memstatNo ||| w64 (2 ^ bit))

/-- A read that found its line dead: MEMSTAT.DEADRD, and DEADRD with this address where MEMCFG.DEADTRAP is 1 (R259). -/
def deadReadAt (k : Nat) (addr : W64) : M Unit := do
  modify fun s => s.setMemstat k 0
  let c ← getC k
  if (c.sr memcfgNo).getLsbD 0 then trap 0x05 0 addr else pure ()

/-- An instruction's read of a dead line: ADDR is the line's (R259). -/
def deadRead (k : Nat) (va : W64) : M Unit := deadReadAt k (w64 (va.toNat / 128 * 128))

/-- `n` bytes at `off` of the boot-flash window or the boot ROM, as a number. -/
def constBytes (g : Nat → Byte) (off n : Nat) : Nat := ofLe ((rangeFrom off n).map g)

/-- A byte of a controller's memory: as written, else of the firmware loaded, else of what reset left there: the boot ROM on the
service core (R383), a free value on a die controller. -/
def Core.ctlByte (c : Core) (k off : Nat) : Byte :=
  match c.ctlMem.get none off with
  | some b => b
  | none => c.ctlBody.getD off (if k = 596 then Config.bootRomByte off else Config.controllerByte k off)

/-- A store to a register space (R267): its layout is the installation's. The one register there whose effect the manual gives is
the inbound window table of mainland register space (R435); a store elsewhere has no effect that the manual gives (DESIGN CHOICE:
notes/assumptions/109). -/
def State.regWrite (s : State) (pa n v : Nat) : State :=
  match Config.inboundRegister pa n v with
  | some (page, entry) =>
    if s.region pa = .reg 4 then s.updBoard fun b => { b with pcieTable := b.pcieTable.set 0 page entry } else s
  | none => s

/-- Read `n` bytes that lie within one line, after translation; `eng` marks a vector, tile or stream access (R76). A register of a
register space answers a free value (DESIGN CHOICE: notes/assumptions/109), and so does boot flash that fails, which is recorded
(R409). -/
def loadSpanE (k : Nat) (eng : Bool) (va : W64) (pa n : Nat) (train : Bool) : M Nat := do
  let s ← get
  let window := s.uncached k pa
  if window && !s.windowReachable (corePlace k) pa then accessMcheck k 0x0304 va pa (2 + b2n eng * 8) 0
  if window then modify fun s => s.postWindow (corePlace k) pa
  match s.region pa with
  | .pcie => return Config.freeNat (← drawM) % 2 ^ (8 * n)
  | .reg _ => return Config.freeNat (← drawM) % 2 ^ (8 * n)
  | .flash =>
    if s.board.flash.fails then do
      modify State.flashFault
      return Config.freeNat (← drawM) % 2 ^ (8 * n)
    else return constBytes s.flashByte (pa - 0x3FF000000000) n
  | .rom =>
    if isCtl k then return constBytes ((s.core k).ctlByte k) (pa - 0x3FFFFFF00000) n
    else return constBytes Config.bootRomByte (pa - 0x3FFFFFF00000) n
  | _ =>
    let r ← modifyGet fun s => s.l1Read k (va.toNat / 128) (pa / 128) train
    if r.dead then do
      deadRead k va
      return 0
    else if r.bad then accessMcheck k 0x0304 va pa (2 + b2n eng * 8) 0
    else if r.poison ≠ 0 then accessMcheck k 0x0110 va pa (2 + b2n eng * 8) r.poison
    else return lineGet r.data (pa % 128) n

def loadSpan (k : Nat) (va : W64) (pa n : Nat) (train : Bool) : M Nat := loadSpanE k false va pa n train

/-- Write `n` bytes that lie within one line, after translation. A write to the PCIe outbound window leaves the board for the
front-end server, as a read takes its bytes from there (DESIGN CHOICE: notes/assumptions/17). A write to a decode hole, the boot ROM or the boot-flash
window is discarded (R269); a controller's own memory stands in the boot ROM's place (R383). -/
def storeSpanE (k : Nat) (eng : Bool) (va : W64) (pa n v : Nat) : M Unit := do
  let s ← get
  let reached := s.windowReachable (corePlace k) pa
  if s.uncached k pa && reached then modify fun s => s.postWindow (corePlace k) pa
  match s.region pa with
  | .reg _ => if reached then modify fun s => s.regWrite pa n (v % 2 ^ (8 * n)) else pure ()
  | .dram _ =>
    let ok ← modifyGet fun s =>
      s.l1Write k (va.toNat / 128) (pa / 128) (lineAt (pa % 128) (v % 2 ^ (8 * n))) (spanMask (pa % 128) n)
    if ok then pure () else accessMcheck k 0x0304 va pa (4 + b2n eng * 8) 0
  | .rom =>
    if isCtl k then
      modC k fun c => { c with
        ctlMem := (leBytes n v).zipIdx.foldl (fun m b => m.set none (pa - 0x3FFFFFF00000 + b.2) (some b.1)) c.ctlMem }
    else pure ()
  | _ => pure ()

def storeSpan (k : Nat) (va : W64) (pa n v : Nat) : M Unit := storeSpanE k false va pa n v

/-- The error response that an engine's store to a line would meet, raised before anything is written (R90). The write is only
tried: the state it would leave is dropped, so that caches, flags and dead bits stay as they are (R259, R261). -/
def probeSpan (k : Nat) (acc : Acc) (va : W64) (pa : Nat) : M Unit := do
  let s ← get
  match acc, s.region pa with
  | .store, .dram _ => if (s.l1Write k (va.toNat / 128) (pa / 128) 0 0).1 then pure () else accessMcheck k 0x0304 va pa 12 0
  | _, _ => pure ()

/-- The parts of `n` bytes from a virtual address that lie in one line each, with their physical addresses. -/
def locate (k : Nat) (lvl : Level) (t : TlbSel) (acc : Acc) (va : W64) (n : Nat) : M (List (W64 × Nat × Nat)) := do
  let first := min n (128 - va.toNat % 128)
  let pa ← translate k lvl t acc true false va
  if first = n then return [(va, pa, n)]
  else
    let va' := va + w64 first
    let pa' ← translate k lvl t acc true false va'
    return [(va, pa, first), (va', pa', n - first)]

/-- Read the parts of a span, low address first (R10). -/
def readParts (rd : W64 → Nat → Nat → M Nat) : List (W64 × Nat × Nat) → M Nat
  | [] => return 0
  | (va, pa, n) :: l => do
    let lo ← rd va pa n
    let hi ← readParts rd l
    return lo + hi * 2 ^ (8 * n)

/-- Write the parts of a span, low address first (R10). -/
def writeParts (wr : W64 → Nat → Nat → Nat → M Unit) : List (W64 × Nat × Nat) → Nat → M Unit
  | [], _ => return ()
  | (va, pa, n) :: l, v => do
    wr va pa n (v % 2 ^ (8 * n))
    writeParts wr l (v / 2 ^ (8 * n))

/-- A scalar load of `n` bytes (R33): MISALIGN first, then the translation, then the access. -/
def scalarLoad (k : Nat) (va : W64) (n : Nat) : M Nat := do
  if va.toNat % n ≠ 0 then trap 0x03 n va
  let c ← getC k
  let pa ← translate k c.level .d .load false true va
  loadSpan k va pa n true

/-- A scalar store of `n` bytes (R33). -/
def scalarStore (k : Nat) (va : W64) (n v : Nat) : M Unit := do
  if va.toNat % n ≠ 0 then trap 0x03 n va
  let c ← getC k
  let pa ← translate k c.level .d .store false true va
  storeSpan k va pa n v

/-- Write a trace record to the buffer, as far as it has room (R404). -/
def State.traceWrite (s : State) (k : Nat) (kind : TraceKind) (a : W64) (gap : Bool) : State :=
  match (s.core k).trace with
  | none => s
  | some t =>
    let (n, s) := s.draw
    let bytes := (Config.traceRecord n).take (t.bytes - t.used)
    let s := s.physWrite (corePlace k) (t.pa + t.used) bytes 0 1
    s.updCore k fun c => { c with trace := some { t with
      used := t.used + bytes.length, records := t.records ++ [(kind, a)], gap := gap } }

/-- Add a record to a core's trace, where one runs. In OPERATOR one M-GAP record stands for all of a stay at M (R404). -/
def State.traceNote (s : State) (k : Nat) (kind : TraceKind) (a : W64) : State :=
  match (s.core k).trace with
  | none => s
  | some t =>
    if kind = .ended then s.traceWrite k kind a t.gap
    else if s.board.security = 1 ∧ (s.core k).level = .m then (if t.gap then s else s.traceWrite k .mGap a true)
    else s.traceWrite k kind a false

/-- A core leaves M: the next stay there has an M-GAP of its own (R404). -/
def Core.leaveGap (c : Core) : Core := { c with trace := c.trace.map fun x => { x with gap := false } }

/-- The record of a return from a handler at level t, once the core has left it: in OPERATOR a return from M has none, and ends the
stay at M where it leads to another level. -/
def State.traceRet (s : State) (k : Nat) (t : Level) (a : W64) : State :=
  if s.board.security = 1 ∧ t = .m then (if (s.core k).level = .m then s else s.updCore k Core.leaveGap)
  else s.traceNote k .ret a

end Sys2Proof.Machine
end

