-- ==== Sys2Proof/Machine/Mailbox.lean ====
section
/-! DEFINITION. Mailboxes as the receiving core holds them (R61, R65, R66, R300). -/

namespace Sys2Proof.Machine
open Sys2Proof

def Core.mail (c : Core) (m : Nat) : List Msg := c.mbx.get [] m
def Core.setMail (c : Core) (m : Nat) (l : List Msg) : Core := { c with mbx := c.mbx.set [] m l }

/-- Free places of a mailbox minus those reserved for a woken sender (R300). -/
def Core.openSlots (c : Core) (m : Nat) : Nat :=
  4 - (c.mail m).length - (c.reserved.filter fun w => w.mbx == m).length

/-- An answer or a WAKE to a message's sender enters the mesh in class CONTROL, by the sender's gateway, unless it stays within its
atoll (R288, R289, R297; a WAKE DEDUCED: notes/assumptions/126). -/
def State.postBack (s : State) (k : Nat) (engine : Option Nat) (src : Nat) : State :=
  let to_ := match engine with
    | some d => enginePlace d
    | none => corePlace (s.keyOfLcore src)
  if engine.isNone && s.keyOfLcore src / 16 == k / 16 then s else s.postAt 0 (routeTo (corePlace k) (src % 4) to_)

/-- Send WAKE to the oldest waiter of a mailbox, remove it and reserve a slot for it (R300). -/
def State.wakeOldest (s : State) (k m : Nat) : State :=
  match (s.core k).waitlist.find? fun w => w.mbx == m with
  | none => s
  | some w =>
    let s := s.updCore k fun c => { c with waitlist := c.waitlist.erase w, reserved := c.reserved ++ [w] }
    ({ s with wireWakes := s.wireWakes ++ [{ sender := w.sender, engine := w.engine, dst := s.lcoreOf k, mbx := m }] } : State).postBack k
      w.engine w.sender

/-- Remove the oldest message of a mailbox, as RECV does (R58, R300). -/
def State.takeMessage (s : State) (k m : Nat) : Option Msg × State :=
  match (s.core k).mail m with
  | [] => (none, s)
  | g :: rest => (some g, (s.updCore k fun c => c.setMail m rest).wakeOldest k m)

/-- Receive and discard every message of a mailbox (R412). -/
def State.drainMailbox (s : State) (k m : Nat) : Nat → State
  | 0 => s
  | n + 1 =>
    match s.takeMessage k m with
    | (none, s) => s
    | (some _, s) => s.drainMailbox k m n

/-- Mailboxes that are not empty, as a bit mask (MBX.STAT.NONEMPTY). -/
def Core.nonEmpty (c : Core) : Nat :=
  (List.range 16).foldl (fun n m => n + (if (c.mail m).isEmpty then 0 else 2 ^ m)) 0

end Sys2Proof.Machine
end

