-- ==== Sys2Proof/Machine/Trap.lean ====
section
/-! DEFINITION. Taking an event and returning from it (R72 to R87), the shipped M firmware (R412), the boundary between
instructions (R77), hardware loops at the end of an instruction (R42 to R45), and the running of one instruction. -/

namespace Sys2Proof.Machine
open Sys2Proof

/-- Lowest handling level of a cause (R76). -/
def lowestLevel (code : Nat) : Level :=
  if code = 0x10 ∨ code = 0x11 ∨ code = 0x12 ∨ code = 0x28 then .m
  else if code = 0x04 ∨ code = 0x05 ∨ code = 0x07 ∨ (0x20 ≤ code ∧ code ≤ 0x23) then .s
  else .u

/-- The interrupts (R76). -/
def isInterrupt (code : Nat) : Bool := decide ((0x20 ≤ code ∧ code ≤ 0x23) ∨ code = 0x28)

/-- Read a gate entry as a load at the table's level (R74, R75); any failure of the load gives none. -/
def readGate (k : Nat) (t : Level) (a : W64) : M (Option Gate) :=
  tryCatch (do
    let pa ← translate k t .d .load false false a
    let h ← loadSpan k a pa 8 false
    let sp ← loadSpan k (a + 8) (pa + 8) 8 false
    let fl ← loadSpan k (a + 16) (pa + 16) 8 false
    return some { handler := w64 h, sp := w64 sp, flags := fl }) (fun _ => pure none)

/-- What the lookup of R75 finds: the handling level and its entry, or where it failed. -/
inductive Found where
  | gate (t : Level) (g : Gate)
  | bad (t : Level) (a : W64)
  deriving DecidableEq, Repr

/-- The lookup of R75, passing up at most twice. -/
def findGate (k code : Nat) : Nat → Level → M Found
  | 0, t => return .bad t 0
  | n + 1, t => do
    let c ← getC k
    if t = Level.m ∧ c.mfw then return .gate .m (firmwareGate k)
    let base := c.sr (gateBaseNo t)
    if base = 0 then return .bad t 0
    let a := base + w64 (32 * code)
    match ← readGate k t a with
    | none => return .bad t a
    | some g =>
      match Level.ofCode g.target with
      | none => return .bad t a
      | some t' =>
        if !g.valid || !t.le t' then return .bad t a
        else if t' = t then return .gate t g
        else findGate k code n t'

/-- The event behind a GATEBAD or a DOUBLE, whose DETAIL names it (R76); every other event is its own. DEDUCED for DATA0 of
0x0111 (R84): notes/assumptions/123. -/
def Event.behind (e : Event) : Nat := if e.code = 0x10 ∨ e.code = 0x11 then e.detail % 256 else e.code

/-- Which action of R412 the firmware takes at M on a core that it has entered for an event. -/
inductive FwAct where
  | halt (cause : Nat)
  | notice (detail : Nat)
  | enterS (detail : Nat)
  | mail
  | toRuntime (detail : Nat)
  deriving DecidableEq, Repr

/-- The rows of R412, on the cores whose M table is the firmware's (DESIGN CHOICE: notes/assumptions/8). A die controller or the service
core passes its machine checks on. A core at S with SAVE.S busy halts, whatever IE_S
(DEDUCED: notes/assumptions/132). -/
def firmwareAct (k : Nat) (c : Core) (e : Event) : FwAct :=
  let st := c.sr (saveBase .m + 1)
  let lvl := bitsOf st.toNat 7 6
  if e.code = 0x12 then
    if isCtl k then .toRuntime (e.ctlNotice (unitOfKey k))
    else
      let d := if e.deferred then 0x0301 else 0x0300
      if lvl = 0 then .notice d
      else if lvl = 1 ∧ !c.busy .s then (if st.getLsbD 4 then .notice d else .enterS d)
      else .halt 0x12
  else if e.code = 0x28 then .mail
  else .halt e.code

/-- Halt a core of the machine, with its trace's stop record (R84, R404). -/
def State.stopCore (s : State) (k cause evCode : Nat) (pc : W64) (injected : Bool) : State :=
  (s.traceNote k .stop pc).haltAt k cause evCode pc injected

/-- Raise an event at PC `pc`: find its handler and enter it, escalate, or halt (R75, R78, R83, R412). Answers false where
an interrupt is passed over because its handling level's save set is busy. `n` bounds the escalations. -/
def takeEvent (k : Nat) : Nat → Event → W64 → M Bool
  | 0, _, _ => return true
  | n + 1, e, pc => do
    let c ← getC k
    match ← findGate k e.code 3 (c.level.max (lowestLevel e.code)) with
    | .bad t a =>
      if t = Level.m ∨ e.code = 0x10 then
        modify fun s => s.stopCore k 0x10 e.code (s.core k).pc e.injected
        return true
      else takeEvent k n { e with code := 0x10, detail := e.code, addr := a } pc
    | .gate t g =>
      let c ← getC k
      if c.busy t then
        if isInterrupt e.code then return false
        else if t = Level.m ∨ c.busy .m then
          modify fun s => s.stopCore k (if e.code = 0x12 then 0x12 else 0x11) e.code (s.core k).pc e.injected
          return true
        else takeEvent k n { e with code := 0x11, detail := e.code + t.code * 256 } pc
      else do
        modC k fun c => (c.noteMcheck e).enter t g e pc
        modify fun s => s.traceNote k .entry (w64 e.code)
        if t = Level.m ∧ c.mfw then
          let c ← getC k
          let back : Core → Core := fun c =>
            match Level.ofCode (bitsOf (c.sr (saveBase .m + 1)).toNat 7 6) with
            | some dest => c.leave .m dest
            | none => c
          let info := fun (c : Core) =>
            c.setSr mclastNo (w64 ((c.sr mcinfoNo).toNat / 2 ^ 32 * 2 ^ 32 + e.detail % 65536))
          match firmwareAct k c e with
          | .halt cause =>
            modify fun s => s.stopCore k cause e.behind pc e.injected
            return true
          | .notice d =>
            modC k fun c => { back (info c) with notices := c.notices ++ [BitVec.ofNat 16 d] }
            modify fun s => s.traceRet k .m pc
            return true
          | .enterS d =>
            modC k fun c => back (info c)
            modify fun s => s.traceRet k .m pc
            takeEvent k n { code := 0x23, detail := d } pc
          | .mail =>
            modify fun s => (((s.drainMailbox k 14 64).drainMailbox k 15 64).updCore k back).traceRet k .m pc
            return true
          | .toRuntime d =>
            modify fun s => (s.notice mainland0 d).updCore k back
            return true
        else return true

/-- Escalations end within this many: event, DOUBLE, GATEBAD. -/
def raise (k : Nat) (e : Event) (pc : W64) : M Bool := takeEvent k 4 e pc

/-! ### What is pending (R53, R66, R73, R76, R155) -/

/-- The counter a core reads in CTR (R51). -/
def State.ctrOf (s : State) (k : Nat) : Nat :=
  if k < 576 then (s.die (k / 144)).ctr else if k < 592 then s.board.mctr
  else if k < 596 then (s.die (k - 592)).ctr else s.board.svcCtr

def cmpNo : Nat := 0x510
/-- TIMER is pending while CTR.CMP is nonzero and CTR has reached it (R53). -/
def State.timerPending (s : State) (k : Nat) : Bool :=
  let cmp := ((s.core k).sr cmpNo).toNat
  cmp != 0 && decide (cmp ≤ s.ctrOf k)

/-- Stream units that hold a STREAM interrupt: HALTED with an FCAUSE other than STOPPED (R155). -/
def Core.streamPending (c : Core) : Nat :=
  (List.range 8).foldl (fun n k =>
    let u := c.units.get {} k
    n + (if u.state = 2 ∧ u.fcause ≠ 4 then 2 ^ k else 0)) 0

/-- The interrupts pending on a core, in the order of R77: M before S, then lower code. -/
def State.pendingInts (s : State) (k : Nat) : List Event :=
  let c := s.core k
  let ne := c.nonEmpty
  let box := ne % 2 ^ 14 &&& (c.sr 0x541).toNat
  (if ne / 2 ^ 14 ≠ 0 then [{ code := 0x28, detail := ne / 2 ^ 14 }] else [])
    ++ (if s.timerPending k then [{ code := 0x20 }] else [])
    ++ (if box ≠ 0 then [{ code := 0x21, detail := box }] else [])
    ++ (if c.streamPending ≠ 0 then [{ code := 0x22, detail := c.streamPending }] else [])
    ++ (match c.notices with | d :: _ => [{ code := 0x23, detail := d.toNat }] | [] => [])

/-- R73: an interrupt may be taken at the core's level with its enables. -/
def Core.mayTake (c : Core) (e : Event) : Bool :=
  match lowestLevel e.code, c.level with
  | .m, .m => c.ieM
  | .m, _ => true
  | _, .u => true
  | _, .s => c.ieS
  | _, .m => false

/-- Take the first pending interrupt that can be taken (R73, R77, R83). Notices wait in a queue, and the oldest is no longer pending
once it has been taken, a gate lookup that failed among them (DESIGN CHOICE: notes/assumptions/133). -/
def tryInts (k : Nat) : List Event → M Bool
  | [] => return false
  | e :: l => do
    let c ← getC k
    if c.mayTake e then
      if ← raise k e c.pc then
        if e.code = 0x23 then modC k fun c => { c with notices := c.notices.tail }
        return true
      else tryInts k l
    else tryInts k l

/-- What a core has done since state `s0` has written a register: a parity error of its register file that was armed then is stored
there (R414). A write that leaves every register as it was stores none (DESIGN CHOICE: notes/assumptions/191). -/
def State.storeParity (s : State) (k : Nat) (s0 : State) : State :=
  if (s0.takeArmed (unitOfKey k) 0x0109 (s0.locOf k)).1.isNone then s
  else if (s.core k).x = (s0.core k).x ∧ (s.core k).f = (s0.core k).f ∧ (s.core k).sys = (s0.core k).sys then s
  else (s.takeArmed (unitOfKey k) 0x0109 (s0.locOf k)).2.updCore k fun c => { c with parity := true }

/-- A parity error stands in a core's register file: the core halts, cause MCHECK (R84, R409, R414). It is met at the next boundary
(DESIGN CHOICE: notes/assumptions/191). -/
def State.parityHalt (s : State) (k : Nat) : Bool × State :=
  let c := s.core k
  if !c.parity then (false, s)
  else
    let s := (s.updCore k fun c => { c with parity := false }).detect (unitOfKey k)
      { code := 0x0109, sev := 4, loc := s.locOf k, data0 := 0x1212, data1 := c.pc, data2 := w64 c.level.code, injected := true }
    (true, s.stopCore k 0x12 0x12 c.pc true)

/-- A core stops for debug (R94). -/
def debugStop (k : Nat) : M Unit := do
  modC k fun c => { c with dbgHaltReq := false, dbgHalted := true, wait := .none }
  modify fun s => s.traceNote k .stop (s.core k).pc

/-- Take the VTRAP of the instruction that has completed, where the core stands at its boundary (R77): one passed over stays pending until
the core stands there again, however it gets there (DESIGN CHOICE: notes/assumptions/195). -/
def takeVtrap (k : Nat) : M Bool := do
  let c ← getC k
  match c.vtrapDue with
  | none => return false
  | some (lv, pc, d) =>
    if c.level = lv ∧ c.pc = pc then do
      modC k fun c => { c with vtrapDue := none }
      discard <| raise k { code := 0x08, detail := d } pc
      return true
    else return false

/-- A debug halt is due at this boundary (R94, R404). -/
def Core.haltDue (c : Core) : Bool := c.dbgHaltReq && c.level == .u

/-- The boundary before an instruction (R77): a machine check, a debug halt, the VTRAP of the last instruction, an interrupt. True
where one was taken. -/
def boundary (k : Nat) : M Bool := do
  if ← modifyGet fun s => s.parityHalt k then return true
  let c ← getC k
  match mergeMchk c.mchk with
  | some e =>
    modC k fun c => { c with mchk := [] }
    discard <| raise k e c.pc
    return true
  | none =>
    if c.haltDue then
      debugStop k
      return true
    else if ← takeVtrap k then return true
    else do
      let s ← get
      tryInts k (s.pendingInts k)

/-! ### Running one instruction -/

/-- The core's power domain is on: its atoll's, its die's, the mainland die's, or the service domain (R403). -/
def State.corePowered (s : State) (k : Nat) : Bool :=
  if k < 576 then (s.die (k / 144)).up && (s.atoll (k / 16)).powered
  else if k < 592 then s.board.mainlandOn
  else if k < 596 then (s.die (k - 592)).up
  else s.board.servicePowered

/-- The clocks of the core's atoll are gated (R401). -/
def State.coreGated (s : State) (k : Nat) : Bool := isCompute k && (s.atoll (k / 16)).gated

/-- A FATAL detection has stopped the core's atoll or die (R408; DESIGN CHOICE: notes/assumptions/131). -/
def State.coreFailed (s : State) (k : Nat) : Bool := isCompute k && ((s.atoll (k / 16)).failed || (s.die (k / 144)).failed)

/-- The core issues instructions: powered, clocked, running, not debug-halted, its atoll and die not failed. -/
def State.issuing (s : State) (k : Nat) : Bool :=
  let c := s.core k
  s.corePowered k && !s.coreGated k && !s.coreFailed k && c.run == .running && !c.dbgHalted

/-- A wake event ends the gating of a core's atoll (R401). -/
def State.ungate (s : State) (k : Nat) : State :=
  if isCompute k then s.updAtoll (k / 16) fun a => { a with gated := false } else s

/-- The last instruction of an active body (R42, R43). -/
def Core.atLoopEnd (c : Core) : Bool :=
  [0, 1].any fun lv => c.loopActive lv && c.sr (loopNo lv 1) == c.pc

/-- The loop test of one level after an instruction at `e` (R42): whether it goes back to the start. -/
def Core.loopTest (c : Core) (lv : Nat) (e : W64) : Bool × Core :=
  if c.loopActive lv && c.sr (loopNo lv 1) == e then
    if 1 < c.loopCount lv then
      (true, { c.setSr (loopNo lv 2) (loopCnt true (c.loopCount lv - 1)) with pc := c.sr (loopNo lv 0) })
    else (false, c.endLoop lv)
  else (false, c)

/-- The loop test after an instruction at `e` completes (R42), inner level first. -/
def Core.loopStep (c : Core) (e : W64) : Core :=
  let r := ({ c with pc := e + 4 } : Core).loopTest 1 e
  if r.1 then r.2 else (r.2.loopTest 0 e).2

/-- A taken branch or jump from `e` to `t`: a level whose body it leaves ends; leaving the outer body ends both (R44). -/
def Core.jumpFrom (c : Core) (e t : W64) : Core :=
  let inside := fun (lv : Nat) (a : W64) =>
    decide ((c.sr (loopNo lv 0)).toNat ≤ a.toNat ∧ a.toNat ≤ (c.sr (loopNo lv 1)).toNat)
  let out := fun (lv : Nat) => c.loopActive lv && inside lv e && !inside lv t
  let c' := if out 0 then (c.endLoop 0).endLoop 1 else if out 1 then c.endLoop 1 else c
  { c' with pc := t }

/-- The event that an instruction's exception ends in: a machine check that arose meanwhile comes first, and the exception arises
again (R77); one that the instruction took itself is joined with the others (R411). -/
def State.joinMchk (s : State) (k : Nat) (e : Event) : Event × State :=
  let own : List Mchk := if e.code = 0x12 then
      [{ num := e.detail, index := e.index, addr := e.addr, deferred := e.deferred, fatal := e.fatal, injected := e.injected }] else []
  match mergeMchk (own ++ (s.core k).mchk) with
  | some e' => (e', s.updCore k fun c => { c with mchk := [] })
  | none => (e, s)

/-- One instruction at the core's PC: the exceptions of R43, its body, then the loop test, the jump or the event. True where it has
ended: it completed or raised an exception. -/
def instruction (k : Nat) (word : Nat) (ctl : Bool) (body : M Flow) : M Bool := do
  let c ← getC k
  let pc := c.pc
  let outcome : Except Err Flow ← tryCatch
    (do
      if ctl && c.atLoopEnd then illegal (BitVec.ofNat 32 word)
      let f ← body
      return .ok f)
    (fun e => return .error e)
  match outcome with
  | .ok .next => do
    modC k fun c => c.loopStep pc
    return true
  | .ok (.vtrap d) => do
    modC k fun c => c.loopStep pc
    modC k fun c => { c with vtrapDue := some (c.level, c.pc, d) }
    let c ← getC k
    if c.mchk.isEmpty && !c.haltDue then discard <| takeVtrap k
    return true
  | .ok (.jump t) => do
    modC k fun c => c.jumpFrom pc t
    modify fun s => s.traceNote k .branch t
    return true
  | .ok .done => return true
  | .error (.exc e) => do
    let e ← modifyGet fun s => s.joinMchk k e
    discard <| raise k e pc
    return true
  | .error .stall => return false
  | .error (.refuse r) => throw (.refuse r)

/-- After an instruction that was to end a single step: where it has ended, the core halts at its next boundary at U, which is this
one unless an event has been taken or a machine check waits (R77, R94). -/
def endStep (k : Nat) (ended asked : Bool) : M Unit :=
  if ended then do
    modC k fun c => { c with dbgStep := false }
    let c ← getC k
    if c.haltDue && c.mchk.isEmpty then debugStop k else pure ()
  else modC k fun c => { c with dbgHaltReq := asked }

/-- An instruction, with the single step that it may end: a step is of a U instruction (R94, R404). -/
def stepped (k : Nat) (word : Nat) (ctl : Bool) (body : M Flow) : M Unit := do
  let c ← getC k
  if c.dbgStep && c.level == .u then do
    modC k fun c => { c with dbgHaltReq := true }
    let ended ← instruction k word ctl body
    endStep k ended c.dbgHaltReq
  else discard <| instruction k word ctl body

/-- The outcome of a meaning. -/
def finish {α : Type} : EStateM.Result Err State α → Host.Outcome State Fault Refusal
  | .ok _ s => .next s
  | .error (.refuse r) _ => .refused r
  | .error _ s => .next s

/-- The outcome of what core k did from state s, with the parity error that it stored. -/
def parityAfter (k : Nat) (s : State) : Host.Outcome State Fault Refusal → Host.Outcome State Fault Refusal
  | .next t => .next (t.storeParity k s)
  | o => o

/-- Run an instruction command on a core: a core that does not issue, or that waits, is left as it is; an event ready at the
boundary is taken instead (R77); otherwise the instruction runs. -/
def runInstr (c : CoreId) (word : Nat) (ctl : Bool) (body : M Flow) (s : State) : Host.Outcome State Fault Refusal :=
  let k := coreKey c
  if s.issuing k && (s.core k).wait == .none then
    parityAfter k s (finish ((do if ← boundary k then pure () else stepped k word ctl body : M Unit).run s))
  else .next s

/-- An event command on a core that changes the state with no boundary of its own. -/
def runEvent (body : M Unit) (s : State) : Host.Outcome State Fault Refusal := finish (body.run s)

/-- An interrupt that R73 would take is pending: it ungates the core's atoll (R401). -/
def State.intWakes (s : State) (k : Nat) : Bool := (s.pendingInts k).any fun e => (s.core k).mayTake e

/-- The boundary of a core, with no instruction: interrupts wait to be taken here, from a wait too (R59, R77, R153). -/
def execTakeInterrupt (c : CoreId) (s : State) : Host.Outcome State Fault Refusal :=
  let k := coreKey c
  let s := if s.coreGated k && s.intWakes k then s.ungate k else s
  if s.issuing k then parityAfter k s (runEvent (do discard <| boundary k) s) else .next s

end Sys2Proof.Machine
end

