-- ==== Sys2Proof/Machine/Scalar.lean ====
section
/-! DEFINITION. The scalar instructions: integer ALU, immediates, FP32, loads and stores, control flow and loops (R25 to R47). -/

namespace Sys2Proof.Machine
open Sys2Proof

/-! ### Operand forms -/

/-- An instruction that writes x[d] from x[a] and x[b]. -/
def aluOp (c : CoreId) (word : Nat) (d a b : Reg) (g : W64 → W64 → W64) (s : State) : Host.Outcome State Fault Refusal :=
  runInstr c word false (do
    let r ← getC (coreKey c)
    modC (coreKey c) fun x => x.wx d (g (r.rx a) (r.rx b))
    return .next) s

/-- A unary form, whose b field must be x0 (R30). -/
def aluUnary (c : CoreId) (word : Nat) (d a b : Reg) (g : W64 → W64) (s : State) : Host.Outcome State Fault Refusal :=
  runInstr c word false (do
    if b ≠ 0 then illegal (BitVec.ofNat 32 word)
    let r ← getC (coreKey c)
    modC (coreKey c) fun x => x.wx d (g (r.rx a))
    return .next) s

/-- An instruction that writes x[d] from x[a], x[d] and an immediate. -/
def aluImm (c : CoreId) (word : Nat) (d a : Reg) (g : W64 → W64 → W64) (s : State) : Host.Outcome State Fault Refusal :=
  runInstr c word false (do
    let r ← getC (coreKey c)
    modC (coreKey c) fun x => x.wx d (g (r.rx a) (r.rx d))
    return .next) s

def b64 (b : Bool) : W64 := if b then 1 else 0
/-- A shift amount: bits [5:0] (R30). -/
def sh6 (b : W64) : Nat := b.toNat % 64

def clz64 (a : W64) : W64 := w64 (if a = 0 then 64 else 63 - Nat.log2 a.toNat)
def popc64 (a : W64) : W64 := w64 ((List.range 64).foldl (fun n i => n + b2n (a.getLsbD i)) 0)
/-- High 64 bits of a product of integers. -/
def high64 (p : Int) : W64 := w64i (p / 2 ^ 64)

/-- Integer division, rounded toward zero; 0 for a zero divisor (R31). -/
def divS (a b : W64) : W64 := w64i (if b = 0 then 0 else Int.tdiv a.toInt b.toInt)
def remS (a b : W64) : W64 := w64i (if b = 0 then a.toInt else Int.tmod a.toInt b.toInt)
def divU (a b : W64) : W64 := w64 (a.toNat / b.toNat)
def remU (a b : W64) : W64 := w64 (a.toNat % b.toNat)

/-- a + b modulo 2^64 (R30). -/
def execAdd (c : CoreId) (d a b : Reg) (s : State) : Host.Outcome State Fault Refusal :=
  aluOp c (instrWord (.add c d a b)) d a b (fun a b => a + b) s

/-- a − b modulo 2^64 (R30). -/
def execSub (c : CoreId) (d a b : Reg) (s : State) : Host.Outcome State Fault Refusal :=
  aluOp c (instrWord (.sub c d a b)) d a b (fun a b => a - b) s

/-- a & b (R30). -/
def execAnd (c : CoreId) (d a b : Reg) (s : State) : Host.Outcome State Fault Refusal :=
  aluOp c (instrWord (.and c d a b)) d a b (fun a b => a &&& b) s

/-- a | b (R30). -/
def execOr (c : CoreId) (d a b : Reg) (s : State) : Host.Outcome State Fault Refusal :=
  aluOp c (instrWord (.or c d a b)) d a b (fun a b => a ||| b) s

/-- a ^ b (R30). -/
def execXor (c : CoreId) (d a b : Reg) (s : State) : Host.Outcome State Fault Refusal :=
  aluOp c (instrWord (.xor c d a b)) d a b (fun a b => a ^^^ b) s

/-- a << b[5:0] (R30). -/
def execSll (c : CoreId) (d a b : Reg) (s : State) : Host.Outcome State Fault Refusal :=
  aluOp c (instrWord (.sll c d a b)) d a b (fun a b => a <<< sh6 b) s

/-- a >> b[5:0], zero fill (R30). -/
def execSrl (c : CoreId) (d a b : Reg) (s : State) : Host.Outcome State Fault Refusal :=
  aluOp c (instrWord (.srl c d a b)) d a b (fun a b => a >>> sh6 b) s

/-- a >> b[5:0], sign fill (R30). -/
def execSra (c : CoreId) (d a b : Reg) (s : State) : Host.Outcome State Fault Refusal :=
  aluOp c (instrWord (.sra c d a b)) d a b (fun a b => a.sshiftRight (sh6 b)) s

/-- 1 if a < b signed, else 0 (R30). -/
def execSlt (c : CoreId) (d a b : Reg) (s : State) : Host.Outcome State Fault Refusal :=
  aluOp c (instrWord (.slt c d a b)) d a b (fun a b => b64 (a.slt b)) s

/-- 1 if a < b unsigned, else 0 (R30). -/
def execSltu (c : CoreId) (d a b : Reg) (s : State) : Host.Outcome State Fault Refusal :=
  aluOp c (instrWord (.sltu c d a b)) d a b (fun a b => b64 (a.ult b)) s

/-- Signed minimum (R30). -/
def execMin (c : CoreId) (d a b : Reg) (s : State) : Host.Outcome State Fault Refusal :=
  aluOp c (instrWord (.min c d a b)) d a b (fun a b => if b.slt a then b else a) s

/-- Signed maximum (R30). -/
def execMax (c : CoreId) (d a b : Reg) (s : State) : Host.Outcome State Fault Refusal :=
  aluOp c (instrWord (.max c d a b)) d a b (fun a b => if a.slt b then b else a) s

/-- Unsigned minimum (R30). -/
def execMinu (c : CoreId) (d a b : Reg) (s : State) : Host.Outcome State Fault Refusal :=
  aluOp c (instrWord (.minu c d a b)) d a b (fun a b => if b.ult a then b else a) s

/-- Unsigned maximum (R30). -/
def execMaxu (c : CoreId) (d a b : Reg) (s : State) : Host.Outcome State Fault Refusal :=
  aluOp c (instrWord (.maxu c d a b)) d a b (fun a b => if a.ult b then b else a) s

/-- Count of leading zeros; b must be x0 (R30). -/
def execClz (c : CoreId) (d a b : Reg) (s : State) : Host.Outcome State Fault Refusal :=
  aluUnary c (instrWord (.clz c d a b)) d a b clz64 s

/-- Count of one bits; b must be x0 (R30). -/
def execPopc (c : CoreId) (d a b : Reg) (s : State) : Host.Outcome State Fault Refusal :=
  aluUnary c (instrWord (.popc c d a b)) d a b popc64 s

/-- Low 32 bits of a + b, sign-extended (R30). -/
def execAddw (c : CoreId) (d a b : Reg) (s : State) : Host.Outcome State Fault Refusal :=
  aluOp c (instrWord (.addw c d a b)) d a b (fun a b => sext64 ((a + b).setWidth 32 : W32)) s

/-- Low 64 bits of a × b (R30). -/
def execMul (c : CoreId) (d a b : Reg) (s : State) : Host.Outcome State Fault Refusal :=
  aluOp c (instrWord (.mul c d a b)) d a b (fun a b => a * b) s

/-- High 64 bits of signed a × b (R30). -/
def execMulh (c : CoreId) (d a b : Reg) (s : State) : Host.Outcome State Fault Refusal :=
  aluOp c (instrWord (.mulh c d a b)) d a b (fun a b => high64 (a.toInt * b.toInt)) s

/-- High 64 bits of unsigned a × b (R30). -/
def execMulhu (c : CoreId) (d a b : Reg) (s : State) : Host.Outcome State Fault Refusal :=
  aluOp c (instrWord (.mulhu c d a b)) d a b (fun a b => high64 ((a.toNat * b.toNat : Nat) : Int)) s

/-- Signed quotient (R30, R31). -/
def execDiv (c : CoreId) (d a b : Reg) (s : State) : Host.Outcome State Fault Refusal :=
  aluOp c (instrWord (.div c d a b)) d a b divS s

/-- Unsigned quotient (R30, R31). -/
def execDivu (c : CoreId) (d a b : Reg) (s : State) : Host.Outcome State Fault Refusal :=
  aluOp c (instrWord (.divu c d a b)) d a b divU s

/-- Signed remainder (R30, R31). -/
def execRem (c : CoreId) (d a b : Reg) (s : State) : Host.Outcome State Fault Refusal :=
  aluOp c (instrWord (.rem c d a b)) d a b remS s

/-- Unsigned remainder (R30, R31). -/
def execRemu (c : CoreId) (d a b : Reg) (s : State) : Host.Outcome State Fault Refusal :=
  aluOp c (instrWord (.remu c d a b)) d a b remU s

/-! ### Immediates (R28, R31, R32) -/

/-- x[a] + the sign-extended immediate. -/
def execAddi (c : CoreId) (d a : Reg) (imm : BitVec 16) (s : State) : Host.Outcome State Fault Refusal :=
  aluImm c (instrWord (.addi c d a imm)) d a (fun a _ => a + sext64 imm) s

/-- x[a] & the zero-extended immediate. -/
def execAndi (c : CoreId) (d a : Reg) (imm : BitVec 16) (s : State) : Host.Outcome State Fault Refusal :=
  aluImm c (instrWord (.andi c d a imm)) d a (fun a _ => a &&& zext64 imm) s

/-- x[a] | the zero-extended immediate. -/
def execOri (c : CoreId) (d a : Reg) (imm : BitVec 16) (s : State) : Host.Outcome State Fault Refusal :=
  aluImm c (instrWord (.ori c d a imm)) d a (fun a _ => a ||| zext64 imm) s

/-- x[a] ^ the zero-extended immediate. -/
def execXori (c : CoreId) (d a : Reg) (imm : BitVec 16) (s : State) : Host.Outcome State Fault Refusal :=
  aluImm c (instrWord (.xori c d a imm)) d a (fun a _ => a ^^^ zext64 imm) s

/-- 1 if x[a] is below the sign-extended immediate, signed. -/
def execSlti (c : CoreId) (d a : Reg) (imm : BitVec 16) (s : State) : Host.Outcome State Fault Refusal :=
  aluImm c (instrWord (.slti c d a imm)) d a (fun a _ => b64 (a.slt (sext64 imm))) s

/-- A shift immediate: a nonzero bit in imm16[15:8] raises ILLEGAL (R31). -/
def shiftImm (c : CoreId) (word : Nat) (d a : Reg) (hi : BitVec 8) (g : W64 → W64) (s : State) :
    Host.Outcome State Fault Refusal :=
  runInstr c word false (do
    if hi ≠ 0 then illegal (BitVec.ofNat 32 word)
    let r ← getC (coreKey c)
    modC (coreKey c) fun x => x.wx d (g (r.rx a))
    return .next) s

/-- Shift immediate (R31). -/
def execSlli (c : CoreId) (d a : Reg) (hi : BitVec 8) (sh : BitVec 6) (s : State) : Host.Outcome State Fault Refusal :=
  shiftImm c (instrWord (.slli c d a hi sh)) d a hi (fun a => a <<< sh.toNat) s

/-- Shift immediate (R31). -/
def execSrli (c : CoreId) (d a : Reg) (hi : BitVec 8) (sh : BitVec 6) (s : State) : Host.Outcome State Fault Refusal :=
  shiftImm c (instrWord (.srli c d a hi sh)) d a hi (fun a => a >>> sh.toNat) s

/-- Shift immediate (R31). -/
def execSrai (c : CoreId) (d a : Reg) (hi : BitVec 8) (sh : BitVec 6) (s : State) : Host.Outcome State Fault Refusal :=
  shiftImm c (instrWord (.srai c d a hi sh)) d a hi (fun a => a.sshiftRight sh.toNat) s

/-- LIZ and LIK: the immediate goes to bits [16q+15:16q], q = a[1:0]; a[4:2] must be 0 (R32). -/
def loadImm (c : CoreId) (word : Nat) (d a : Reg) (imm : BitVec 16) (keep : Bool) (s : State) :
    Host.Outcome State Fault Refusal :=
  runInstr c word false (do
    if 4 ≤ a.toNat then illegal (BitVec.ofNat 32 word)
    let r ← getC (coreKey c)
    let q := 16 * (a.toNat % 4)
    let old := if keep then r.rx d &&& ~~~((0xFFFF : W64) <<< q) else 0
    modC (coreKey c) fun x => x.wx d (old ||| (zext64 imm <<< q))
    return .next) s

/-- LIZ clears the other bits (R32). -/
def execLiz (c : CoreId) (d a : Reg) (imm : BitVec 16) (s : State) : Host.Outcome State Fault Refusal :=
  loadImm c (instrWord (.liz c d a imm)) d a imm false s

/-- LIK keeps the other bits (R32). -/
def execLik (c : CoreId) (d a : Reg) (imm : BitVec 16) (s : State) : Host.Outcome State Fault Refusal :=
  loadImm c (instrWord (.lik c d a imm)) d a imm true s

/-! ### Scalar FP32 (R36, R37) -/

def fflagsNo : Nat := 0x040
def Core.frm (c : Core) : RMode := bitsOf (c.sr fflagsNo).toNat 7 6
/-- OR flags into FFLAGS (R37). -/
def Core.orFflags (c : Core) (f : Flags) : Core := c.setSr fflagsNo (c.sr fflagsNo ||| zext64 f)

/-- An instruction whose FP32 result and flags come from f[d], f[a] and f[b] under FFLAGS.RM. -/
def fpOp (c : CoreId) (word : Nat) (d a b : Reg) (g : RMode → FV → FV → FV → FV × Flags) (s : State) :
    Host.Outcome State Fault Refusal :=
  runInstr c word false (do
    let r ← getC (coreKey c)
    let res := fpEnc r.frm (g r.frm (fpDec (r.rf d).toNat) (fpDec (r.rf a).toNat) (fpDec (r.rf b).toNat))
    modC (coreKey c) fun x => (x.wf d (BitVec.ofNat 32 res.1)).orFflags res.2
    return .next) s

/-- An instruction that writes x[d] and flags. -/
def fpToX (c : CoreId) (word : Nat) (d : Reg) (g : Core → W64 × Flags) (s : State) : Host.Outcome State Fault Refusal :=
  runInstr c word false (do
    modC (coreKey c) fun x => let r := g x; (x.wx d r.1).orFflags r.2
    return .next) s

/-- An instruction that writes f[d] and flags. -/
def xToFp (c : CoreId) (word : Nat) (d : Reg) (g : Core → W32 × Flags) (s : State) : Host.Outcome State Fault Refusal :=
  runInstr c word false (do
    modC (coreKey c) fun x => let r := g x; (x.wf d r.1).orFflags r.2
    return .next) s

/-- NV of an ordered compare with a NaN (R206). -/
def nanFlag (a b : FV) : Flags := if a.isNan || b.isNan then flNV else 0

/-- f[a] + f[b] (R36). -/
def execFadd (c : CoreId) (d a b : Reg) (s : State) : Host.Outcome State Fault Refusal :=
  fpOp c (instrWord (.fadd c d a b)) d a b (fun m _ a b => fvAdd m a b) s

/-- f[a] − f[b] (R36). -/
def execFsub (c : CoreId) (d a b : Reg) (s : State) : Host.Outcome State Fault Refusal :=
  fpOp c (instrWord (.fsub c d a b)) d a b (fun m _ a b => fvAdd m a b.negate) s

/-- f[a] × f[b] (R36). -/
def execFmul (c : CoreId) (d a b : Reg) (s : State) : Host.Outcome State Fault Refusal :=
  fpOp c (instrWord (.fmul c d a b)) d a b (fun _ _ a b => fvMul a b) s

/-- f[a] ÷ f[b] (R36, R206). -/
def execFdiv (c : CoreId) (d a b : Reg) (s : State) : Host.Outcome State Fault Refusal :=
  fpOp c (instrWord (.fdiv c d a b)) d a b (fun _ _ a b => fvDiv a b) s

/-- √f[a]; b must be 0 (R36, R206). -/
def execFsqrt (c : CoreId) (d a b : Reg) (s : State) : Host.Outcome State Fault Refusal :=
  runInstr c (instrWord (.fsqrt c d a b)) false (do
    if b ≠ 0 then illegal (BitVec.ofNat 32 (instrWord (.fsqrt c d a b)))
    let r ← getC (coreKey c)
    let res := fpEnc r.frm (fvSqrt (fpDec (r.rf a).toNat))
    modC (coreKey c) fun x => (x.wf d (BitVec.ofNat 32 res.1)).orFflags res.2
    return .next) s

/-- Minimum (R36, R206). -/
def execFmin (c : CoreId) (d a b : Reg) (s : State) : Host.Outcome State Fault Refusal :=
  fpOp c (instrWord (.fmin c d a b)) d a b (fun _ _ a b => (fvMin a b, 0)) s

/-- Maximum (R36, R206). -/
def execFmax (c : CoreId) (d a b : Reg) (s : State) : Host.Outcome State Fault Refusal :=
  fpOp c (instrWord (.fmax c d a b)) d a b (fun _ _ a b => (fvMax a b, 0)) s

/-- f[d] + f[a] × f[b], rounded once (R36). -/
def execFma (c : CoreId) (d a b : Reg) (s : State) : Host.Outcome State Fault Refusal :=
  fpOp c (instrWord (.fma c d a b)) d a b (fun m d a b => fvFma m d a b) s

/-- f[a] to signed 64-bit, saturating (R36, R205). -/
def execFcvtW (c : CoreId) (d a b : Reg) (s : State) : Host.Outcome State Fault Refusal :=
  fpToX c (instrWord (.fcvtW c d a b)) d
    (fun x => let r := encodeInt 64 x.frm (fpDec (x.rf a).toNat); (w64 r.1, r.2)) s

/-- Signed x[a] to FP32 (R36). -/
def execFcvtF (c : CoreId) (d a b : Reg) (s : State) : Host.Outcome State Fault Refusal :=
  xToFp c (instrWord (.fcvtF c d a b)) d
    (fun x => let r := fmtFp32.encode x.frm (.ofInt (x.rx a).toInt); (BitVec.ofNat 32 r.1, r.2)) s

/-- Sign-extended bits of f[a] (R36). -/
def execFmvX (c : CoreId) (d a b : Reg) (s : State) : Host.Outcome State Fault Refusal :=
  fpToX c (instrWord (.fmvX c d a b)) d (fun x => (sext64 (x.rf a), 0)) s

/-- Bits x[a][31:0] (R36). -/
def execFmvF (c : CoreId) (d a b : Reg) (s : State) : Host.Outcome State Fault Refusal :=
  xToFp c (instrWord (.fmvF c d a b)) d (fun x => ((x.rx a).setWidth 32, 0)) s

/-- 1 if f[a] = f[b]; a NaN gives 0 and no flag (R36, R206). -/
def execFeq (c : CoreId) (d a b : Reg) (s : State) : Host.Outcome State Fault Refusal :=
  fpToX c (instrWord (.feq c d a b)) d (fun x =>
    let p := fpDec (x.rf a).toNat; let q := fpDec (x.rf b).toNat
    (b64 (!p.isNan && !q.isNan && fvCmp p q == 0), 0)) s

/-- 1 if f[a] < f[b]; a NaN gives 0 and NV (R36, R206). -/
def execFlt (c : CoreId) (d a b : Reg) (s : State) : Host.Outcome State Fault Refusal :=
  fpToX c (instrWord (.flt c d a b)) d (fun x =>
    let p := fpDec (x.rf a).toNat; let q := fpDec (x.rf b).toNat
    (b64 (!p.isNan && !q.isNan && fvCmp p q == -1), nanFlag p q)) s

/-! ### Loads and stores (R33) -/

/-- A load of n bytes into x[d]. -/
def loadX (c : CoreId) (word : Nat) (d a : Reg) (imm : BitVec 16) (n : Nat) (sx : Bool) (s : State) :
    Host.Outcome State Fault Refusal :=
  runInstr c word false (do
    let r ← getC (coreKey c)
    let v ← scalarLoad (coreKey c) (r.rx a + sext64 imm) n
    modC (coreKey c) fun x => x.wx d (if sx then w64i (signed (8 * n) v) else w64 v)
    return .next) s

/-- A store of the low n bytes of a register. -/
def storeX (c : CoreId) (word : Nat) (a : Reg) (imm : BitVec 16) (n : Nat) (v : Core → Nat) (s : State) :
    Host.Outcome State Fault Refusal :=
  runInstr c word false (do
    let r ← getC (coreKey c)
    scalarStore (coreKey c) (r.rx a + sext64 imm) n (v r)
    return .next) s

/-- Load 8 bits, sign-extended (R33). -/
def execLb (c : CoreId) (d a : Reg) (imm : BitVec 16) (s : State) : Host.Outcome State Fault Refusal :=
  loadX c (instrWord (.lb c d a imm)) d a imm 1 true s

/-- Load 8 bits, zero-extended (R33). -/
def execLbu (c : CoreId) (d a : Reg) (imm : BitVec 16) (s : State) : Host.Outcome State Fault Refusal :=
  loadX c (instrWord (.lbu c d a imm)) d a imm 1 false s

/-- Load 16 bits, sign-extended (R33). -/
def execLh (c : CoreId) (d a : Reg) (imm : BitVec 16) (s : State) : Host.Outcome State Fault Refusal :=
  loadX c (instrWord (.lh c d a imm)) d a imm 2 true s

/-- Load 16 bits, zero-extended (R33). -/
def execLhu (c : CoreId) (d a : Reg) (imm : BitVec 16) (s : State) : Host.Outcome State Fault Refusal :=
  loadX c (instrWord (.lhu c d a imm)) d a imm 2 false s

/-- Load 32 bits, sign-extended (R33). -/
def execLw (c : CoreId) (d a : Reg) (imm : BitVec 16) (s : State) : Host.Outcome State Fault Refusal :=
  loadX c (instrWord (.lw c d a imm)) d a imm 4 true s

/-- Load 32 bits, zero-extended (R33). -/
def execLwu (c : CoreId) (d a : Reg) (imm : BitVec 16) (s : State) : Host.Outcome State Fault Refusal :=
  loadX c (instrWord (.lwu c d a imm)) d a imm 4 false s

/-- Load 64 bits (R33). -/
def execLd (c : CoreId) (d a : Reg) (imm : BitVec 16) (s : State) : Host.Outcome State Fault Refusal :=
  loadX c (instrWord (.ld c d a imm)) d a imm 8 false s

/-- Load an f register (R33). -/
def execFlw (c : CoreId) (d a : Reg) (imm : BitVec 16) (s : State) : Host.Outcome State Fault Refusal :=
  runInstr c (instrWord (.flw c d a imm)) false (do
    let r ← getC (coreKey c)
    let v ← scalarLoad (coreKey c) (r.rx a + sext64 imm) 4
    modC (coreKey c) fun x => x.wf d (BitVec.ofNat 32 v)
    return .next) s

/-- Store 8 bits (R33). -/
def execSb (c : CoreId) (r a : Reg) (imm : BitVec 16) (s : State) : Host.Outcome State Fault Refusal :=
  storeX c (instrWord (.sb c r a imm)) a imm 1 (fun x => (x.rx r).toNat) s

/-- Store 16 bits (R33). -/
def execSh (c : CoreId) (r a : Reg) (imm : BitVec 16) (s : State) : Host.Outcome State Fault Refusal :=
  storeX c (instrWord (.sh c r a imm)) a imm 2 (fun x => (x.rx r).toNat) s

/-- Store 32 bits (R33). -/
def execSw (c : CoreId) (r a : Reg) (imm : BitVec 16) (s : State) : Host.Outcome State Fault Refusal :=
  storeX c (instrWord (.sw c r a imm)) a imm 4 (fun x => (x.rx r).toNat) s

/-- Store 64 bits (R33). -/
def execSd (c : CoreId) (r a : Reg) (imm : BitVec 16) (s : State) : Host.Outcome State Fault Refusal :=
  storeX c (instrWord (.sd c r a imm)) a imm 8 (fun x => (x.rx r).toNat) s

/-- Store an f register (R33). -/
def execFsw (c : CoreId) (r a : Reg) (imm : BitVec 16) (s : State) : Host.Outcome State Fault Refusal :=
  storeX c (instrWord (.fsw c r a imm)) a imm 4 (fun x => (x.rf r).toNat) s

/-! ### Control flow (R27, R28, R35, R44) -/

/-- The target of a branch or jump: PC + 4 × the offset (R27). -/
def relTarget {n : Nat} (pc : W64) (off : BitVec n) : W64 := pc + (sext64 off <<< 2)

/-- A conditional branch. -/
def branch (c : CoreId) (word : Nat) (a b : Reg) (off : BitVec 16) (cond : W64 → W64 → Bool) (s : State) :
    Host.Outcome State Fault Refusal :=
  runInstr c word true (do
    let r ← getC (coreKey c)
    return if cond (r.rx a) (r.rx b) then .jump (relTarget r.pc off) else .next) s

/-- Branch if equal (R28). -/
def execBeq (c : CoreId) (a b : Reg) (off : BitVec 16) (s : State) : Host.Outcome State Fault Refusal :=
  branch c (instrWord (.beq c a b off)) a b off (fun x y => x == y) s

/-- Branch if not equal (R28). -/
def execBne (c : CoreId) (a b : Reg) (off : BitVec 16) (s : State) : Host.Outcome State Fault Refusal :=
  branch c (instrWord (.bne c a b off)) a b off (fun x y => x != y) s

/-- Branch if below, signed (R28). -/
def execBlt (c : CoreId) (a b : Reg) (off : BitVec 16) (s : State) : Host.Outcome State Fault Refusal :=
  branch c (instrWord (.blt c a b off)) a b off (fun x y => x.slt y) s

/-- Branch if not below, signed (R28). -/
def execBge (c : CoreId) (a b : Reg) (off : BitVec 16) (s : State) : Host.Outcome State Fault Refusal :=
  branch c (instrWord (.bge c a b off)) a b off (fun x y => !x.slt y) s

/-- Branch if below, unsigned (R28). -/
def execBltu (c : CoreId) (a b : Reg) (off : BitVec 16) (s : State) : Host.Outcome State Fault Refusal :=
  branch c (instrWord (.bltu c a b off)) a b off (fun x y => x.ult y) s

/-- Branch if not below, unsigned (R28). -/
def execBgeu (c : CoreId) (a b : Reg) (off : BitVec 16) (s : State) : Host.Outcome State Fault Refusal :=
  branch c (instrWord (.bgeu c a b off)) a b off (fun x y => !x.ult y) s

/-- Go to PC + 4 × off26. -/
def execJmp (c : CoreId) (off : BitVec 26) (s : State) : Host.Outcome State Fault Refusal :=
  runInstr c (instrWord (.jmp c off)) true (do
    let r ← getC (coreKey c)
    return .jump (relTarget r.pc off)) s

/-- As JMP, with the return address in x1 (R26). -/
def execCall (c : CoreId) (off : BitVec 26) (s : State) : Host.Outcome State Fault Refusal :=
  runInstr c (instrWord (.call c off)) true (do
    let r ← getC (coreKey c)
    modC (coreKey c) fun x => x.wx 1 (r.pc + 4)
    return .jump (relTarget r.pc off)) s

/-- Write PC + 4 into x[d] and go to x[a] + imm; a target with bits [1:0] not 0 raises MISALIGN (R35). -/
def execJr (c : CoreId) (d a : Reg) (imm : BitVec 16) (s : State) : Host.Outcome State Fault Refusal :=
  runInstr c (instrWord (.jr c d a imm)) true (do
    let r ← getC (coreKey c)
    let t := r.rx a + sext64 imm
    if t &&& 3 ≠ 0 then trap 0x03 4 t
    modC (coreKey c) fun x => x.wx d (r.pc + 4)
    return .jump t) s

/-! ### Hardware loops (R41, R42) -/

/-- LOOP and LOOPI with body length n and count (R42). -/
def loopBody (k : Nat) (word : Nat) (n count : Nat) : M Flow := do
  let c ← getC k
  let p := c.pc
  let last := p + w64 (4 * n)
  if n = 0 then
    modC k fun c => { c with pc := p + 4 }
    return .done
  else if count = 0 then
    modC k fun c => { c with pc := last + 4 }
    return .done
  else do
    if c.loopActive 0 && c.loopActive 1 then illegal (BitVec.ofNat 32 word)
    let lv := if c.loopActive 0 then 1 else 0
    if lv = 1 ∧ (c.sr (loopNo 0 1)).toNat < last.toNat then illegal (BitVec.ofNat 32 word)
    modC k fun c =>
      let c := ((c.setSr (loopNo lv 0) (p + 4)).setSr (loopNo lv 1) last).setSr (loopNo lv 2) (loopCnt true count)
      { c with pc := p + 4 }
    return .done

/-- LOOP: count from x[a][31:0] (R41). -/
def execLoop (c : CoreId) (a : Reg) (n : BitVec 12) (s : State) : Host.Outcome State Fault Refusal :=
  runInstr c (instrWord (.loop c a n)) true (do
    let r ← getC (coreKey c)
    loopBody (coreKey c) (instrWord (.loop c a n)) n.toNat ((r.rx a).toNat % 2 ^ 32)) s

/-- LOOPI: count from the field (R41). -/
def execLoopi (c : CoreId) (count : BitVec 14) (n : BitVec 12) (s : State) : Host.Outcome State Fault Refusal :=
  runInstr c (instrWord (.loopi c count n)) true
    (loopBody (coreKey c) (instrWord (.loopi c count n)) n.toNat count.toNat) s

/-! ### Gate calls and returns (R76, R79, R80) -/

/-- GATE k: event 0x80 + k, with SAVE.PC the next instruction (R76, R80). -/
def execGate (c : CoreId) (k : BitVec 7) (s : State) : Host.Outcome State Fault Refusal :=
  runInstr c (instrWord (.gate c k)) true (do
    let r ← getC (coreKey c)
    discard <| raise (coreKey c) { code := 0x80 + k.toNat } (r.pc + 4)
    return .done) s

/-- A return from level t (R79). -/
def returnFrom (c : CoreId) (word : Nat) (t : Level) (s : State) : Host.Outcome State Fault Refusal :=
  runInstr c word true (do
    let r ← getC (coreKey c)
    if r.level.code < t.code then privilege (BitVec.ofNat 32 word)
    if t.code < r.level.code then illegal (BitVec.ofNat 32 word)
    let lv := bitsOf (r.sr (saveBase t + 1)).toNat 7 6
    match Level.ofCode lv with
    | none => illegal (BitVec.ofNat 32 word)
    | some dest =>
      if t.code < lv then illegal (BitVec.ofNat 32 word)
      modC (coreKey c) fun x => x.leave t dest
      modify fun s => s.traceRet (coreKey c) t (r.sr (saveBase t))
      return .done) s

/-- Return from a handler at U (R79). -/
def execCret (c : CoreId) (s : State) : Host.Outcome State Fault Refusal :=
  returnFrom c (instrWord (.cret c)) .u s

/-- Return from a handler at S (R79). -/
def execSret (c : CoreId) (s : State) : Host.Outcome State Fault Refusal :=
  returnFrom c (instrWord (.sret c)) .s s

/-- Return from a handler at M (R79). -/
def execMret (c : CoreId) (s : State) : Host.Outcome State Fault Refusal :=
  returnFrom c (instrWord (.mret c)) .m s

/-- A word of a reserved encoding, or with a nonzero field that must be 0, raises ILLEGAL (R27, R28). A word that an
instruction's layout gives is no such event, and nothing happens. -/
def execReservedOpcode (c : CoreId) (w : W32) (s : State) : Host.Outcome State Fault Refusal :=
  if reservedWord w then runInstr c w.toNat false (illegal w) s else .next s

end Sys2Proof.Machine
end

