-- ==== Sys2Proof/Machine/Fence.lean ====
section
/-! DEFINITION. Fences, CWB and CINV, DEAD and IFENCE (R246 to R263). The task boundary is in Task. -/

namespace Sys2Proof.Machine
open Sys2Proof

/-! ### Whole-cache passes (R248, R254) -/

/-- Keys of a core's valid L1 lines; a line in a window with PRIV set is left out unless `all`. -/
def Core.l1Lines (c : Core) (all : Bool) : List Nat :=
  (c.l1.filter fun e => e.2.valid && (all || match c.l1winOf (e.2.vline * 128) with
    | some w => !(c.l1win w).priv
    | none => true)).map (·.1)

/-- Keys of a lagoon's valid lines; a line in a window with PRIV set is left out unless `all`. -/
def Atoll.lagLines (a : Atoll) (all : Bool) : List Nat :=
  (a.lag.filter fun e => e.2.valid && (all || match a.lagwinOf (e.2.line * 128) with
    | some w => !(a.lagwin w).priv
    | none => true)).map (·.1)

/-- Write back the dirty bytes of L1 lines; they stay, clean. -/
def State.l1Release (s : State) (k : Nat) (keys : List Nat) : State := keys.foldl (fun s i => s.l1WriteBack k i) s
/-- Invalidate L1 lines. -/
def State.l1Drop (s : State) (k : Nat) (keys : List Nat) : State :=
  s.updCore k fun c => keys.foldl (fun c i => c.setL1 i {}) c
/-- Write back dirty lagoon lines, in the class of fence write-backs, for a stream's notice, ATOLL_OFFLINE and P3 too
(DESIGN CHOICE: notes/assumptions/187); lines marked dead are dropped. -/
def State.lagRelease (s : State) (a : Nat) (keys : List Nat) (who : Finder) : State :=
  keys.foldl (fun s i => s.lagWriteBack a i who 0 1) s
def State.lagInvalidate (s : State) (a : Nat) (keys : List Nat) : State :=
  s.updAtoll a fun x => keys.foldl (fun x i => x.setLag i {}) x

/-- One pass of a fence: the keys it visits, and what it does to each. -/
abbrev Pass := (State → List Nat) × (State → Nat → State)

/-- Run passes in order, at most `left` visits where an interrupt stops them (R249). Answers whether all is done. -/
def State.runPasses (s : State) : List Pass → Option Nat → Bool × State
  | [], _ => (true, s)
  | (keys, act) :: rest, none => ((keys s).foldl act s).runPasses rest none
  | (keys, act) :: rest, some n =>
    if (keys s).length ≤ n then ((keys s).foldl act s).runPasses rest (some (n - (keys s).length))
    else (false, ((keys s).take n).foldl act s)

/-- The passes of a fence: release at a scope, L1 before the lagoon, then the acquire unless REL (R248). Memory traffic is complete
when it ends (R249). -/
def fencePasses (k : Nat) (scope : Scope) (rel : Bool) : List Pass :=
  let l1 := fun (s : State) => (s.core k).l1Lines false
  let lag := fun (a : Nat) (s : State) => (s.atoll a).lagLines false
  let deep := match scope, atollOfKey k with
    | .die, some a => some a
    | .board, some a => some a
    | _, _ => none
  match scope with
  | .core => []
  | _ =>
    [(l1, fun s i => s.l1WriteBack k i)] ++ (deep.toList.map fun a => (lag a, fun s i => s.lagWriteBack a i (some k) 0 1))
      ++ (if rel then []
          else [(l1, fun s i => s.l1Drop k [i])] ++ deep.toList.map fun a => (lag a, fun s i => s.lagInvalidate a [i]))

/-- A fence (R248). -/
def State.fence (s : State) (k : Nat) (scope : Scope) (rel : Bool) (stop : Option Nat) : Bool × State :=
  s.runPasses (fencePasses k scope rel) stop

/-- A fence instruction. An interrupt may stop it part-way, with the PC at the fence; issued again, it does its whole work again
(R249). -/
def fenceExec (c : CoreId) (word : Nat) (scope : Scope) (rel : Bool) (stop : Option Nat) (s : State) :
    Host.Outcome State Fault Refusal :=
  runInstr c word false (do
    if ← modifyGet fun s => s.fence (coreKey c) scope rel stop then return .next else stall) s

/-- FENCE.CORE: earlier accesses have completed; nothing is written back (R248). -/
def execFenceCore (c : CoreId) (s : State) : Host.Outcome State Fault Refusal := fenceExec c (instrWord (.fenceCore c)) .core true none s
/-- FENCE.ATOLL.REL (R248). -/
def execFenceAtollRel (c : FenceRun) (s : State) : Host.Outcome State Fault Refusal :=
  fenceExec c.core (instrWord (.fenceAtollRel c)) .atoll true c.stop s
/-- FENCE.ATOLL (R248). -/
def execFenceAtoll (c : FenceRun) (s : State) : Host.Outcome State Fault Refusal :=
  fenceExec c.core (instrWord (.fenceAtoll c)) .atoll false c.stop s
/-- FENCE.DIE.REL (R248). -/
def execFenceDieRel (c : FenceRun) (s : State) : Host.Outcome State Fault Refusal :=
  fenceExec c.core (instrWord (.fenceDieRel c)) .die true c.stop s
/-- FENCE.DIE (R248). -/
def execFenceDie (c : FenceRun) (s : State) : Host.Outcome State Fault Refusal :=
  fenceExec c.core (instrWord (.fenceDie c)) .die false c.stop s
/-- FENCE.BOARD.REL (R248). -/
def execFenceBoardRel (c : FenceRun) (s : State) : Host.Outcome State Fault Refusal :=
  fenceExec c.core (instrWord (.fenceBoardRel c)) .board true c.stop s
/-- FENCE.BOARD (R248). -/
def execFenceBoard (c : FenceRun) (s : State) : Host.Outcome State Fault Refusal :=
  fenceExec c.core (instrWord (.fenceBoard c)) .board false c.stop s

/-- Discard the instruction cache and everything fetched ahead (R263). -/
def Core.ifence (c : Core) : Core := { c with icache := [] }

/-- IFENCE (R263). -/
def execIfence (c : CoreId) (s : State) : Host.Outcome State Fault Refusal :=
  runInstr c (instrWord (.ifence c)) false (do
    modC (coreKey c) Core.ifence
    return .next) s

/-! ### Range instructions (R250, R257, R258) -/

/-- Pieces of the range from `va` of `n` bytes that lie in one 64 KiB page each: first address, bytes. -/
def pagePieces (va : W64) (n : Nat) : List (W64 × Nat) :=
  let first := va.toNat / 65536
  (rangeFrom first ((va.toNat + n - 1) / 65536 + 1 - first)).map fun p =>
    let lo := max va.toNat (p * 65536)
    let hi := min (va.toNat + n) ((p + 1) * 65536)
    (w64 lo, hi - lo)

/-- Translate a range page by page, then its lines: virtual and physical line numbers of every line touched. -/
def rangeLines (k : Nat) (acc : Acc) (va : W64) (n : Nat) : M (List (Nat × Nat)) := do
  let c ← getC k
  let ps ← collect (pagePieces va n) fun p => do
    let pa ← translate k c.level .d acc false false p.1
    return (p.1.toNat, pa, p.2)
  return ps.flatMap fun (v, pa, len) =>
    (List.range ((v % 128 + len + 127) / 128)).map fun i => (v / 128 + i, pa / 128 + i)

/-- CWB and CINV of lines: the L1's, then at DIE and BOARD scope the lagoon's; CINV also invalidates (R250). -/
def State.rangePass (s : State) (k : Nat) (scope : Scope) (inv : Bool) (lines : List Nat) : State :=
  let keys := lines.filterMap (s.core k).l1Find
  let s := s.l1Release k keys
  let s := if inv then s.l1Drop k keys else s
  match scope, atollOfKey k with
  | .atoll, some _ => s
  | .core, _ => s
  | _, none => s
  | _, some a =>
    let keys := lines.filterMap ((s.atoll a).lagFind a)
    let s := s.lagRelease a keys (some k)
    if inv then s.lagInvalidate a keys else s

/-- The body of CWB and CINV. -/
def rangeBody (k word : Nat) (scope : Scope) (inv : Bool) (a b : Reg) : M Flow := do
  let c ← getC k
  let n := (c.rx b).toNat
  illegalW word (scope == .core)
  illegalW word (decide (2 * 2 ^ 20 < n))
  if n = 0 then return .next
  let lines ← rangeLines k .cmo (c.rx a) n
  modify fun s => s.rangePass k scope inv (lines.map (·.2))
  return .next
where
  illegalW (word : Nat) (b : Bool) : M Unit := if b then illegal (BitVec.ofNat 32 word) else pure ()

/-- CWB.scope (R250). -/
def execCwb (c : CoreId) (scope : Scope) (a b : Reg) (s : State) : Host.Outcome State Fault Refusal :=
  let w := instrWord (.cwb c scope a b)
  runInstr c w false (rangeBody (coreKey c) w scope false a b) s

/-- CINV.scope (R250). -/
def execCinv (c : CoreId) (scope : Scope) (a b : Reg) (s : State) : Host.Outcome State Fault Refusal :=
  let w := instrWord (.cinv c scope a b)
  runInstr c w false (rangeBody (coreKey c) w scope true a b) s

/-- The entry for a region: the one that covers it, else a free one (R258). -/
def Atoll.deadEntry (a : Atoll) (region : Nat) : Option Nat :=
  match a.deadKey region with
  | some k => some k
  | none => (List.range 8).find? fun k => !(a.deadr.get {} k).valid

/-- Mark a line dead in an entry (R257). -/
def Atoll.markDead (a : Atoll) (key line : Nat) : Atoll :=
  let e := a.deadr.get {} key
  let e' : DeadEntry := { valid := true, region := deadRegion line, bits := e.bits.set false (line % 131072) true }
  { a with deadr := a.deadr.set {} key e' }

/-- Declare one line dead: dropped from the L1 and marked, or, where no entry is free, written back and invalidated (R258). -/
def State.deadLine (s : State) (k a line : Nat) : State :=
  match (s.atoll a).deadEntry (deadRegion line) with
  | some key => ((s.l1Drop k ((s.core k).l1Find line).toList).updAtoll a fun x => x.markDead key line).tagWrite a (2 ^ 20 + key)
  | none => (s.rangePass k .board true [line]).setMemstat k 1

/-- DEAD (R257, R258); off the compute cores it acts as CINV.BOARD (R254). -/
def execDead (c : CoreId) (a b : Reg) (s : State) : Host.Outcome State Fault Refusal :=
  let w := instrWord (.dead c a b)
  let k := coreKey c
  runInstr c w false (if isCompute k then do
      let x ← getC k
      let va := x.rx a
      let n := (x.rx b).toNat
      if 16 * 2 ^ 20 < n then illegal (BitVec.ofNat 32 w)
      let lo := (va.toNat + 127) / 128
      let hi := (va.toNat + n) / 128
      if n = 0 ∨ hi ≤ lo then return .next
      let lines ← rangeLines k .dead va n
      let whole := lines.filter fun l => decide (lo ≤ l.1 ∧ l.1 < hi)
      modify fun s => whole.foldl (fun s l => s.deadLine k (k / 16) l.2) s
      return .next
    else rangeBody k w .board true a b) s

end Sys2Proof.Machine
end

