-- ==== Sys2Proof/Machine/Msg.lean ====
section
/-! DEFINITION. Messages: SEND, RECV, RECV.NB, and their way across the board (R53 to R66, R297 to R305, R329). -/

namespace Sys2Proof.Machine
open Sys2Proof

def pepochNo : Nat := 0x150
def stalemsgNo : Nat := 0x151
def mbxstatNo : Nat := 0x041

/-- PEPOCH.EPOCH (R301). -/
def Core.epoch (c : Core) : BitVec 16 := (c.sr pepochNo).setWidth 16

/-! ### Queues of messages (R57, R299, R329) -/

/-- Index of the oldest entry that may be launched: it waits, and no earlier entry to its mailbox is still in the queue
(R299). -/
def firstLaunch (q : List OutMsg) : Option Nat :=
  (List.range q.length).find? fun i =>
    match q[i]? with
    | some e => e.st == .queued
        && !((q.take i).any fun p => p.msg.dst == e.msg.dst && p.msg.mbx == e.msg.mbx)
    | none => false

/-- Mark an entry as launched. -/
def markLaunched (q : List OutMsg) (i : Nat) : List OutMsg :=
  q.modify i fun e => { e with st := .inFlight }

/-- The stop at which a compute core's or an engine's messages enter the mesh. -/
def State.msgPlace (s : State) (g : Msg) : Place :=
  match g.engine with
  | some d => enginePlace d
  | none => corePlace (s.keyOfLcore g.src)

/-- A message enters the mesh in class MESSAGE, unless it stays within its atoll (R289, R297, R299). -/
def State.putOnWire (s : State) (g : Msg) : State :=
  let k := s.keyOfLcore g.dst
  let s' : State := { s with wireMsgs := s.wireMsgs ++ [g] }
  if g.engine.isNone && s.keyOfLcore g.src / 16 == k / 16 then s'
  else s'.postAt 3 (routeTo (s.msgPlace g) (g.dst % 4) (corePlace k))

/-- The engine of a die launches whatever its notice queue may launch (R329; DESIGN CHOICE: notes/assumptions/9). -/
def State.launchEngine (s : State) (d : Nat) : Nat → State
  | 0 => s
  | n + 1 =>
    let q := (s.die d).eng.notices
    match firstLaunch q with
    | none => s
    | some i =>
      match q[i]? with
      | none => s
      | some e =>
        ((s.updEng d fun g => { g with notices := markLaunched q i }).putOnWire e.msg).launchEngine d n

/-- The outbound queue of a message's sender: a core's, or a strait engine's notice queue. -/
def State.outOf (s : State) (engine : Option Nat) (src : Nat) : List OutMsg :=
  match engine with
  | some d => (s.die d).eng.notices
  | none => (s.core (s.keyOfLcore src)).outq

def State.setOut (s : State) (engine : Option Nat) (src : Nat) (q : List OutMsg) : State :=
  match engine with
  | some d => (s.updEng d fun g => { g with notices := q }).launchEngine d 64
  | none => s.updCore (s.keyOfLcore src) fun c => { c with outq := q }

/-! ### SEND and RECV (R54 to R58) -/

/-- Lowest level that may receive from a mailbox (R54). -/
def mbxLevel (m : Nat) : Nat := if m < 12 then 0 else if m < 14 then 1 else 2

/-- Consecutive registers from r. -/
def Core.regsFrom (c : Core) (r n : Nat) : List W64 := (rangeFrom r n).map fun i => c.rx (BitVec.ofNat 5 i)

/-- SEND (R54 to R57). It stalls while the outbound queue is full. -/
def execSend (c : CoreId) (a b : Reg) (len : BitVec 4) (s : State) : Host.Outcome State Fault Refusal :=
  let w := BitVec.ofNat 32 (instrWord (.send c a b len))
  let k := coreKey c
  runInstr c w.toNat false (do
    let x ← getC k
    if !isCompute k || decide (8 < len.toNat) || decide (32 < b.toNat + len.toNat) then illegal w
    let d := (x.rx a).toNat
    if 14 ≤ bitsOf d 12 9 ∧ x.level ≠ .m then privilege w
    if 8 ≤ x.outq.length then stall
    let s ← get
    let g : Msg := { tag := BitVec.ofNat 16 (bitsOf d 63 48), epoch := x.epoch, src := s.lcoreOf k, mbx := bitsOf d 12 9,
                     dst := bitsOf d 8 0, payload := x.regsFrom b.toNat len.toNat, engine := none }
    modC k fun x => { x with outq := x.outq ++ [{ msg := g }] }
    return .next) s

/-- The header word that RECV writes (R56). -/
def Msg.header (g : Msg) : W64 :=
  w64 (g.tag.toNat * 2 ^ 48 + g.epoch.toNat * 2 ^ 32 + 2 ^ 24 + g.payload.length % 16 * 2 ^ 20 + g.src % 512)

/-- Write a received message into x[d] … x[d+LEN] (R58). -/
def Core.receive (c : Core) (d : Nat) (g : Msg) : Core :=
  (List.range g.payload.length).foldl (fun c i => c.wx (BitVec.ofNat 5 (d + 1 + i)) (g.payload.getD i 0))
    (c.wx (BitVec.ofNat 5 d) g.header)

/-- The checks of RECV and RECV.NB (R29, R54, R56). -/
def recvChecks (k : Nat) (w : W32) (d : Reg) (mbx : BitVec 4) : M Unit := do
  let x ← getC k
  if !isCompute k || d == 0 || decide (23 < d.toNat) then illegal w
  if x.level.code < mbxLevel mbx.toNat then privilege w

/-- Receive the oldest message of a mailbox, or wait for one (R58). -/
def recvBody (k : Nat) (w : W32) (d : Reg) (mbx : BitVec 4) : M Flow := do
  recvChecks k w d mbx
  match ← modifyGet fun s => s.takeMessage k mbx.toNat with
  | some g =>
    modC k fun x => { x.receive d.toNat g with wait := .none }
    return .next
  | none =>
    modC k fun x => { x with wait := .recv d mbx }
    stall

def execRecv (c : CoreId) (d : Reg) (mbx : BitVec 4) (s : State) : Host.Outcome State Fault Refusal :=
  let w := BitVec.ofNat 32 (instrWord (.recv c d mbx))
  runInstr c w.toNat false (recvBody (coreKey c) w d mbx) s

/-- A waiting RECV whose mailbox holds a message completes; an interrupt ready at the same time is taken first (R58, R59). -/
def execRecvComplete (c : CoreId) (s : State) : Host.Outcome State Fault Refusal :=
  let k := coreKey c
  match (s.core k).wait with
  | .recv d mbx =>
    if s.issuing k && !((s.core k).mail mbx.toNat).isEmpty then
      let w := BitVec.ofNat 32 (instrWord (.recv c d mbx))
      runInstr c w.toNat false (recvBody k w d mbx) (s.updCore k fun x => { x with wait := .none })
    else .next s
  | _ => .next s

/-- RECV.NB: as RECV where a message is present, else x[d] = 0 (R58). -/
def execRecvNb (c : CoreId) (d : Reg) (mbx : BitVec 4) (s : State) : Host.Outcome State Fault Refusal :=
  let w := BitVec.ofNat 32 (instrWord (.recvNb c d mbx))
  let k := coreKey c
  runInstr c w.toNat false (do
    recvChecks k w d mbx
    match ← modifyGet fun s => s.takeMessage k mbx.toNat with
    | some g => modC k fun x => x.receive d.toNat g
    | none => modC k fun x => x.wx d 0
    return .next) s

/-! ### On the way (R299, R300) -/

/-- The outbound queue launches its oldest message that may leave (R299). -/
def execMessageLaunch (c : CoreId) (s : State) : Host.Outcome State Fault Refusal :=
  let k := coreKey c
  let q := (s.core k).outq
  if isCompute k && s.corePowered k then
    match firstLaunch q with
    | none => .next s
    | some i =>
      match q[i]? with
      | none => .next s
      | some e => .next ((s.updCore k fun x => { x with outq := markLaunched q i }).putOnWire e.msg)
  else .next s

/-- Count, record and drop a stale message at a core (R303). -/
def State.dropStale (s : State) (k : Nat) (g : Msg) : State :=
  let c := s.core k
  let old := (c.sr stalemsgNo).toNat
  let fresh := c.staleRun != some g.epoch
  let v := g.epoch.toNat * 2 ^ 48 + g.src % 512 * 2 ^ 32 + satAdd (old % 2 ^ 32) 1 0xFFFFFFFF
  let s := s.updCore k fun c => { c.setSr stalemsgNo (w64 v) with staleRun := some g.epoch }
  s.detect (unitOfKey k) { code := 0x0309, sev := 0, loc := s.lcoreOf k, data0 := zext64 c.epoch, data1 := zext64 g.epoch,
                           data2 := w64 g.src, newRun := fresh }

/-- The destination's atoll is offline, or off (R63, R295, R298). -/
def State.discards (s : State) (dst : Nat) : Bool :=
  let d := s.die (dst / 128)
  !d.up || d.isOffline (dst % 128 / 16) || !(s.atoll (s.keyOfLcore dst / 16)).powered

/-- An acknowledgement leaves for the sender, from the stop that the message was addressed to; a die that does not run has no packets
(R63, R288, R289). -/
def State.answer (s : State) (g : Msg) (a : Answer) : State :=
  let s' : State := { s with wireAcks := s.wireAcks ++ [{ msg := g, ans := a }] }
  if (s.die (g.dst / 128)).up then s'.postBack (s.keyOfLcore g.dst) g.engine g.src else s'

/-- What happens to a message on arrival (R300). -/
def State.arrive (s : State) (g : Msg) : State :=
  let k := s.keyOfLcore g.dst
  let me : Waiter := { sender := g.src, engine := g.engine, mbx := g.mbx }
  if s.discards g.dst then
    (s.detect (g.dst / 128) { code := 0x0308, sev := 0, loc := g.src }).answer g .discard
  else
    let s := s.updAtoll (k / 16) fun a => { a with gated := false }
    let c := s.core k
    if g.mbx < 14 ∧ g.epoch ≠ c.epoch then
      let s := (s.updCore k fun c => { c with reserved := c.reserved.erase me }).dropStale k g
      (if c.reserved.contains me && decide (0 < (s.core k).openSlots g.mbx) then s.wakeOldest k g.mbx else s).answer g .accept
    else if c.reserved.contains me then
      (s.updCore k fun c =>
        ({ c with reserved := c.reserved.erase me }).setMail g.mbx (c.mail g.mbx ++ [g])).answer g .accept
    else if 0 < c.openSlots g.mbx ∧ (c.waitlist.all fun w => w.mbx != g.mbx) then
      (s.updCore k fun c => c.setMail g.mbx (c.mail g.mbx ++ [g])).answer g .accept
    else if c.waitlist.length < 16 then
      (s.updCore k fun c => { c with waitlist := c.waitlist ++ [me] }).answer g .refuse
    else s.answer g .refuseFull

/-- The die whose causeways a message leaves by. -/
def State.srcDie (s : State) (g : Msg) : Nat := (s.msgPlace g).die

/-- Message traffic between two dies gets through: every causeway on its way is up, but for those at an end that does not run, where
the message is discarded and answered (R293, R295). -/
def State.pathUp (s : State) (a b : Nat) : Bool :=
  (crossings a b).all fun cw => s.board.causeway.get false cw
    || (causewayEnds cw).any fun e => (e.1 == a || e.1 == b) && !(s.die e.1).up

/-- A message on the wire reaches its destination core. One that would cross a causeway that is down stays where it is, and so does
an answer or a WAKE (R293). -/
def execMessageArrival (i : Nat) (s : State) : Host.Outcome State Fault Refusal :=
  match s.wireMsgs[i]? with
  | none => .next s
  | some g =>
    if s.pathUp (s.srcDie g) (g.dst / 128) then
      .next (({ s with wireMsgs := s.wireMsgs.eraseIdx i }).arrive g)
    else .next s

/-- Index of the queue's entry for a message in flight. -/
def findInFlight (q : List OutMsg) (g : Msg) : Option Nat := q.findIdx? fun e => e.msg == g && e.st == .inFlight

/-- A WAKE reaches a refused sender, whose message may be launched again (R299, R305). One that comes before the REFUSE is used up
(DESIGN CHOICE: notes/assumptions/199). -/
def execWakeArrival (i : Nat) (s : State) : Host.Outcome State Fault Refusal :=
  match s.wireWakes[i]? with
  | none => .next s
  | some w =>
    if !s.pathUp (w.dst / 128) (w.engine.getD (w.sender / 128)) then .next s
    else
    let s : State := { s with wireWakes := s.wireWakes.eraseIdx i }
    let q := s.outOf w.engine w.sender
    match q.findIdx? fun e => e.msg.dst == w.dst && e.msg.mbx == w.mbx && (e.st == .refused || e.st == .refusedFull) with
    | none => .next s
    | some j => .next (s.setOut w.engine w.sender (q.modify j fun e => { e with st := .queued }))

/-- 1,024 FCLK cycles after a refusal that said the wait list was full, the message is launched again (R299). A die
controller names its die's strait engine. -/
def execRefuseRetryTimeout (c : CoreId) (i : Nat) (s : State) : Host.Outcome State Fault Refusal :=
  let eng : Option Nat := match c with | .dieCtl d => some d.val | _ => none
  let src := s.lcoreOf (coreKey c)
  if eng.isSome || isCompute (coreKey c) then
    let q := s.outOf eng src
    match q[i]? with
    | some e => .next (if e.st = .refusedFull then s.setOut eng src (q.modify i fun e => { e with st := .queued }) else s)
    | none => .next s
  else .next s

/-- A reservation lapses without its message having arrived (R300). -/
def execReservationLapse (c : CoreId) (mbx : BitVec 4) (s : State) : Host.Outcome State Fault Refusal :=
  let k := coreKey c
  match (s.core k).reserved.find? fun w => w.mbx == mbx.toNat with
  | none => .next s
  | some w =>
    let s := s.updCore k fun c => { c with reserved := c.reserved.erase w }
    .next (if 0 < (s.core k).openSlots mbx.toNat then s.wakeOldest k mbx.toNat else s)

/-- Remove from mailboxes 0 to 13 the messages whose epoch differs from PEPOCH; each frees a place for a waiter (R302, R303;
the wake DEDUCED: notes/assumptions/10). Mailbox 0 goes first, and each mailbox's oldest message first (DESIGN CHOICE:
notes/assumptions/189). -/
def State.purgeStale (s : State) (k : Nat) : State :=
  (List.range 14).foldl (fun s m =>
    let all := (s.core k).mail m
    let stale := all.filter fun g => g.epoch != (s.core k).epoch
    let s := s.updCore k fun c => c.setMail m (all.filter fun g => g.epoch == c.epoch)
    stale.foldl (fun s g => (s.dropStale k g).wakeOldest k m) s) s

end Sys2Proof.Machine
end

