-- ==== Sys2Proof/Machine/FnClass.lean ====
section
/-! DEFINITION. The Exponential and Function classes (R113, R206): reference values in fixed point of 512 fraction bits, rounded to
nearest, and moved by the open distance of the fixed algorithm. -/

namespace Sys2Proof.Machine
open Sys2Proof

/-- Fraction bits of the fixed-point values. -/
def fxP : Nat := 512
/-- ln 2 and the square root of 2π as fixed-point numbers. -/
def fxLn2 : Nat :=
  0xb17217f7d1cf79abc9e3b39803f2f6af40f343267298b62d8a0d175b8baafa2be7b876206debac98559552fb4afa1b10ed2eae35c138214427573b291169b825
def fxSqrt2Pi : Nat :=
  0x281b263fec4e0b2caf9483f5ce459dc5f19f3ea6416000b50dc2f412ddeeb948b5068337b65698726847d560b8818fb98307f0f37d42a17c1c2b86baec9ffa598

def fxOne : Nat := 2 ^ fxP
def fxMul (a b : Nat) : Nat := (a * b) >>> fxP

/-- Σ of a Taylor series whose term n follows from term n − 1 by × x ÷ (step n). -/
def fxSeries (x : Nat) (step : Nat → Nat) : Nat → Nat → Nat → Nat → Nat
  | 0, _, _, acc => acc
  | f + 1, n, term, acc =>
    let t := fxMul term x / step n
    fxSeries x step f (n + 1) t (acc + t)

/-- e^r for 0 ≤ r < ln 2. -/
def fxExpSmall (r : Nat) : Nat := fxSeries r (fun n => n) 120 1 fxOne fxOne

/-- A finite value as a fixed-point integer. -/
def fxOf (neg : Bool) (m : Nat) (e : Int) : Int :=
  let v : Nat := if 0 ≤ e + fxP then m <<< (e + fxP).toNat else m >>> (-(e + fxP)).toNat
  if neg then -(v : Int) else v

/-- A fixed-point magnitude × 2^k as a value that is not exact. -/
def fxVal (neg : Bool) (v : Nat) (k : Int) : FV := .fin neg (sticky v true) (k - fxP - 1)

/-- e^x for a finite x; far outside every format's range only the side is kept. -/
def refExp (neg : Bool) (m : Nat) (e : Int) : FV :=
  if m = 0 then fvOne
  else if 9 ≤ topExp m e then (if neg then .fin false 1 (-2000) else .fin false 1 2000)
  else
    let x := fxOf neg m e
    let k := x / (fxLn2 : Int)
    fxVal false (fxExpSmall (x - k * fxLn2).toNat) k

/-- atanh series: Σ z^(2n+1) / (2n+1). -/
def fxAtanh (z z2 : Nat) : Nat → Nat → Nat → Nat
  | 0, _, acc => acc
  | f + 1, n, acc => fxAtanh (fxMul z z2) z2 f (n + 1) (acc + z / (2 * n + 1))

/-- ln of a positive finite value m × 2^e. -/
def refLog (m : Nat) (e : Int) : FV :=
  let l := Nat.log2 m
  let y := m <<< (fxP - l)
  let up := decide (2 * y > 3 * fxOne)
  let k : Int := e + l + (if up then 1 else 0)
  let y := if up then y / 2 else y
  let d : Int := (y : Int) - fxOne
  if d = 0 ∧ k = 0 then .fin false 0 0
  else
    let z := (d.natAbs <<< fxP) / (y + fxOne)
    let a := 2 * fxAtanh z (fxMul z z) 120 0 0
    let v : Int := k * fxLn2 + (if d < 0 then -(a : Int) else a)
    fxVal (decide (v < 0)) v.natAbs 0

/-- 1 ÷ (1 + e^−x). -/
def refSigm (neg : Bool) (m : Nat) (e : Int) : FV :=
  if m = 0 then .fin false 1 (-1)
  else if !neg ∧ 9 ≤ topExp m e then fxVal false (fxOne - 1) 0
  else if 9 ≤ topExp m e then .fin false 1 (-2000)
  else
    let t := refExp true m e
    let den := (fvAdd 0 fvOne t).1
    (fvDiv (if neg then t else fvOne) den).1

/-- tanh x: a series for small x, else (1 − e^−2x) ÷ (1 + e^−2x). -/
def refTanh (neg : Bool) (m : Nat) (e : Int) : FV :=
  if m = 0 then .fin neg 0 0
  else if 9 ≤ topExp m e then fxVal neg (fxOne - 1) 0
  else if topExp m e < -12 then
    let x2 := let x := (fxOf false m e).toNat; fxMul x x
    let x4 := fxMul x2 x2
    let f := fxOne - x2 / 3 + 2 * x4 / 15 - 17 * fxMul x4 x2 / 315
    .fin neg (sticky (m * f - 1) true) (e - fxP - 1)
  else
    let t := refExp true m (e + 1)
    let q := (fvDiv (fvAdd 0 fvOne t.negate).1 (fvAdd 0 fvOne t).1).1
    match q with
    | .fin _ a b => .fin neg a b
    | q => q

/-- x × Φ(x). -/
def refGelu (neg : Bool) (m : Nat) (e : Int) : FV :=
  if m = 0 then .fin neg 0 0
  else if 4 ≤ topExp m e then
    (if neg then .fin true 1 (-2000) else .fin false (m * fxOne - 1) (e - fxP))
  else
    let x := (fxOf false m e).toNat
    let x2 := fxMul x x
    let phi := match refExp true (x2 / 2) (-(fxP : Int)) with
      | .fin _ a b => (fxOf false a b).toNat * fxOne / fxSqrt2Pi
      | _ => 0
    let s := fxMul phi (fxSeries x2 (fun n => 2 * n + 1) 1200 1 x x)
    let half := fxOne / 2
    let cdf := if neg then half - s else half + s
    .fin neg (sticky (m * cdf) true) (e - fxP - 1)

/-- Special inputs and the reference value with its flags (R206). `op` is the func value of R111. -/
def fnRef (op : Nat) (v : FV) : FV × Flags :=
  match v with
  | .nan => (.nan, 0)
  | .inf neg =>
    if op = 0x12 then (if neg then .fin false 0 0 else .inf false, 0)
    else if op = 0x13 then (if neg then (.nan, flNV) else (.inf false, 0))
    else if op = 0x14 then (.fin neg 1 0, 0)
    else if op = 0x15 then (if neg then .fin false 0 0 else fvOne, 0)
    else (if neg then .fin true 0 0 else .inf false, 0)
  | .fin neg m e =>
    if op = 0x12 then (refExp neg m e, 0)
    else if op = 0x13 then
      (if m = 0 then (.inf true, flDZ) else if neg then (.nan, flNV) else (refLog m e, 0))
    else if op = 0x14 then (refTanh neg m e, 0)
    else if op = 0x15 then (refSigm neg m e, 0)
    else if op = 0x16 then (refGelu neg m e, 0)
    else ((fvMul v (refSigm neg m e)).1, 0)

/-- A finite value lies within 2 units in the last place of the exact result r, the units being those of r's place in the format
(R113). -/
def Fmt.within2 (f : Fmt) (r c : FV) : Bool :=
  match r, (fvAdd 0 r c.negate).1 with
  | .fin _ m e, .fin _ d q => !dyadicLt 2 (if m = 0 then 1 - f.bias - f.mb else f.grid m e) d q
  | _, _ => false

/-- The result of the fixed algorithm on an element of a floating format: the nearest value, or another within 2 units in the last
place of the exact result, at a distance the manual leaves open (R113; notes/assumptions/11). -/
def fnLane (op ty : Nat) (f : Fmt) (bits : Nat) : Nat × Flags :=
  let v := f.decode bits
  let (r, fl) := fnRef op v
  let (b, f2) := f.encode 0 r
  match v, r with
  | .fin _ _ _, .fin neg _ _ =>
    let mag := b % 2 ^ (f.eb + f.mb)
    if f.infBits ≤ mag then (b, fl ||| f2)
    else
      let off := max (-2) (min 2 (Config.functionUlp (4 * op + ty) bits))
      let mag' := (max 0 (min (f.maxBits : Int) ((mag : Int) + off))).toNat
      if mag' = mag || !f.within2 r (f.decode (f.signed neg mag')) then (b, fl ||| f2)
      else (f.signed neg mag', fl ||| f2 ||| flNX)
  | _, _ => (b, fl ||| f2)

end Sys2Proof.Machine
end

