-- ==== Sys2Proof/Machine/Desc.lean ====
section
/-! DEFINITION. The operand cache (R95, R98), tensor descriptors (R128 to R137), and the access of one element or one scale
group through a descriptor. -/

namespace Sys2Proof.Machine
open Sys2Proof

/-- Majors 0x30 to 0x37 raise ILLEGAL on the controllers (R29). -/
def needVector (k word : Nat) : M Unit := if hasVector k then pure () else illegal (BitVec.ofNat 32 word)
/-- Majors 0x38 to 0x3E raise ILLEGAL off the compute cores (R29). -/
def needCompute (k word : Nat) : M Unit := if isCompute k then pure () else illegal (BitVec.ofNat 32 word)
/-- ILLEGAL where a condition of an encoding or an operand holds. -/
def illegalIf (word : Nat) (b : Bool) : M Unit := if b then illegal (BitVec.ofNat 32 word) else pure ()

/-! ### The operand cache -/

/-- Bytes of the operand cache (R95). -/
def ocSize : Nat := 262144

/-- `n` operand-cache bytes from an address, wrapping (R95). -/
def Core.ocBytes (c : Core) (a n : Nat) : List Byte := (rangeFrom a n).map fun i => c.oc.get 0 (i % ocSize)

/-- The 8-byte words that a span touches. -/
def ocWords (a n : Nat) : List Nat := (rangeFrom (a / 8) ((a + n + 7) / 8 - a / 8)).map (· % (ocSize / 8))

/-- Meet one bad word (R98): a corrected error is counted and gone; an uncorrectable one raises MCHECK with the row. -/
def ocMeet (k bad : Nat) : M Unit := do
  modify fun s => s.detect (unitOfKey k)
    { code := 0x0104, sev := if bad % 4 = 1 then 1 else 3, loc := s.locOf k, injected := decide (4 ≤ bad % 8) }
  if bad % 4 = 1 then modC k fun c => { c with ocBad := c.ocBad.filter (· != bad) }
  else mcheck k 0x0104 (w64 (bad / 8 / 8)) false (decide (4 ≤ bad % 8))

/-- Read operand-cache bytes. A bad word is held as its number × 8 + 1 for a single-bit, 2 for an uncorrectable error, + 4
where an injection made it. -/
def ocRead (k a n : Nat) : M (List Byte) := do
  let c ← getC k
  forEach (c.ocBad.filter fun b => (ocWords a n).contains (b / 8)) (ocMeet k)
  return c.ocBytes a n

/-- A byte of an operand-cache write: its address, its value, and whether all of its bits are written. -/
abbrev OcByte := Nat × Byte × Bool

/-- The consecutive bytes of an operand-cache write from an address, wrapping (R95). -/
def ocBytesAt (a : Nat) (bytes : List Byte) : List OcByte := bytes.zipIdx.map fun b => ((a + b.2) % ocSize, b.1, true)

/-- Write operand-cache bytes at once: a word written whole loses its error (R98); an armed injection stores one in the word of
the first byte (R414). -/
def State.ocStore (s : State) (k : Nat) (bs : List OcByte) : State :=
  let whole := fun (w : Nat) => (rangeFrom (8 * w) 8).all fun i => bs.any fun b => b.1 == i && b.2.2
  let (e, s) := s.armedErr (unitOfKey k) [0x0104] (s.locOf k)
  s.updCore k fun c => { c with
    oc := bs.foldl (fun m b => m.set 0 b.1 b.2.1) c.oc
    ocBad := c.ocBad.filter (fun b => !whole (b / 8))
      ++ (if e = 0 then [] else (bs.head?.map fun b => b.1 / 8 * 8 + e).toList) }

def State.ocWrite (s : State) (k a : Nat) (bytes : List Byte) : State := s.ocStore k (ocBytesAt a bytes)

/-! ### Descriptors -/

/-- A descriptor register (R128). -/
structure Desc where
  base : W64
  size : Nat
  stride1 : Int
  stride2 : Int
  stride3 : Int
  ctrl : Nat
  scaleBase : W64
  repstep : Int
  deriving DecidableEq, Repr

def Desc.of (ws : List W64) : Desc :=
  let w := fun i => ws.getD i 0
  { base := w 0, size := (w 1).toNat, stride1 := signed 48 (w 2).toNat, stride2 := signed 48 (w 3).toNat,
    stride3 := signed 48 (w 4).toNat, ctrl := (w 5).toNat, scaleBase := w 6, repstep := signed 48 (w 7).toNat }

def Core.descWords (c : Core) (k : Nat) : List W64 := (rangeFrom (8 * k) 8).map (c.desc.get 0)
def Core.descOf (c : Core) (k : Nat) : Desc := .of (c.descWords k)

/-- Bits of each word that a descriptor register keeps (R128). -/
def descMask (i : Nat) : W64 :=
  if i = 2 ∨ i = 3 ∨ i = 4 ∨ i = 7 then w64 (2 ^ 48 - 1) else if i = 5 then 0xFFFFFFF00000C31F else BitVec.allOnes 64

def Core.setDescWord (c : Core) (k i : Nat) (v : W64) : Core :=
  { c with desc := c.desc.set 0 (8 * k + i) (v &&& descMask i) }

def Desc.dim (d : Desc) (i : Nat) : Nat := bitsOf d.size (16 * i + 15) (16 * i)
def Desc.stride0 (d : Desc) : Int := signed 16 (bitsOf d.ctrl 63 48)
def Desc.ring (d : Desc) : Nat := bitsOf d.ctrl 47 36
/-- 0 MEM, 1 OC, 2 TILE_T, 3 TILE_W. -/
def Desc.space (d : Desc) : Nat := bitsOf d.ctrl 15 14
def Desc.transpose (d : Desc) : Bool := d.ctrl.testBit 9
def Desc.b32 (d : Desc) : Bool := d.ctrl.testBit 8
def Desc.fmt (d : Desc) : Nat := bitsOf d.ctrl 4 0
def Desc.bits (d : Desc) : Nat := elemBits d.fmt
def Desc.scaled (d : Desc) : Bool := blockScaled d.fmt
/-- The groups of a B32 block-scaled tensor with TRANSPOSE set run across its walk (R200). -/
def Desc.crossed (d : Desc) : Bool := d.b32 && d.transpose

/-- Element count (R131). -/
def Desc.count (d : Desc) : Nat := d.dim 0 * d.dim 1 * d.dim 2 * d.dim 3

/-- Offset in bits of walk element e from the base (R131, R132, R134). -/
def Desc.offBits (d : Desc) (e : Nat) : Int :=
  let i0 := e % d.dim 0
  let i1 := e / d.dim 0 % d.dim 1
  let i2 := e / d.dim 0 / d.dim 1 % d.dim 2
  let i3 := e / d.dim 0 / d.dim 1 / d.dim 2
  let b := d.bits
  let low : Int :=
    if d.b32 then
      let r := if d.transpose then i0 else i1
      let c := if d.transpose then i1 else i0
      8 * ((r / 32 : Nat) * d.stride1 + ((c / 32 * (128 * b) : Nat) : Int)) + ((r % 32 * 32 + c % 32) * b : Nat)
    else (if 8 ≤ b ∧ !d.scaled then 8 * (i0 * d.stride0) else ((i0 * b : Nat) : Int)) + 8 * (i1 * d.stride1)
  low + 8 * (i2 * d.stride2 + i3 * d.stride3)

/-- Byte address and bit of an element of space MEM or OC, `rep` bytes beyond the base as loaded (R132, R133, R143). -/
def Desc.place (d : Desc) (rep : Int) (e : Nat) : Nat × Nat :=
  let off := d.offBits e
  let a := (d.base.toNat : Int) + rep + off / 8
  let bit := (off % 8).toNat
  if d.space = 1 then
    let row := ((d.base.toNat : Int) + rep) / 64 * 64
    let len : Int := (d.ring * 64 : Nat)
    let a := if d.ring ≠ 0 ∧ (a < row ∨ row + len ≤ a) then row + (a - row) % len else a
    ((a % (ocSize : Int)).toNat, bit)
  else ((a % 2 ^ 64).toNat, bit)

/-- Address of the scale byte of an element's group (R134). -/
def Desc.scaleAddr (d : Desc) (rep : Int) (e : Nat) : W64 :=
  d.scaleBase + w64i ((rep + d.offBits e / 8) / ((4 * d.bits : Nat) : Int))

/-- A reserved FMT, or a nonzero bit that R129 says must be 0. -/
def Desc.malformed (d : Desc) : Bool :=
  decide (13 ≤ d.fmt) ||
    (match d.space with
     | 1 => decide (ocSize ≤ d.base.toNat)
     | 2 => d.base &&& ~~~(0xF0F : W64) != 0
     | 3 => d.base &&& ~~~(0x37 : W64) != 0
     | _ => false)

/-- The first value that breaks an alignment of R142, with the alignment. -/
def Desc.misaligned (d : Desc) : Option (W64 × Nat) :=
  let need := if d.b32 || d.scaled then 64 else d.bits / 8
  let rneed := if d.scaled && d.bits == 6 then 192 else need
  let vals : List (Int × Nat) :=
    [((d.base.toNat : Int), need)] ++ (if !d.b32 && !d.scaled then [(d.stride0, need)] else [])
      ++ [(d.stride1, need), (d.stride2, need), (d.stride3, need), (d.repstep, rneed)]
  (vals.find? fun v => v.1 % (v.2 : Int) != 0).map fun v => (w64i v.1, v.2)

/-! ### Elements through a descriptor -/

/-- How an engine reaches memory: translation of a span, a read and a write within one line, and the check of a line before a
granule writes: what a write to it, or a stream's read of it, would meet. -/
structure MemPort where
  loc : Acc → W64 → Nat → M (List (W64 × Nat × Nat))
  rd : W64 → Nat → Nat → M Nat
  wr : W64 → Nat → Nat → Nat → M Unit
  probe : Acc → W64 → Nat → M Unit

/-- Through the core's L1 at its level (R104, R181). -/
def l1Port (k : Nat) (lvl : Level) : MemPort :=
  { loc := locate k lvl .d, rd := fun va pa n => loadSpanE k true va pa n true, wr := storeSpanE k true, probe := probeSpan k }

def MemPort.load (p : MemPort) (a : W64) (n : Nat) : M Nat := do readParts p.rd (← p.loc .load a n)
def MemPort.store (p : MemPort) (a : W64) (n v : Nat) : M Unit := do writeParts p.wr (← p.loc .store a n) v

/-- A write of a granule: to memory, or to the operand cache. -/
inductive Put where
  | mem (va : W64) (n v : Nat)
  | oc (bytes : List OcByte)
  deriving DecidableEq, Repr

def Put.ocPart : Put → List OcByte
  | .oc bs => bs
  | .mem _ _ _ => []

/-- Translate a span and check its lines (R90, R125, R144). -/
def MemPort.see (p : MemPort) (acc : Acc) (a : W64) (n : Nat) : M Unit := do
  forEach (← p.loc acc a n) fun x => p.probe acc x.1 x.2.1

/-- The writes of a granule whose checks are made (R90, R125): memory in walk order, then the operand cache. -/
def MemPort.putAll (p : MemPort) (k : Nat) (ws : List Put) : M Unit := do
  forEach ws fun
    | .mem va n v => p.store va n v
    | .oc _ => pure ()
  let oc := ws.flatMap Put.ocPart
  if oc.isEmpty then pure () else modify fun s => s.ocStore k oc

/-- Bytes that an element touches. -/
def Desc.span (d : Desc) (rep : Int) (e : Nat) : Nat × Nat :=
  let (a, bit) := d.place rep e
  (a, (bit + d.bits + 7) / 8)

/-- Translate and check the data bytes of elements and their scales, in walk order (R125, R144). -/
def Desc.check (d : Desc) (p : MemPort) (rep : Int) (acc : Acc) (es : List Nat) : M Unit :=
  if d.space = 0 then
    forEach es fun e => do
      let (a, n) := d.span rep e
      p.see acc (w64 a) n
      if d.scaled then p.see acc (d.scaleAddr rep e) 1
  else pure ()

/-- The bits of an element as stored. -/
def Desc.readBits (d : Desc) (k : Nat) (p : MemPort) (rep : Int) (e : Nat) : M Nat := do
  let (a, bit) := d.place rep e
  let n := (bit + d.bits + 7) / 8
  let v ← if d.space = 1 then ofLe <$> ocRead k a n else p.load (w64 a) n
  return (v >>> bit) % 2 ^ d.bits

/-- The scale byte of an element's group; 127 for a format without one. -/
def Desc.readScale (d : Desc) (p : MemPort) (rep : Int) (e : Nat) : M Nat :=
  if d.scaled then p.load (d.scaleAddr rep e) 1 else return 127

/-- An element's bits and scale. -/
def Desc.readElem (d : Desc) (k : Nat) (p : MemPort) (rep : Int) (e : Nat) : M (Nat × Nat) := do
  let b ← d.readBits k p rep e
  let x ← d.readScale p rep e
  return (b, x)

/-- The value of an element with its scale (R198). -/
def valueOf (fmt : Nat) (e : Nat × Nat) : FV := if blockScaled fmt then decodeScaled fmt e.2 e.1 else decodeElem fmt e.1

/-- The write of an element of a format without scales. -/
def Desc.putElem (d : Desc) (rep : Int) (e v : Nat) : Put :=
  let (a, n) := d.span rep e
  if d.space = 1 then .oc (ocBytesAt a (leBytes n v)) else .mem (w64 a) n v

/-- Pack elements from the least significant bit upward (R197). -/
def packBits (b : Nat) : List Nat → Nat
  | [] => 0
  | v :: vs => v % 2 ^ b + 2 ^ b * packBits b vs

/-- The writes of a scale group: 32 elements in stored order, the first of which is walk element e, and their scale byte: that of
the first, also where STRIDE1 is no whole number of groups (R134; DESIGN CHOICE: notes/assumptions/163). -/
def Desc.putGroup (d : Desc) (rep : Int) (e : Nat) (scale : Nat) (bits : List Nat) : List Put :=
  [.mem (w64 (d.place rep e).1) (4 * d.bits) (packBits d.bits bits), .mem (d.scaleAddr rep e) 1 scale]

/-! ### Descriptor instructions (R137) -/

/-- The address of a 64-byte image: MISALIGN with DETAIL 64, then the translation. -/
def descImage (k : Nat) (a : W64) (acc : Acc) : M Nat := do
  if a.toNat % 64 ≠ 0 then trap 0x03 64 a
  translate k (← getC k).level .d acc false false a

/-- Dk = the 64 bytes at x[a] (R137). -/
def execDld (c : CoreId) (k : BitVec 4) (a : Reg) (s : State) : Host.Outcome State Fault Refusal :=
  let w := instrWord (.dld c k a)
  runInstr c w false (do
    needCompute (coreKey c) w
    let va := (← getC (coreKey c)).rx a
    let pa ← descImage (coreKey c) va .load
    let v ← loadSpan (coreKey c) va pa 64 true
    modC (coreKey c) fun x => (List.range 8).foldl (fun x i => x.setDescWord k.toNat i (w64 (v >>> (64 * i)))) x
    return .next) s

/-- The 64 bytes at x[a] = Dk (R137). -/
def execDst (c : CoreId) (k : BitVec 4) (a : Reg) (s : State) : Host.Outcome State Fault Refusal :=
  let w := instrWord (.dst c k a)
  runInstr c w false (do
    needCompute (coreKey c) w
    let va := (← getC (coreKey c)).rx a
    let pa ← descImage (coreKey c) va .store
    let ws := (← getC (coreKey c)).descWords k.toNat
    storeSpan (coreKey c) va pa 64 (packBits 64 (ws.map (·.toNat)))
    return .next) s

/-- Dk.BASE = x[a] (R137). -/
def execDbase (c : CoreId) (k : BitVec 4) (a : Reg) (s : State) : Host.Outcome State Fault Refusal :=
  let w := instrWord (.dbase c k a)
  runInstr c w false (do
    needCompute (coreKey c) w
    modC (coreKey c) fun x => x.setDescWord k.toNat 0 (x.rx a)
    return .next) s

/-- Dk.BASE = Dk.BASE + x[a], modulo 2^64 (R137). -/
def execDaddb (c : CoreId) (k : BitVec 4) (a : Reg) (s : State) : Host.Outcome State Fault Refusal :=
  let w := instrWord (.daddb c k a)
  runInstr c w false (do
    needCompute (coreKey c) w
    modC (coreKey c) fun x => x.setDescWord k.toNat 0 (x.desc.get 0 (8 * k.toNat) + x.rx a)
    return .next) s

end Sys2Proof.Machine
end

