-- ==== Sys2Proof/Machine/TileBase.lean ====
section
/-! DEFINITION. Tiles, their rows and formats (R160 to R164), and the operand-cache range of a TMOV (R182, R183). -/

namespace Sys2Proof.Machine
open Sys2Proof

def Core.tile (c : Core) (code : Nat) : Tile := c.tiles.get {} code
def Core.setTile (c : Core) (code : Nat) (t : Tile) : Core := { c with tiles := c.tiles.set {} code t }
def Core.updTile (c : Core) (code : Nat) (g : Tile → Tile) : Core := c.setTile code (g (c.tile code))

/-- Kinds of tile codes (R160). -/
def isT (code : Nat) : Bool := decide (code < 16)
def isZ (code : Nat) : Bool := decide (16 ≤ code ∧ code < 32)
def isW (code : Nat) : Bool := decide (32 ≤ code ∧ code < 40)

/-- Elements per T tile row (R161). -/
def perRow (fmt : Nat) : Nat :=
  if fmt = 0 ∨ fmt = 5 then 16 else if fmt = 1 ∨ fmt = 2 ∨ fmt = 7 then 32 else if fmt = 12 then 128 else 64
/-- Class of a format: 0 storage only, 1 16-bit, 2 8-bit, 3 4-bit (R161). -/
def fmtClass (fmt : Nat) : Nat :=
  if fmt = 0 ∨ fmt = 5 ∨ fmt = 6 then 0 else if fmt = 1 ∨ fmt = 2 ∨ fmt = 7 then 1 else if fmt = 12 then 3 else 2
/-- Tokens per row (R161). -/
def packOf (fmt : Nat) : Nat := if fmtClass fmt = 3 then 4 else if fmtClass fmt = 2 then 2 else 1

/-- Rows of a tile or W register: 32 for a W register (R160, R175). -/
def Core.rowsOf (c : Core) (code : Nat) : Nat := if isW code then 32 else (c.tile code).rows
/-- Elements of a row of a tile in a format. -/
def rowElems (code fmt : Nat) : Nat := if isT code then perRow fmt else 32
/-- Bytes of a row in the tile's data: 64 of a T tile or W register, 128 of a Z tile. -/
def rowBytes (code : Nat) : Nat := if isZ code then 128 else 64

/-- Rows of the operand cache that a TMOV reads or writes: its first row and their number (R182). -/
def Core.tmovRange (c : Core) : BgOp → Option (Nat × Nat × Bool)
  | .tmov tile _ base dir tfmt ofmt _ =>
    if dir = 2 then none
    else
      let n := if dir = 1 then c.rowsOf tile * perRow tfmt else c.rowsOf tile * 32
      some (base, (n * elemBits ofmt / 8 + 63) / 64, dir == 0)
  | _ => none

/-- Two runs of operand-cache rows meet (R95). -/
def rowsMeet (a n b m : Nat) : Bool :=
  n != 0 && m != 0 && (decide ((b + 4096 - a % 4096) % 4096 < n) || decide ((a + 4096 - b % 4096) % 4096 < m))

/-- An element of a descriptor in the operand cache has a byte in a run of operand-cache rows. -/
def Desc.touchesRows (d : Desc) (rep : Int) (e b m : Nat) : Bool :=
  let (a, n) := d.span rep e
  rowsMeet (a / 64) ((a % 64 + n + 63) / 64) b m

/-! ### Background work and its order (R166, R170, R216) -/

def zCode (arr z : Nat) : Nat := 16 + 8 * arr + z
def wCode (arr w : Nat) : Nat := 32 + 4 * arr + w % 4

/-- Tiles that an operation reads, and tiles that it writes, empties or releases. -/
def BgOp.reads : BgOp → List Nat
  | .pass _ t _ w _ _ keep _ => if keep then [t] else [t, w]
  | .gather _ _ _ _ reqs => reqs.map (·.t)
  | .rel _ _ => []
  | .tmov tile _ _ dir _ _ _ => if dir = 0 ∨ dir = 2 then [tile] else []
  | .mmbwd dy dx _ w _ _ keep _ _ => if keep then [dy, dx] else [dy, dx, w]
  | .zdrain _ _ _ _ => []
  | .gacc form z _ _ => if form = 4 then [] else [z]

def BgOp.writes : BgOp → List Nat
  | .pass _ _ _ w z _ keep _ => if keep then [z] else [z, w]
  | .gather arr w nw j reqs =>
    (rangeFrom j (nw - j)).flatMap fun i => wCode arr (w + i) :: reqs.map fun r => zCode arr (r.z + i)
  | .rel tile _ => [tile]
  | .tmov tile pk _ dir _ _ _ => if dir = 2 then [pk] else if dir = 0 then [] else [tile]
  | .mmbwd _ _ _ w z _ keep _ _ => if keep then [z] else [z, w]
  | .zdrain z _ _ _ => [z]
  | .gacc form z _ _ => if form = 4 then [z] else []

def BgOp.touches (o : BgOp) (tile : Nat) : Bool := o.reads.contains tile || o.writes.contains tile

/-- Arrays whose queue holds the operation (R170, R216). -/
def BgOp.queues : BgOp → List Nat
  | .pass arr _ _ _ _ _ _ _ => [arr]
  | .gather arr _ _ _ _ => [arr]
  | .mmbwd _ _ _ _ _ _ _ _ _ => [0, 1]
  | .zdrain _ _ _ _ => [1]
  | .gacc _ z _ _ => [(z - 16) / 8]
  | _ => []

/-- Arrays that the operation occupies while it runs: a GACC uses only the buffer port (R216). -/
def BgOp.runsOn : BgOp → List Nat
  | .gacc _ _ _ _ => []
  | o => o.queues

def BgOp.isTmov : BgOp → Bool
  | .tmov _ _ _ _ _ _ _ => true
  | _ => false
/-- The operation is a release of the tile. -/
def BgOp.releases (o : BgOp) (code : Nat) : Bool :=
  match o with
  | .rel t _ => t == code
  | _ => false
def BgOp.isGacc : BgOp → Bool
  | .gacc _ _ _ _ => true
  | _ => false
def BgOp.isDrain : BgOp → Bool
  | .zdrain _ _ _ _ => true
  | _ => false
/-- An array instruction (R152, R216). -/
def BgOp.isArray (o : BgOp) : Bool := !o.queues.isEmpty

/-- A later operation waits for an earlier one: a shared tile that one of them writes, a shared array, the buffer port, the
TMOV path, or the drain shadow (R166, R170, R225, R229). -/
def BgOp.before (a b : BgOp) : Bool :=
  a.writes.any b.touches || b.writes.any a.touches || a.runsOn.any b.runsOn.contains
    || (a.isGacc && b.isGacc) || (a.isTmov && b.isTmov) || (a.isDrain && b.isDrain)

/-- Operation i of the core's list waits for none before it. -/
def Core.free? (c : Core) (i : Nat) (o : BgOp) : Bool := (c.bg.take i).all fun a => !a.before o

/-- The first operation of a kind, with its place. -/
def Core.firstBg (c : Core) (p : BgOp → Bool) : Option (Nat × BgOp) :=
  (c.bg.zipIdx.find? fun x => p x.1).map fun x => (x.2, x.1)

def Core.dropBg (c : Core) (i : Nat) : Core := { c with bg := c.bg.eraseIdx i }

/-- Instructions accepted on an array and not yet complete (MXSTAT.Q0, Q1). -/
def Core.queued (c : Core) (arr : Nat) : Nat := (c.bg.filter fun o => o.queues.contains arr).length

/-- A tile is named by accepted work, or by a request of an open gather group (R166). -/
def Core.tileBusy (c : Core) (tile : Nat) : Bool :=
  c.bg.any (·.touches tile)
    || [c.gather0, c.gather1].any fun g => match g with
      | some g => g.reqs.any fun r => r.t == tile
      | none => false
/-- Accepted work writes the tile. -/
def Core.tileWriting (c : Core) (tile : Nat) : Bool := c.bg.any fun o => o.writes.contains tile

/-! ### Rows -/

/-- A row of a tile as a number. -/
def Tile.row (t : Tile) (code r : Nat) : Nat := ofLe (readBytes t.data (rowBytes code * r) (rowBytes code))
/-- Place of the scale byte of group g of row r (R162, R163). -/
def scaleKey (code r g : Nat) : Nat := if isW code then r else 4 * r + g
/-- An element of a row and its scale. -/
def Tile.elem (t : Tile) (code fmt r p : Nat) : Nat × Nat :=
  ((t.row code r >>> (elemBits fmt * p)) % 2 ^ elemBits fmt,
   if blockScaled fmt then (t.scale.get 0 (scaleKey code r (p / 32))).toNat else 127)
/-- FP32 element (r, c) of a Z tile. -/
def Tile.z (t : Tile) (r c : Nat) : Nat := ofLe (readBytes t.data (128 * r + 4 * c) 4)

/-- Write a row; an armed injection stores an error in it (R193, R414). -/
def State.putRow (s : State) (k code r v : Nat) (scales : List (Nat × Nat)) : State :=
  let (e, s) := s.armedErr (unitOfKey k) [0x0105] (s.locOf k)
  s.updCore k fun c => c.updTile code fun t => { t with
    data := writeBytes t.data (rowBytes code * r) (leBytes (rowBytes code) v)
    scale := scales.foldl (fun m g => m.set 0 (scaleKey code r g.1) (BitVec.ofNat 8 g.2)) t.scale
    bad := t.bad.filter (fun b => b / 8 != r) ++ (if e = 0 then [] else [r * 8 + e]) }

/-- Meet the errors of a row (R193): a corrected one is counted and gone; answers whether an uncorrectable one, reported with the
given severity, stands there. -/
def State.meetRow (s : State) (k code r sev : Nat) : Bool × State :=
  (((s.core k).tile code).bad.filter fun b => b / 8 == r).foldl (fun (acc : Bool × State) b =>
    let fix := b % 4 == 1
    let s := acc.2.detect (unitOfKey k)
      { code := 0x0105, sev := if fix then 1 else sev, loc := acc.2.locOf k, injected := decide (4 ≤ b % 8) }
    if fix then (acc.1, s.updCore k fun c => c.updTile code fun t => { t with bad := t.bad.filter (· != b) })
    else (true, s)) (false, s)

/-- MCHECK address of a tile row (R193). -/
def tileAddr (code r : Nat) : W64 := w64 (code * 65536 + r)

/-- Background work that met an uncorrectable error raises MCHECK at the next boundary (R193, R411). -/
def State.bgMchk (s : State) (k code : Nat) (addr : W64) : State :=
  s.raiseMchk k { num := code, index := s.newest (unitOfKey k), addr := addr, deferred := true, injected := true }

/-- Convert a run of elements to a tile format (R181, R200, R210): element bits, group scales and flags. `copy`: equal formats are
copied bit for bit, which R200 decides for the whole copy. -/
def convRun (copy : Bool) (sf df : Nat) (xs : List (Nat × Nat)) : List Nat × List Nat × Flags :=
  if blockScaled df then
    let gs := (List.range ((xs.length + 31) / 32)).map fun g =>
      let ch := (xs.drop (32 * g)).take 32
      if copy && sf = df then ((ch.head?.map (·.2)).getD 0, ch.map (·.1), (0 : Flags))
      else encodeGroup df 0 (ch.map (valueOf sf))
    (gs.flatMap (·.2.1), gs.map (·.1), gs.foldl (fun f g => f ||| g.2.2) 0)
  else
    let es := xs.map fun x => if copy && sf = df then (x.1, (0 : Flags)) else encodeElem df 0 (valueOf sf x)
    (es.map (·.1), [], es.foldl (fun f e => f ||| e.2) 0)

/-- Walk elements lie in one group of a block-scaled tensor, in order (R134, R200). -/
def Desc.oneGroup (d : Desc) (es : List Nat) : Bool :=
  match es with
  | [] => true
  | e :: _ =>
    let o := d.offBits e
    o % ((32 * d.bits : Nat) : Int) == 0 && es.length == 32
      && (es.zipIdx.all fun x => d.offBits x.1 == o + ((x.2 * d.bits : Nat) : Int))

/-- The chunks of 32 of a walk of n elements: the groups of a block-scaled tile row, and of a tensor whose groups run along its
walk. -/
def walkGroups (n : Nat) : List (List Nat) :=
  (List.range ((n + 31) / 32)).map fun g => rangeFrom (32 * g) (min 32 (n - 32 * g))

/-- The scale groups of a block-scaled destination tensor, by walk elements: along its walk, or across it over 32 rows (R134,
R200). -/
def Desc.groups (d : Desc) : List (List Nat) :=
  if d.crossed then
    (List.range (d.count / 32)).map fun g => (List.range 32).map fun j => g / d.dim 0 * (32 * d.dim 0) + g % d.dim 0 + d.dim 0 * j
  else walkGroups d.count

/-- A copy from the tensor changes no group's membership: every group of the destination receives, in order, the elements of one
group of the source (R200). -/
def Desc.keepsGroups (d : Desc) (groups : List (List Nat)) : Bool := groups.all d.oneGroup

/-! ### Credits and emptying (R149, R150, R184) -/

/-- Credits of a tile or W register. -/
def Core.tileCost (c : Core) (code : Nat) : Nat :=
  if isW code then 1 else if isT code then ((c.tile code).rows * 64 + 2047) / 2048 else 0

/-- A unit's credits grow, held at 4,095 (R150). -/
def StreamUnit.credit (u : StreamUnit) (n : Nat) : StreamUnit :=
  if 4095 < u.credits + n then { u with credits := 4095, crovf := true } else { u with credits := u.credits + n }

def Core.unit (c : Core) (i : Nat) : StreamUnit := c.units.get {} i
def Core.setUnit (c : Core) (i : Nat) (u : StreamUnit) : Core := { c with units := c.units.set {} i u }

/-- A return of credits to a unit: discarded unless it is RUNNING or HALTED (R150). -/
def Core.creditUnit (c : Core) (i n : Nat) : Core :=
  let u := c.unit i
  if n ≠ 0 ∧ (u.state = 1 ∨ u.state = 2) then c.setUnit i (u.credit n) else c

/-- Credits return to the unit that wrote a tile. -/
def Core.returnCredits (c : Core) (writer n : Nat) : Core := if writer < 8 then c.creditUnit writer n else c

/-- A tile becomes EMPTY: contents, POISON and WRITER cleared; its ROWS stay. -/
def Core.emptyTile (c : Core) (code : Nat) : Core := c.updTile code fun t => { rows := t.rows }

/-- A released or loaded tile empties and returns its credits. -/
def Core.retire (c : Core) (code writer : Nat) : Core :=
  (c.emptyTile code).returnCredits writer (c.tileCost code)

/-- A W register whose contents the operation will load into cells (R177, R220). -/
def BgOp.loads (o : BgOp) (code : Nat) : Bool := isW code && o.writes.contains code && o.isArray

/-- An accepted load will have emptied the W register: it is EMPTY to later instructions (R166, R177). -/
def Core.wTaken (c : Core) (code : Nat) : Bool := c.bg.any fun o => o.loads code


/-- The Z tile holds data for an instruction accepted now: FULL (R164). -/
def Core.zHolds (c : Core) (code : Nat) : Bool := (c.tile code).st == 2

/-- A Z tile becomes FULL, written by an array, at acceptance (R164). -/
def Core.zFull (c : Core) (code writer : Nat) : Core :=
  c.updTile code fun t => { t with st := 2, writer := writer, fmt := 0 }

/-! ### Gather groups (R187, R188) -/

def Core.group (c : Core) (arr : Nat) : Option Gather := if arr = 0 then c.gather0 else c.gather1
def Core.setGroup (c : Core) (arr : Nat) (g : Option Gather) : Core :=
  if arr = 0 then { c with gather0 := g } else { c with gather1 := g }

/-- The array's open group, when a request of it still has to read T tile `tile`. -/
def Core.groupReading (c : Core) (arr tile : Nat) : Option Gather :=
  (c.group arr).filter fun g => g.reqs.any fun r => r.t == tile

/-- A release (tile, writer) takes its place after everything accepted that names the tile: after an open group that has still to
read it, else in the core's order (R164, R166, R184). -/
def Core.queueRel (c : Core) (r : Nat × Nat) : Core :=
  match c.groupReading 0 r.1, c.groupReading 1 r.1 with
  | some g, _ => c.setGroup 0 (some { g with rels := g.rels ++ [r] })
  | none, some g => c.setGroup 1 (some { g with rels := g.rels ++ [r] })
  | none, none => { c with bg := c.bg ++ [.rel r.1 r.2] }

/-- Release a tile (R184): EMPTY at once where nothing accepted names it, else RELEASING until then. A W register that an accepted load
will empty is EMPTY already to a later instruction (DESIGN CHOICE: notes/assumptions/192). -/
def Core.release (c : Core) (code : Nat) : Core :=
  let t := c.tile code
  if t.st = 0 ∨ t.st = 4 ∨ c.wTaken code then c
  else if c.tileBusy code then (c.updTile code fun t => { t with st := 4 }).queueRel (code, t.writer)
  else c.retire code t.writer

/-- Run the open group of an array, where the array's queue has room for it (R170): it takes its place in the array's order, its
releases after it, or after the other array's open group where that has still to read the tile. -/
def Core.runGroup (c : Core) (arr : Nat) : Core :=
  match c.group arr with
  | none => c
  | some g =>
    if 8 ≤ c.queued arr then c else
    let c := c.setGroup arr none
    g.rels.foldl Core.queueRel { c with bg := c.bg ++ [.gather arr g.w g.nw 0 g.reqs] }

def Core.runGroups (c : Core) : Core := (c.runGroup 0).runGroup 1

/-- A request of the array's open group names a tile. -/
def Core.groupNames (c : Core) (arr tile : Nat) : Bool :=
  match c.group arr with
  | some g => g.reqs.any (fun r => r.t == tile || (rangeFrom r.z g.nw).any fun z => zCode arr z == tile)
      || (rangeFrom g.w g.nw).any (fun w => wCode arr w == tile)
  | none => false

/-- Run the groups of which a request names a tile (R188, R228). -/
def Core.runGroupOf (c : Core) (tile : Nat) : Core :=
  [0, 1].foldl (fun c arr => if c.groupNames arr tile then c.runGroup arr else c) c

/-- An open group that names the tile could not run. -/
def Core.gathering (c : Core) (tile : Nat) : Bool := [0, 1].any fun arr => c.groupNames arr tile

/-- An open group holds a release of the tile (R187). -/
def Core.groupReleases (c : Core) (tile : Nat) : Bool :=
  [0, 1].any fun arr => match c.group arr with
    | some g => g.rels.any fun r => r.1 == tile
    | none => false

/-- Accepted work writes the tile, or an open group's will. -/
def Core.willWrite (c : Core) (tile : Nat) : Bool := c.tileWriting tile || (!isT tile && c.gathering tile)

/-- What is accepted and not complete, an open group's requests with it. -/
def Core.accepted (c : Core) : List BgOp :=
  c.bg ++ [0, 1].filterMap fun arr => (c.group arr).map fun g => .gather arr g.w g.nw 0 g.reqs

/-- A request of a group finds data in Z tile `code` at block j: it was FULL when the group's first request that names it was
accepted, or a request that comes earlier in the order of the blocks has written it (R187, R189). -/
def gatherHeld (arr : Nat) (reqs : List GReq) (j i code : Nat) : Bool :=
  ((reqs.find? fun r => decide (zCode arr r.z ≤ code ∧ code < zCode arr r.z + r.zHeld.length)).map
      fun r => r.zHeld.getD (code - zCode arr r.z) false).getD false
    || reqs.zipIdx.any fun x =>
      (List.range (j + 1)).any fun b => zCode arr (x.1.z + b) == code && (decide (b < j) || decide (x.2 < i))

/-- An accepted operation overwrites every configured row of the tile, or empties it, and so clears its POISON (R193). -/
def BgOp.clears (o : BgOp) (c : Core) (code : Nat) : Bool :=
  let rows := fun t => (c.tile t).rows
  match o with
  | .tmov _ _ _ _ _ _ _ => o.writes.contains code
  | .rel t _ => t == code
  | .pass _ t tf _ z acc _ held => z == code && (!held || (!acc && decide (rows z ≤ rows t * packOf tf)))
  | .gather arr _ nw j reqs => reqs.zipIdx.any fun x => (rangeFrom j (nw - j)).any fun b =>
      zCode arr (x.1.z + b) == code
        && (!gatherHeld arr reqs b x.2 code || (!x.1.acc && decide (rows code ≤ rows x.1.t * packOf x.1.tf)))
  | .mmbwd dy _ _ _ z acc _ _ held => z == code && (!held || (!acc && decide (rows z ≤ rows dy)))
  | .zdrain z _ _ held => z == code && !held
  | .gacc form z row _ => form == 4 && z == code
      && (rangeFrom (row / 512) ((row + rows z - 1) / 512 + 1 - row / 512)).all fun g => !c.gbpois.getLsbD g

/-- POISON as an instruction accepted now sees it: after every earlier accepted instruction (R166, R176, R182, R217). -/
def Core.poisoned (c : Core) (code : Nat) : Bool := (c.tile code).poison && !c.accepted.any fun o => o.clears c code

/-- Raise TILE (R76, R160). -/
def tileTrap {α : Type} (code : Nat) : M α := trap 0x06 code

end Sys2Proof.Machine
end

