-- ==== Sys2Proof/Machine/Vector.lean ====
section
/-! DEFINITION. The vector engine and reduction unit (R95 to R126): operands, forms, masks, granules, stops and restarts, taps and
folds, flags and the completion trap. -/

namespace Sys2Proof.Machine
open Sys2Proof

def vlNo : Nat := 0x070
def vflagsNo : Nat := 0x071
def rcfgNo : Nat := 0x074
def raccNo (k : Nat) : Nat := 0x078 + k
def pNo (k : Nat) : Nat := 0x080 + k
def maskNo (k : Nat) : Nat := 0x090 + k

/-- VFLAGS.RM (R99). -/
def Core.vrm (c : Core) : RMode := bitsOf (c.sr vflagsNo).toNat 7 6
/-- BASE of a pointer or mask register (R99). -/
def Core.rowBase (c : Core) (n : Nat) : Nat := (c.sr n).toNat % 4096
/-- Add STEP to BASE (R100). -/
def advanceRow (v : W64) : W64 :=
  let b := ((v.toNat % 4096 : Nat) : Int) + signed 12 (bitsOf v.toNat 27 16)
  (v &&& ~~~(0xFFF : W64)) ||| w64i (b % 4096)
/-- OR flags into VFLAGS [5:0] and IRAISED (R122). -/
def Core.orVflags (c : Core) (f : Flags) : Core :=
  c.setSr vflagsNo (c.sr vflagsNo ||| w64 (f.toNat * 65537))

/-- Format code of a type field (R110). -/
def typeFmt (ty : BitVec 2) : Nat := if ty = 3 then 5 else ty.toNat
/-- The type is packed (R110). -/
def typePacked (ty : BitVec 2) : Bool := ty == 1 || ty == 2

/-! ### Operands (R102 to R104) -/

/-- An operand: a pointer's number and first row, a memory base, or a descriptor. -/
inductive VOpnd where
  | ptr (k row : Nat)
  | mem (a : W64)
  | desc (d : Desc)
  deriving DecidableEq, Repr

/-- What an operand field names (R102). -/
def Core.opnd (c : Core) (native : Bool) (f : BitVec 5) : VOpnd :=
  let k := f.toNat % 16
  if native == (f.getLsbD 4) then .ptr k (c.rowBase (pNo k))
  else if native then .desc (c.descOf k)
  else .mem (c.rx f)

/-- An operand with its format and the elements it holds per result. -/
structure VRole where
  op : VOpnd
  fmt : Nat
  per : Nat := 1
  deriving DecidableEq, Repr

/-- A resumable vector instruction with its operands decoded. -/
structure VJob where
  n : Nat
  /-- operands read, in the order A, B, D -/
  srcs : List VRole
  dst : Option VRole := none
  /-- the governing mask (0: none) and the selecting mask of VSEL -/
  gmask : Nat := 0
  sel : Nat := 0
  /-- compares and mask logic: the destination mask -/
  mdst : Option Nat := none
  /-- mask registers named, and mask logic's sources -/
  masks : List Nat := []
  logic : List Nat := []
  /-- a beat holds two granules (R124) -/
  packed : Bool := false
  fold : Option (Nat × Nat) := none
  copy : Bool := false
  lane : List Nat → Nat × Flags

def VOpnd.ptr? : VOpnd → Option Nat
  | .ptr k _ => some k
  | _ => none
def VOpnd.desc? : VOpnd → Option Desc
  | .desc d => some d
  | _ => none

/-- Size in bytes of an element of an operand. -/
def VRole.size (r : VRole) : Nat := elemBits r.fmt / 8

/-- The operands in the order D, A, B, each once. -/
def VJob.roles (j : VJob) : List VRole := j.dst.toList ++ j.srcs

/-! ### The checks of the native form (R103, R136, R200) -/

/-- A descriptor that the native form refuses: by R136 always, and with elements to move by R129, R142 and R200 too (R67). -/
def VRole.badDesc (r : VRole) (isDst zero : Bool) : Bool :=
  match r.op with
  | .desc d => decide (2 ≤ d.space) || decide (13 ≤ d.fmt) || (isDst && d.scaled && d.crossed)
      || (!zero && (d.malformed || (d.scaled && d.space == 1) || (d.scaled && d.dim 0 % 32 != 0)))
  | _ => false

/-- Element count of a native instruction, or none where R103 raises ILLEGAL. -/
def nativeCount (rs : List VRole) : Option Nat :=
  let ds := rs.filterMap fun r => r.op.desc?.map fun d => (d.count, r.per)
  match ds with
  | [] => none
  | (c, p) :: _ =>
    let n := c / p
    if ds.all (fun x => x.1 % x.2 == 0 && x.1 / x.2 == n) && decide (n ≤ 2 ^ 32 - 64) then some n else none

/-- Set the element count: VL, or the native count after its checks. -/
def VJob.counted (j : VJob) (c : Core) (native : Bool) : Option VJob :=
  if native then
    match nativeCount j.roles with
    | some n =>
      if j.srcs.any (·.badDesc false (n == 0)) || j.dst.toList.any (·.badDesc true (n == 0)) then none
      else some { j with n := n }
    | none => none
  else some { j with n := (c.sr vlNo).toNat }

/-! ### Masks (R101) -/

def Core.maskAddr (c : Core) (k e : Nat) : Nat := (c.rowBase (maskNo k) * 64 + e / 8) % ocSize
def readMask (k m e : Nat) : M Bool := do
  let c ← getC k
  let b ← ocRead k (c.maskAddr m e) 1
  return (ofLe b).testBit (e % 8)
/-- The write of a granule's mask bits; the other bits of their bytes keep their values. -/
def Core.putMask (c : Core) (m : Nat) (out : List (Nat × Bool)) : Put :=
  .oc ((out.map fun o => c.maskAddr m o.1).dedup.map fun a =>
    let mine := out.filter fun o => c.maskAddr m o.1 == a
    (a, mine.foldl (fun (b : Byte) o => BitVec.ofNat 8 (setBit b.toNat (o.1 % 8) o.2)) (c.oc.get 0 a), decide (mine.length = 8)))

/-! ### Reading and writing operands (R104, R106, R107, R125) -/

/-- Translate and check the elements of an operand that lie in memory. -/
def VRole.check (r : VRole) (p : MemPort) (acc : Acc) (es : List Nat) : M Unit :=
  match r.op with
  | .ptr _ _ => pure ()
  | .mem a => forEach es fun e => p.see acc (a + w64 (e * r.per * r.size)) (r.per * r.size)
  | .desc d => d.check p 0 acc (es.flatMap fun e => rangeFrom (e * r.per) r.per)

/-- The bits of one source element, converted to the operand's format, with the flags of the conversion. -/
def VRole.readOne (r : VRole) (k : Nat) (p : MemPort) (rm : RMode) (e : Nat) : M (Nat × Flags) :=
  match r.op with
  | .ptr _ row => do return (ofLe (← ocRead k ((row * 64 + e * r.size) % ocSize) r.size), 0)
  | .mem a => do return (← p.load (a + w64 (e * r.size)) r.size, 0)
  | .desc d => do
    let x ← d.readElem k p 0 e
    return if d.fmt = r.fmt then (x.1, 0) else encodeElem r.fmt rm (valueOf d.fmt x)

/-- The source value of a result: its elements packed from the least significant upward. -/
def VRole.read (r : VRole) (k : Nat) (p : MemPort) (rm : RMode) (e : Nat) : M (Nat × Flags) := do
  let xs ← collect (rangeFrom (e * r.per) r.per) (r.readOne k p rm)
  return (packBits (elemBits r.fmt) (xs.map (·.1)), xs.foldl (fun f x => f ||| x.2) 0)

/-- The 32-element groups that hold some elements. -/
def groupsOf (es : List Nat) : List Nat := (es.map (· / 32)).dedup

/-- Elements of a destination whose memory a granule reaches: whole groups of a block-scaled format (R107). -/
def VRole.reach (r : VRole) (es : List Nat) : List Nat :=
  match r.op with
  | .desc d => if d.scaled then (groupsOf es).flatMap fun g => rangeFrom (32 * g) 32 else es
  | _ => es

/-- The writes of one scale group of which some elements have new values; a masked-off element keeps its decoded old value and
raises no flag. A group with one is read whole, which checks all of its bytes (R107, R199). -/
def putScaled (k : Nat) (p : MemPort) (d : Desc) (rm : RMode) (g : Nat) (new : Nat → Option FV) : M (List Put × Flags) := do
  let es := rangeFrom (32 * g) 32
  let part := es.any fun e => (new e).isNone
  let vals ← collect es fun e => do
    let old ← if part then valueOf d.fmt <$> d.readElem k p 0 e else pure (.zero false)
    return (new e).getD old
  let (x, bits, _) := encodeGroup d.fmt rm vals
  let fl := es.foldl (fun f e =>
    match new e with
    | none => f
    | some v =>
      f ||| (if x = 255 then (if v.isInf then flNV else 0)
             else ((fmtOf d.fmt).encode rm (v.scale (127 - (x : Int)))).2)) (0 : Flags)
  return (d.putGroup 0 (32 * g) x bits, fl)

/-- Join the writes and flags of a granule's groups. -/
def joinPuts (l : List (List Put × Flags)) : List Put × Flags := (l.flatMap (·.1), l.foldl (fun f x => f ||| x.2) 0)

/-- The writes of the results of a granule's elements: pairs of an element and its bits. -/
def VRole.put (r : VRole) (k : Nat) (p : MemPort) (rm : RMode) (out : List (Nat × Nat)) : M (List Put × Flags) :=
  match r.op with
  | .ptr _ row => return (out.map fun o => .oc (ocBytesAt (row * 64 + o.1 * r.size) (leBytes r.size o.2)), 0)
  | .mem a => return (out.map fun o => .mem (a + w64 (o.1 * r.size)) r.size o.2, 0)
  | .desc d =>
    if d.scaled then joinPuts <$> collect (groupsOf (out.map (·.1))) fun g =>
      putScaled k p d rm g fun e => (out.find? fun o => o.1 == e).map fun o => decodeElem r.fmt o.2
    else return joinPuts (out.map fun o =>
      let (b, f) := if d.fmt = r.fmt then (o.2, 0) else encodeElem d.fmt rm (decodeElem r.fmt o.2)
      ([d.putElem 0 o.1 b], f))

/-- A native VMOV between descriptors of one format: bits and scales are copied; a group that is masked off in part is decoded and
encoded, and so is every group where the copy changes the membership of one (R107, R200). Answers the lane values for a tap, and the writes. -/
def copyGranule (k : Nat) (p : MemPort) (rm : RMode) (da dd : Desc) (fmt : Nat) (es : List Nat) :
    M (List (Nat × Nat) × List Put × Flags) := do
  let xs ← collect es fun e => do return (e, ← da.readElem k p 0 e)
  let lanes := xs.map fun x => (x.1, if da.fmt = fmt then x.2.1 else (encodeElem fmt rm (valueOf da.fmt x.2)).1)
  if dd.scaled then
    let copy := da.keepsGroups (walkGroups da.count)
    let r := joinPuts (← collect (groupsOf es) fun g => do
      let mine := xs.filter fun x => x.1 / 32 == g
      if copy && mine.length = 32 then
        return (dd.putGroup 0 (32 * g) ((mine.head?.map (·.2.2)).getD 0) (mine.map (·.2.1)), (0 : Flags))
      else
        putScaled k p dd rm g fun e => (mine.find? fun x => x.1 == e).map fun x => valueOf da.fmt x.2)
    return (lanes, r)
  else return (lanes, xs.map fun x => dd.putElem 0 x.1 x.2.1, 0)

/-! ### Reduction (R118, R119) -/

/-- Identity of a reduction operation, FP32 bits. -/
def foldIdentity (op : Nat) : Nat := if op = 3 then 0xFF800000 else if op = 4 then 0x7F800000 else 0

/-- combine of R119. -/
def foldCombine (op x y : Nat) : Nat × Flags :=
  if op ≤ 2 then fp32Add x y
  else
    let a := fpDec x
    let b := fpDec y
    let r := if op = 3 then fvMax a b else if op = 4 then fvMin a b else fvMax a.absv b.absv
    fpEnc 0 (r, 0)

/-- One level of the pairwise tree. -/
def foldPairs (op : Nat) : List Nat → List Nat × Flags
  | a :: b :: l =>
    let (r, f) := foldCombine op a b
    let (rs, g) := foldPairs op l
    (r :: rs, f ||| g)
  | l => (l, 0)

/-- The fixed tree over 64 lanes: 6 levels. -/
def foldTree (op : Nat) (lanes : List Nat) : Nat × Flags :=
  let (l, f) := (List.range 6).foldl (fun (acc : List Nat × Flags) _ =>
    let (l, f) := foldPairs op acc.1
    (l, acc.2 ||| f)) (lanes, (0 : Flags))
  (l.headD 0, f)

/-- Fold 64 FP32 lanes into one accumulator. -/
def Core.fold1 (c : Core) (op acc : Nat) (lanes : List Nat) : Core × Flags :=
  let sq := if op = 1 then lanes.map fun v => fp32Mul v v else lanes.map fun v => (v, (0 : Flags))
  let (v, f) := foldTree op (sq.map (·.1))
  let (r, g) := foldCombine op (c.sr (raccNo acc)).toNat v
  (c.setSr (raccNo acc) (w64 r), sq.foldl (fun f x => f ||| x.2) (f ||| g))

/-- racc_fold: MOM is the SUM fold and the SUMSQ fold of the same lanes. -/
def Core.raccFold (c : Core) (op acc : Nat) (lanes : List Nat) : Core × Flags :=
  if op = 2 then
    let (c, f) := c.fold1 0 acc lanes
    let (c, g) := c.fold1 1 (acc + 1) lanes
    (c, f ||| g)
  else c.fold1 op acc lanes

/-- Codes 6 and 7, and MOM on an odd accumulator, are illegal (R118). -/
def badFold (op acc : Nat) : Bool := decide (6 ≤ op) || (op == 2 && acc % 2 == 1)

/-- The 64 lanes of a granule as FP32: lane values of elements, the identity elsewhere. -/
def foldLanes (op fmt g : Nat) (out : List (Nat × Nat)) : List Nat :=
  (List.range 64).map fun i =>
    match out.find? fun o => o.1 == g + i with
    | some o => if fmt = 0 then o.2 else (fpEnc 0 (decodeElem fmt o.2, 0)).1
    | none => foldIdentity op

/-! ### Granules -/

/-- One granule of the instruction (the pseudocode after R113). -/
def VJob.granule (j : VJob) (k : Nat) (g : Nat) : M Unit := do
  let c ← getC k
  let p := l1Port k c.level
  let rm := c.vrm
  let es := rangeFrom g (min 64 (j.n - g))
  match j.logic, j.mdst with
  | _ :: _, some m => do
      let out ← collect es fun e => do
        let bs ← collect j.logic fun x => readMask k x e
        return (e, (j.lane (bs.map b2n)).1 != 0)
      p.putAll k [(← getC k).putMask m out]
  | _, _ =>
    let on ← if j.gmask = 0 then pure (es.map fun e => (e, true))
      else collect es fun e => do return (e, ← readMask k j.gmask e)
    let es := (on.filter (·.2)).map (·.1)
    forEach j.srcs fun r => r.check p .load es
    match j.dst with
    | some r => r.check p .store (r.reach es)
    | none => pure ()
    let res : List (Nat × Nat) × (List Put × Flags) × Nat ←
      match j.copy, j.srcs, j.dst with
      | true, [⟨.desc da, _, _⟩], some ⟨.desc dd, fmt, _⟩ => do
        let (o, w) ← copyGranule k p rm da dd fmt es
        pure (o, w, fmt)
      | _, _, _ => do
        let ins : List (Nat × List Nat × Flags) ← collect es fun e => do
          let xs ← collect j.srcs fun r => r.read k p rm e
          let sel ← if j.sel = 0 then pure [] else (fun b => [b2n b]) <$> readMask k j.sel e
          return (e, xs.map (·.1) ++ sel, xs.foldl (fun f x => f ||| x.2) (0 : Flags))
        let outs := ins.map fun i => (i.1, j.lane i.2.1)
        let out := outs.map fun o => (o.1, o.2.1)
        let fl := outs.foldl (fun f o => f ||| o.2.2) (ins.foldl (fun f i => f ||| i.2.2) (0 : Flags))
        let w ← match j.dst, j.mdst with
          | some r, _ => r.put k p rm out
          | none, some m => do
            let c ← getC k
            pure ([c.putMask m (out.map fun o => (o.1, o.2 != 0))], 0)
          | none, none => pure ([], 0)
        pure (out, (w.1, fl ||| w.2), (j.dst.orElse fun _ => j.srcs.head?).elim 0 (·.fmt))
    p.putAll k res.2.1.1
    modC k fun c => c.orVflags res.2.1.2
    match j.fold with
    | some (op, acc) =>
      modC k fun c =>
        let (c, f) := c.raccFold op acc (foldLanes op res.2.2 g res.1)
        c.orVflags f
    | none => pure ()

/-- A position word (R90). -/
def posWord (pc : W64) (i : Nat) : W64 := w64 (2 ^ 63 + bitsOf pc.toNat 16 2 * 2 ^ 48 + i % 2 ^ 32)

/-- The start of a resumable instruction (R91): RESUME for another instruction's position. -/
def posStart (k no detail : Nat) (pc : W64) : M Nat := do
  let pos := ((← getC k).sr no).toNat
  if pos.testBit 63 then
    if bitsOf pos 62 48 ≠ bitsOf pc.toNat 16 2 then do
      modC k fun c => c.setSr no 0
      trap 0x07 detail
    else return pos % 2 ^ 32
  else return 0

/-- A beat of a vector instruction on a compute core (R388). -/
def State.meterBeat (s : State) (k : Nat) : State :=
  if isCompute k then s.updDie (k / 144) fun d => { d with meters := { d.meters with vec := d.meters.vec + 1 } } else s

/-- Granules from `g`, `left` of them before an event stops the instruction, as a machine check that has arisen does (R77, R90). A
fault stops it at the granule's start. `beat`: the granule opens a beat (R124); a machine check of its lower granule stops the
instruction before the upper one (DESIGN CHOICE: notes/assumptions/142). -/
def VJob.run (j : VJob) (k : Nat) (pc : W64) : Nat → Nat → Bool → Option Nat → M Unit
  | 0, _, _, _ => pure ()
  | f + 1, g, beat, left => do
    let stopAt := modC k fun c => c.setSr vposNo (posWord pc g)
    if left = some 0 || !(← getC k).mchk.isEmpty then do
      stopAt
      stall
    else do
      tryCatch (j.granule k g) fun e => do
        stopAt
        throw e
      if beat then modify fun s => s.meterBeat k
      j.run k pc f (g + 64) (!(j.packed && beat)) (left.map (· - 1))

/-- Completion (R100, R123): pointers and masks advance, VPOS clears, VTRAP where a raised flag is enabled. -/
def VJob.complete (j : VJob) (k : Nat) : M Flow := do
  modC k fun c =>
    let ptrs := (j.roles.filterMap (·.op.ptr?)).dedup
    let c := ptrs.foldl (fun c p => c.setSr (pNo p) (advanceRow (c.sr (pNo p)))) c
    let c := j.masks.dedup.foldl (fun c m => c.setSr (maskNo m) (advanceRow (c.sr (maskNo m)))) c
    c.setSr vposNo 0
  let v := ((← getC k).sr vflagsNo).toNat
  if bitsOf v 21 16 &&& bitsOf v 13 8 = 0 then return .next else return .vtrap (bitsOf v 21 16)

/-- An operand or mask shares rows with a TMOV that has not completed (R183). -/
def VJob.meetsTmov (j : VJob) (c : Core) : Bool :=
  c.bg.any fun op =>
    match c.tmovRange op with
    | none => false
    | some (b, m, _) =>
      (j.roles.any fun r =>
        match r.op with
        | .ptr _ row => rowsMeet row ((j.n * r.per * r.size + 63) / 64) b m
        | .desc d => d.space == 1 && (List.range (j.n * r.per)).any fun e => d.touchesRows 0 e b m
        | .mem _ => false)
      || (j.masks ++ j.logic).any fun x => rowsMeet (c.rowBase (maskNo x)) ((j.n + 511) / 512) b m

/-- Run a decoded instruction after its encoding checks (R91, R103, R104, R121, R183). One that raises MISALIGN before its first
granule has not started: VFLAGS.IRAISED stays as it was (DESIGN CHOICE: notes/assumptions/178). -/
def VJob.exec (j : VJob) (k : Nat) (stop : Option Nat) : M Flow := do
  let c ← getC k
  let start ← posStart k vposNo 1 c.pc
  if j.n = 0 then do
    modC k fun c => c.setSr vposNo 0
    return .next
  else if j.n ≤ start then j.complete k
  else do
    forEach j.roles fun r =>
      match r.op with
      | .mem a => if a.toNat % r.size ≠ 0 then trap 0x03 r.size a else pure ()
      | _ => pure ()
    if j.meetsTmov c then stall
    if !(c.sr vposNo).getLsbD 63 then
      modC k fun c => c.setSr vflagsNo (c.sr vflagsNo &&& ~~~(w64 0x3F0000))
    let left := if j.packed then stop.map fun n => (n + 1) / 2 * 2 else stop
    j.run k c.pc ((j.n - start + 63) / 64) start true left
    j.complete k

/-! ### Element-wise instructions (R111, R112) -/

/-- A floating lane: its value from a, b and d, rounded once to the type. -/
def fpLane (g : RMode → FV → FV → FV → FV × Flags) (bF : Bool) (fmt : Nat) (rm : RMode) (a b d : Nat) : Nat × Flags :=
  let f := fmtOf fmt
  let (v, fl) := g rm (f.decode a) (if bF then fpDec b else f.decode b) (f.decode d)
  let (r, f2) := f.encode rm v
  (r, fl ||| f2)

/-- An INT32 lane, wrapping, with no flag. -/
def intLane (g : Int → Int → Int) (a b : Nat) : Nat × Flags :=
  ((g (signed 32 a) (signed 32 b) % 2 ^ 32).toNat, 0)

/-- What an element-wise instruction is: the operands it reads, whether f[B] is one, its types, and its lane. -/
structure EwOp where
  usesA : Bool := true
  usesB : Bool := true
  usesD : Bool := false
  fForm : Bool := false
  isSel : Bool := false
  isMov : Bool := false
  typeOk : BitVec 2 → Bool := fun _ => true
  /-- a beat holds 128 elements of 16 bits (R127) -/
  wide : Bool := true
  /-- lane of a format, rounding mode, a, b (or f[B]) and d -/
  lane : Nat → RMode → Nat → Nat → Nat → Nat × Flags

def typeF (ty : BitVec 2) : Bool := ty != 3

/-- Floating lane, or INT32 lane by type. -/
def mixLane (bF : Bool) (g : RMode → FV → FV → FV → FV × Flags) (i : Int → Int → Int) (fmt : Nat) (rm : RMode)
    (a b d : Nat) : Nat × Flags :=
  if fmt = 5 then intLane i a b else fpLane g bF fmt rm a b d

/-- The job of an element-wise instruction. The lane's inputs come in the order A, B, D, then the mask bit of VSEL. -/
def EwOp.job (o : EwOp) (c : Core) (native : Bool) (dD dA dB : BitVec 5) (fmt : Nat) (mask : Nat) : VJob :=
  let role := fun f => ({ op := c.opnd native f, fmt := fmt } : VRole)
  let fb := (c.rf dB).toNat
  let rm := c.vrm
  let useB := o.usesB && !o.fForm
  { n := 0
    srcs := (if o.usesA then [role dA] else []) ++ (if useB then [role dB] else []) ++ (if o.usesD then [role dD] else [])
    dst := some (role dD)
    gmask := if o.isSel then 0 else mask
    sel := if o.isSel then mask else 0
    masks := if mask = 0 then [] else [mask]
    packed := o.wide && elemBits fmt == 16
    lane := fun xs =>
      let a := xs.headD 0
      let b := if o.fForm then fb else if useB then xs.getD 1 0 else 0
      let d := if o.usesD then xs.getD (b2n o.usesA + b2n useB) 0 else 0
      if o.isSel then (if xs.getD 2 0 = 1 then a else b, 0) else o.lane fmt rm a b d }

/-- An element-wise instruction of majors 0x30 and 0x31. -/
def ewExec (o : EwOp) (c : CoreId) (word : Nat) (v : VArgs) (s : State) : Host.Outcome State Fault Refusal :=
  let k := coreKey c
  runInstr c word false (do
    needVector k word
    let x ← getC k
    illegalIf word (v.native && !isCompute k)
    illegalIf word (!o.typeOk v.ty || (!o.usesB && !o.fForm && v.dB != 0) || (!o.usesA && v.dA != 0)
      || (o.isSel && v.mask == 0))
    let rc := (x.sr rcfgNo).toNat
    let op := bitsOf rc 6 4
    let acc := bitsOf rc 1 0
    illegalIf word (v.tap && v.ty == 3)
    let j := o.job x v.native v.dD v.dA v.dB (typeFmt v.ty) v.mask.toNat
    match j.counted x v.native with
    | none => illegal (BitVec.ofNat 32 word)
    | some j =>
      illegalIf word (v.tap && j.n != 0 && badFold op acc)
      let same := match j.srcs, j.dst with
        | [⟨.desc a, _, _⟩], some ⟨.desc d, _, _⟩ => a.fmt == d.fmt
        | _, _ => false
      ({ j with fold := if v.tap then some (op, acc) else none, copy := o.isMov && same } : VJob).exec k v.stop) s

def ewAdd (fF : Bool) : EwOp := { fForm := fF, lane := mixLane fF (fun m a b _ => fvAdd m a b) (· + ·) }
def ewSub (fF : Bool) : EwOp := { fForm := fF, lane := mixLane fF (fun m a b _ => fvAdd m a b.negate) (· - ·) }
def ewMul (fF : Bool) : EwOp := { fForm := fF, lane := mixLane fF (fun _ a b _ => fvMul a b) (· * ·) }
def ewDiv : EwOp := { typeOk := typeF, lane := fpLane (fun _ a b _ => fvDiv a b) false }
def ewFma (fF : Bool) : EwOp :=
  { fForm := fF, usesD := true, typeOk := typeF, lane := fpLane (fun m a b d => fvFma m d a b) fF }
def ewFms : EwOp := { usesD := true, typeOk := typeF, lane := fpLane (fun m a b d => fvFms m d a b) false }
def ewMin : EwOp := { lane := mixLane false (fun _ a b _ => (fvMin a b, 0)) min }
def ewMax : EwOp := { lane := mixLane false (fun _ a b _ => (fvMax a b, 0)) max }
/-- Bits move unchanged (R202). -/
def ewMov : EwOp := { usesB := false, isMov := true, lane := fun _ _ a _ _ => (a, 0) }
def ewNeg : EwOp :=
  { usesB := false, lane := fun f _ a _ _ =>
      if f = 5 then intLane (fun a _ => -a) a 0 else (a ^^^ 2 ^ (elemBits f - 1), 0) }
def ewAbs : EwOp :=
  { usesB := false, lane := fun f _ a _ _ =>
      if f = 5 then intLane (fun a _ => a.natAbs) a 0 else (a % 2 ^ (elemBits f - 1), 0) }
def ewSqrt : EwOp := { usesB := false, typeOk := typeF, lane := fpLane (fun _ a _ _ => fvSqrt a) false }
def ewRsqrt : EwOp := { usesB := false, typeOk := typeF, lane := fpLane (fun _ a _ _ => fvRsqrt a) false }
def ewRecip : EwOp := { usesB := false, typeOk := typeF, lane := fpLane (fun _ a _ _ => fvDiv fvOne a) false }
def ewFn (op : Nat) : EwOp :=
  { usesB := false, typeOk := typeF, wide := false, lane := fun f _ a _ _ => fnLane op f (fmtOf f) a }
def ewBits (g : Nat → Nat → Nat) : EwOp := { lane := fun _ _ a b _ => (g a b, 0) }
def ewShl : EwOp := { typeOk := fun t => t == 3, lane := fun _ _ a b _ => ((a <<< (b % 32)) % 2 ^ 32, 0) }
def ewSra : EwOp :=
  { typeOk := fun t => t == 3, lane := fun _ _ a b _ => intLane (fun a _ => a / ((2 ^ (b % 32) : Nat) : Int)) a 0 }
def ewSel : EwOp := { isSel := true, lane := fun _ _ a _ _ => (a, 0) }
def ewFill : EwOp :=
  { usesA := false, fForm := true, lane := fun f rm _ b _ =>
      if f = 5 then (b, 0) else (fmtOf f).encode rm (fpDec b) }

/-- d[e] = a + b (R111). -/
def execVadd (c : CoreId) (v : VArgs) (s : State) : Host.Outcome State Fault Refusal := ewExec (ewAdd false) c (instrWord (.vadd c v)) v s
/-- d[e] = a − b (R111). -/
def execVsub (c : CoreId) (v : VArgs) (s : State) : Host.Outcome State Fault Refusal := ewExec (ewSub false) c (instrWord (.vsub c v)) v s
/-- d[e] = a × b (R111). -/
def execVmul (c : CoreId) (v : VArgs) (s : State) : Host.Outcome State Fault Refusal := ewExec (ewMul false) c (instrWord (.vmul c v)) v s
/-- d[e] = a ÷ b (R111, R206). -/
def execVdiv (c : CoreId) (v : VArgs) (s : State) : Host.Outcome State Fault Refusal := ewExec ewDiv c (instrWord (.vdiv c v)) v s
/-- d[e] = d + a × b, rounded once (R111). -/
def execVfma (c : CoreId) (v : VArgs) (s : State) : Host.Outcome State Fault Refusal := ewExec (ewFma false) c (instrWord (.vfma c v)) v s
/-- d[e] = d − a × b, rounded once (R111). -/
def execVfms (c : CoreId) (v : VArgs) (s : State) : Host.Outcome State Fault Refusal := ewExec ewFms c (instrWord (.vfms c v)) v s
/-- Minimum (R111, R206). -/
def execVmin (c : CoreId) (v : VArgs) (s : State) : Host.Outcome State Fault Refusal := ewExec ewMin c (instrWord (.vmin c v)) v s
/-- Maximum (R111, R206). -/
def execVmax (c : CoreId) (v : VArgs) (s : State) : Host.Outcome State Fault Refusal := ewExec ewMax c (instrWord (.vmax c v)) v s
/-- d[e] = a + f[B] (R111). -/
def execVaddF (c : CoreId) (v : VArgs) (s : State) : Host.Outcome State Fault Refusal := ewExec (ewAdd true) c (instrWord (.vaddF c v)) v s
/-- d[e] = a − f[B] (R111). -/
def execVsubF (c : CoreId) (v : VArgs) (s : State) : Host.Outcome State Fault Refusal := ewExec (ewSub true) c (instrWord (.vsubF c v)) v s
/-- d[e] = a × f[B] (R111). -/
def execVmulF (c : CoreId) (v : VArgs) (s : State) : Host.Outcome State Fault Refusal := ewExec (ewMul true) c (instrWord (.vmulF c v)) v s
/-- d[e] = d + a × f[B], rounded once (R111). -/
def execVfmaF (c : CoreId) (v : VArgs) (s : State) : Host.Outcome State Fault Refusal := ewExec (ewFma true) c (instrWord (.vfmaF c v)) v s
/-- d[e] = a (R111, R200, R202). -/
def execVmov (c : CoreId) (v : VArgs) (s : State) : Host.Outcome State Fault Refusal := ewExec ewMov c (instrWord (.vmov c v)) v s
/-- d[e] = −a: the sign bit inverted (R111, R202). -/
def execVneg (c : CoreId) (v : VArgs) (s : State) : Host.Outcome State Fault Refusal := ewExec ewNeg c (instrWord (.vneg c v)) v s
/-- d[e] = |a|: the sign bit cleared (R111, R202). -/
def execVabs (c : CoreId) (v : VArgs) (s : State) : Host.Outcome State Fault Refusal := ewExec ewAbs c (instrWord (.vabs c v)) v s
/-- √a (R111, R206). -/
def execVsqrt (c : CoreId) (v : VArgs) (s : State) : Host.Outcome State Fault Refusal := ewExec ewSqrt c (instrWord (.vsqrt c v)) v s
/-- 1 ÷ √a (R111, R206). -/
def execVrsqrt (c : CoreId) (v : VArgs) (s : State) : Host.Outcome State Fault Refusal := ewExec ewRsqrt c (instrWord (.vrsqrt c v)) v s
/-- 1 ÷ a (R111, R206). -/
def execVrecip (c : CoreId) (v : VArgs) (s : State) : Host.Outcome State Fault Refusal := ewExec ewRecip c (instrWord (.vrecip c v)) v s
/-- e^a (R113). -/
def execVexp (c : CoreId) (v : VArgs) (s : State) : Host.Outcome State Fault Refusal := ewExec (ewFn 0x12) c (instrWord (.vexp c v)) v s
/-- Natural logarithm (R113). -/
def execVlog (c : CoreId) (v : VArgs) (s : State) : Host.Outcome State Fault Refusal := ewExec (ewFn 0x13) c (instrWord (.vlog c v)) v s
/-- tanh (R113). -/
def execVtanh (c : CoreId) (v : VArgs) (s : State) : Host.Outcome State Fault Refusal := ewExec (ewFn 0x14) c (instrWord (.vtanh c v)) v s
/-- 1 ÷ (1 + e^−a) (R113). -/
def execVsigm (c : CoreId) (v : VArgs) (s : State) : Host.Outcome State Fault Refusal := ewExec (ewFn 0x15) c (instrWord (.vsigm c v)) v s
/-- a × Φ(a) (R113). -/
def execVgelu (c : CoreId) (v : VArgs) (s : State) : Host.Outcome State Fault Refusal := ewExec (ewFn 0x16) c (instrWord (.vgelu c v)) v s
/-- a × VSIGM(a) (R113). -/
def execVsilu (c : CoreId) (v : VArgs) (s : State) : Host.Outcome State Fault Refusal := ewExec (ewFn 0x17) c (instrWord (.vsilu c v)) v s
/-- a & b, bitwise (R111). -/
def execVand (c : CoreId) (v : VArgs) (s : State) : Host.Outcome State Fault Refusal := ewExec (ewBits (· &&& ·)) c (instrWord (.vand c v)) v s
/-- a | b (R111). -/
def execVor (c : CoreId) (v : VArgs) (s : State) : Host.Outcome State Fault Refusal := ewExec (ewBits (· ||| ·)) c (instrWord (.vor c v)) v s
/-- a ^ b (R111). -/
def execVxor (c : CoreId) (v : VArgs) (s : State) : Host.Outcome State Fault Refusal := ewExec (ewBits (· ^^^ ·)) c (instrWord (.vxor c v)) v s
/-- a << b[4:0] (R111). -/
def execVshl (c : CoreId) (v : VArgs) (s : State) : Host.Outcome State Fault Refusal := ewExec ewShl c (instrWord (.vshl c v)) v s
/-- a >> b[4:0], sign fill (R111). -/
def execVsra (c : CoreId) (v : VArgs) (s : State) : Host.Outcome State Fault Refusal := ewExec ewSra c (instrWord (.vsra c v)) v s
/-- The mask bit selects a or b; every element below n is written (R111, R112). -/
def execVsel (c : CoreId) (v : VArgs) (s : State) : Host.Outcome State Fault Refusal := ewExec ewSel c (instrWord (.vsel c v)) v s
/-- d[e] = f[B] (R111, R112). -/
def execVfill (c : CoreId) (v : VArgs) (s : State) : Host.Outcome State Fault Refusal := ewExec ewFill c (instrWord (.vfill c v)) v s

/-! ### Compares and mask logic (R114, R206) -/

/-- Bit of a compare from the three-way order; `eq` and `un` compares raise no flag. -/
def cmpLane (ordered : Bool) (g : Option Int → Bool) (fmt : Nat) (a b : Nat) : Nat × Flags :=
  if fmt = 5 then
    let x := signed 32 a
    let y := signed 32 b
    (b2n (g (some (if x < y then -1 else if x = y then 0 else 1))), 0)
  else
    let x := (fmtOf fmt).decode a
    let y := (fmtOf fmt).decode b
    if x.isNan || y.isNan then (b2n (g none), if ordered then flNV else 0) else (b2n (g (some (fvCmp x y))), 0)

/-- A compare (major 0x32, sub 0 to 6). -/
def cmpExec (c : CoreId) (word : Nat) (v : CmpArgs) (ordered : Bool) (g : Option Int → Bool) (s : State) :
    Host.Outcome State Fault Refusal :=
  let k := coreKey c
  runInstr c word false (do
    needVector k word
    let x ← getC k
    illegalIf word (v.native && !isCompute k)
    let fmt := typeFmt v.ty
    let j : VJob :=
      { n := 0, srcs := [{ op := x.opnd v.native v.dA, fmt := fmt }, { op := x.opnd v.native v.dB, fmt := fmt }]
        gmask := v.mask.toNat, mdst := some v.md.toNat, packed := typePacked v.ty
        masks := v.md.toNat :: (if v.mask = 0 then [] else [v.mask.toNat])
        lane := fun xs => cmpLane ordered g fmt (xs.headD 0) (xs.getD 1 0) }
    match j.counted x v.native with
    | none => illegal (BitVec.ofNat 32 word)
    | some j => j.exec k v.stop) s

/-- a = b (R114). -/
def execVcmpEq (c : CoreId) (v : CmpArgs) (s : State) : Host.Outcome State Fault Refusal :=
  cmpExec c (instrWord (.vcmpEq c v)) v false (fun o => o == some 0) s
/-- a ≠ b, and 1 if either is NaN (R114). -/
def execVcmpNe (c : CoreId) (v : CmpArgs) (s : State) : Host.Outcome State Fault Refusal :=
  cmpExec c (instrWord (.vcmpNe c v)) v false (fun o => o != some 0) s
/-- a < b (R114). -/
def execVcmpLt (c : CoreId) (v : CmpArgs) (s : State) : Host.Outcome State Fault Refusal :=
  cmpExec c (instrWord (.vcmpLt c v)) v true (fun o => o == some (-1)) s
/-- a ≤ b (R114). -/
def execVcmpLe (c : CoreId) (v : CmpArgs) (s : State) : Host.Outcome State Fault Refusal :=
  cmpExec c (instrWord (.vcmpLe c v)) v true (fun o => o == some (-1) || o == some 0) s
/-- a > b (R114). -/
def execVcmpGt (c : CoreId) (v : CmpArgs) (s : State) : Host.Outcome State Fault Refusal :=
  cmpExec c (instrWord (.vcmpGt c v)) v true (fun o => o == some 1) s
/-- a ≥ b (R114). -/
def execVcmpGe (c : CoreId) (v : CmpArgs) (s : State) : Host.Outcome State Fault Refusal :=
  cmpExec c (instrWord (.vcmpGe c v)) v true (fun o => o == some 1 || o == some 0) s
/-- 1 if either is NaN (R114). -/
def execVcmpUn (c : CoreId) (v : CmpArgs) (s : State) : Host.Outcome State Fault Refusal :=
  cmpExec c (instrWord (.vcmpUn c v)) v false (fun o => o.isNone) s

/-- Mask logic on bits 0 to n − 1 (R114). -/
def maskLogic (c : CoreId) (word : Nat) (v : CmpArgs) (unary : Bool) (g : Bool → Bool → Bool) (s : State) :
    Host.Outcome State Fault Refusal :=
  let k := coreKey c
  runInstr c word false (do
    needVector k word
    let x ← getC k
    illegalIf word (decide (8 ≤ v.dA.toNat) || decide (8 ≤ v.dB.toNat) || v.ty != 0 || v.native || v.mask != 0
      || (unary && v.dB != 0))
    let srcs := if unary then [v.dA.toNat] else [v.dA.toNat, v.dB.toNat]
    ({ n := (x.sr vlNo).toNat, srcs := [], mdst := some v.md.toNat, masks := v.md.toNat :: srcs, logic := srcs
       lane := fun xs => (b2n (g (xs.headD 0 == 1) (xs.getD 1 0 == 1)), 0) } : VJob).exec k v.stop) s

/-- ma & mb (R114). -/
def execMand (c : CoreId) (v : CmpArgs) (s : State) : Host.Outcome State Fault Refusal :=
  maskLogic c (instrWord (.mand c v)) v false (· && ·) s
/-- ma | mb (R114). -/
def execMor (c : CoreId) (v : CmpArgs) (s : State) : Host.Outcome State Fault Refusal :=
  maskLogic c (instrWord (.mor c v)) v false (· || ·) s
/-- ma ^ mb (R114). -/
def execMxor (c : CoreId) (v : CmpArgs) (s : State) : Host.Outcome State Fault Refusal :=
  maskLogic c (instrWord (.mxor c v)) v false xor s
/-- ~ma (R114). -/
def execMnot (c : CoreId) (v : CmpArgs) (s : State) : Host.Outcome State Fault Refusal :=
  maskLogic c (instrWord (.mnot c v)) v true (fun a _ => !a) s

/-! ### Widening multiply, dot product, conversion (R115) -/

/-- An instruction of major 0x33 with its roles and lane; `b` none for VCVT. -/
def wideExec (c : CoreId) (word : Nat) (v : WideArgs) (bad : Bool) (fa : Nat) (fb : Option Nat) (fd per : Nat) (usesD packed : Bool)
    (lane : RMode → Nat → Nat → Nat → Nat × Flags) (s : State) : Host.Outcome State Fault Refusal :=
  let k := coreKey c
  runInstr c word false (do
    needVector k word
    let x ← getC k
    illegalIf word (bad || (v.native && !isCompute k))
    let d : VRole := { op := x.opnd v.native v.dD, fmt := fd }
    let bs := fb.toList.map fun f => ({ op := x.opnd v.native v.dB, fmt := f, per := per } : VRole)
    let j : VJob :=
      { n := 0, srcs := [{ op := x.opnd v.native v.dA, fmt := fa, per := per }] ++ bs ++ (if usesD then [d] else [])
        dst := some d, gmask := v.mask.toNat, masks := if v.mask = 0 then [] else [v.mask.toNat], packed := packed
        lane := fun xs => lane x.vrm (xs.headD 0) (xs.getD 1 0) (xs.getD 2 0) }
    match j.counted x v.native with
    | none => illegal (BitVec.ofNat 32 word)
    | some j => j.exec k v.stop) s

/-- FP32 result of 16-bit inputs. -/
def widenLane (g : RMode → FV → FV → FV → FV × Flags) (fmt : Nat) (rm : RMode) (a b d : Nat) : Nat × Flags :=
  fpEnc rm (g rm ((fmtOf fmt).decode a) ((fmtOf fmt).decode b) (fpDec d))

/-- FP32 a × b of 16-bit values (R115). -/
def execVwmul (c : CoreId) (v : WideArgs) (s : State) : Host.Outcome State Fault Refusal :=
  wideExec c (instrWord (.vwmul c v)) v (!typePacked v.ty) (typeFmt v.ty) (some (typeFmt v.ty)) 0 1 false false
    (widenLane (fun _ a b _ => fvMul a b) (typeFmt v.ty)) s
/-- FP32 d + a × b of 16-bit values, rounded once (R115). -/
def execVwfma (c : CoreId) (v : WideArgs) (s : State) : Host.Outcome State Fault Refusal :=
  wideExec c (instrWord (.vwfma c v)) v (!typePacked v.ty) (typeFmt v.ty) (some (typeFmt v.ty)) 0 1 true false
    (widenLane (fun m a b d => fvFma m d a b) (typeFmt v.ty)) s

/-- Byte j of a packed value. -/
def byteAt (v j : Nat) : Nat := (v >>> (8 * j)) % 256

/-- The FP8 dot product: four products and d summed exactly and rounded once (R115). -/
def dotLane (fa fb : Nat) (rm : RMode) (a b d : Nat) : Nat × Flags :=
  fpEnc rm ((List.range 4).foldl (fun (acc : FV × Flags) j =>
    let (p, f) := fvMul ((fmtOf fa).decode (byteAt a j)) ((fmtOf fb).decode (byteAt b j))
    let (r, g) := fvAdd rm acc.1 p
    (r, acc.2 ||| f ||| g)) (fpDec d, (0 : Flags)))

/-- The INT8 dot product modulo 2^32, with no flag (R115). -/
def dotInt (_ : RMode) (a b d : Nat) : Nat × Flags :=
  let v := (List.range 4).foldl (fun (acc : Int) j => acc + signed 8 (byteAt a j) * signed 8 (byteAt b j)) (d : Int)
  ((v % 2 ^ 32).toNat, 0)

/-- d + the sum of four products of 8-bit values (R103, R115). -/
def execVdot4 (c : CoreId) (v : WideArgs) (s : State) : Host.Outcome State Fault Refusal :=
  let fa := if v.ty = 1 then 4 else if v.ty = 3 then 6 else 3
  let fb := if v.ty = 0 then 3 else if v.ty = 3 then 6 else 4
  wideExec c (instrWord (.vdot4 c v)) v false fa (some fb) (if v.ty = 3 then 5 else 0) 4 true false
    (if v.ty = 3 then dotInt else dotLane fa fb) s

/-- a converted; B is the destination code (R115, R210). -/
def execVcvt (c : CoreId) (v : WideArgs) (src : BitVec 3) (s : State) : Host.Outcome State Fault Refusal :=
  let fs := src.toNat
  let fd := v.dB.toNat
  wideExec c (instrWord (.vcvt c v src)) v (decide (6 ≤ fs) || decide (6 ≤ fd) || v.ty != 0) fs none fd 1 false
    (elemBits fs == 16 && elemBits fd == 16) (fun rm a _ _ => encodeElem fd rm (decodeElem fs a)) s

/-! ### Reduction instructions and vector state (R116, R118, R120) -/

/-- Fold operand A into RA[ACC] (R119, R120). -/
def redJob (a : VOpnd) (fmt mask op acc : Nat) : VJob :=
  { n := 0, srcs := [{ op := a, fmt := fmt }], gmask := mask, masks := if mask = 0 then [] else [mask]
    packed := elemBits fmt == 16, fold := some (op, acc), lane := fun xs => (xs.headD 0, 0) }

/-- RED.op (R120). -/
def execRed (c : CoreId) (v : RedArgs) (s : State) : Host.Outcome State Fault Refusal :=
  let k := coreKey c
  let word := instrWord (.red c v)
  runInstr c word false (do
    needVector k word
    let x ← getC k
    illegalIf word ((v.native && !isCompute k) || v.ty == 3 || badFold v.op.toNat v.acc.toNat)
    match (redJob (x.opnd v.native v.dA) (typeFmt v.ty) v.mask.toNat v.op.toNat v.acc.toNat).counted x v.native with
    | none => illegal (BitVec.ofNat 32 word)
    | some j => j.exec k v.stop) s

/-- Set RA[ACC], or both MOM accumulators, to the identity of OP (R120). -/
def execRclr (c : CoreId) (acc : BitVec 2) (op : BitVec 3) (s : State) : Host.Outcome State Fault Refusal :=
  let k := coreKey c
  let word := instrWord (.rclr c acc op)
  runInstr c word false (do
    needVector k word
    illegalIf word (badFold op.toNat acc.toNat)
    let v := w64 (foldIdentity op.toNat)
    modC k fun x =>
      let x := x.setSr (raccNo acc.toNat) v
      if op = 2 then x.setSr (raccNo (acc.toNat + 1)) v else x
    return .next) s

/-- f[F] = RA[ACC] (R120). -/
def execRget (c : CoreId) (f : Reg) (acc : BitVec 2) (s : State) : Host.Outcome State Fault Refusal :=
  let k := coreKey c
  let word := instrWord (.rget c f acc)
  runInstr c word false (do
    needVector k word
    modC k fun x => x.wf f ((x.sr (raccNo acc.toNat)).setWidth 32)
    return .next) s

/-- RA[ACC] = f[F] (R120). -/
def execRput (c : CoreId) (f : Reg) (acc : BitVec 2) (s : State) : Host.Outcome State Fault Refusal :=
  let k := coreKey c
  let word := instrWord (.rput c f acc)
  runInstr c word false (do
    needVector k word
    modC k fun x => x.setSr (raccNo acc.toNat) (zext64 (x.rf f))
    return .next) s

/-- VL = min(x[a], 65,536); x[d] = VL (R116). -/
def execSetvl (c : CoreId) (d a : Reg) (s : State) : Host.Outcome State Fault Refusal :=
  let k := coreKey c
  let word := instrWord (.setvl c d a)
  runInstr c word false (do
    needVector k word
    modC k fun x =>
      let v := w64 (min (x.rx a).toNat 65536)
      (x.setSr vlNo v).wx d v
    return .next) s

/-- VL = imm12; x[d] = VL (R116). -/
def execSetvli (c : CoreId) (d : Reg) (imm : BitVec 12) (s : State) : Host.Outcome State Fault Refusal :=
  let k := coreKey c
  let word := instrWord (.setvli c d imm)
  runInstr c word false (do
    needVector k word
    modC k fun x => (x.setSr vlNo (zext64 imm)).wx d (zext64 imm)
    return .next) s

/-- Pk.BASE = (Pk.BASE + sign-extended imm12) mod 4,096 (R116). -/
def execPadd (c : CoreId) (p : BitVec 4) (imm : BitVec 12) (s : State) : Host.Outcome State Fault Refusal :=
  let k := coreKey c
  let word := instrWord (.padd c p imm)
  runInstr c word false (do
    needVector k word
    modC k fun x =>
      let v := x.sr (pNo p.toNat)
      x.setSr (pNo p.toNat) ((v &&& ~~~(0xFFF : W64)) ||| ((v + sext64 imm) &&& 0xFFF))
    return .next) s

/-! ### Compat form (R117) -/

/-- A compat-form instruction: the FP32 VL-form instruction on pointers, with the count in the word. -/
def compatExec (o : EwOp) (c : CoreId) (word : Nat) (v : CompatArgs) (s : State) : Host.Outcome State Fault Refusal :=
  let k := coreKey c
  runInstr c word false (do
    needVector k word
    let x ← getC k
    illegalIf word (!o.usesB && v.dB != 0)
    let j := o.job x false (v.dD.setWidth 5) (v.dA.setWidth 5) (v.dB.setWidth 5) 0 0
    ({ j with n := v.count.toNat } : VJob).exec k v.stop) s

/-- RSUM and RMAX: D and B must be 0; A is folded into RA0. -/
def compatRed (c : CoreId) (word : Nat) (v : CompatArgs) (op : Nat) (s : State) : Host.Outcome State Fault Refusal :=
  let k := coreKey c
  runInstr c word false (do
    needVector k word
    let x ← getC k
    illegalIf word (v.dD != 0 || v.dB != 0)
    let j := redJob (x.opnd false (v.dA.setWidth 5)) 0 0 op 0
    ({ j with n := v.count.toNat } : VJob).exec k v.stop) s

/-- VADD of the Moatra MT5 (R117). -/
def execMt5Vadd (c : CoreId) (v : CompatArgs) (s : State) : Host.Outcome State Fault Refusal :=
  compatExec (ewAdd false) c (instrWord (.mt5Vadd c v)) v s
/-- VSUB of the Moatra MT5 (R117). -/
def execMt5Vsub (c : CoreId) (v : CompatArgs) (s : State) : Host.Outcome State Fault Refusal :=
  compatExec (ewSub false) c (instrWord (.mt5Vsub c v)) v s
/-- VMUL of the Moatra MT5 (R117). -/
def execMt5Vmul (c : CoreId) (v : CompatArgs) (s : State) : Host.Outcome State Fault Refusal :=
  compatExec (ewMul false) c (instrWord (.mt5Vmul c v)) v s
/-- VFMA of the Moatra MT5 (R117). -/
def execMt5Vfma (c : CoreId) (v : CompatArgs) (s : State) : Host.Outcome State Fault Refusal :=
  compatExec (ewFma false) c (instrWord (.mt5Vfma c v)) v s
/-- VMIN of the Moatra MT5 (R117). -/
def execMt5Vmin (c : CoreId) (v : CompatArgs) (s : State) : Host.Outcome State Fault Refusal :=
  compatExec ewMin c (instrWord (.mt5Vmin c v)) v s
/-- VMAX of the Moatra MT5 (R117). -/
def execMt5Vmax (c : CoreId) (v : CompatArgs) (s : State) : Host.Outcome State Fault Refusal :=
  compatExec ewMax c (instrWord (.mt5Vmax c v)) v s
/-- VMOV of the Moatra MT5 (R117). -/
def execMt5Vmov (c : CoreId) (v : CompatArgs) (s : State) : Host.Outcome State Fault Refusal :=
  compatExec ewMov c (instrWord (.mt5Vmov c v)) v s
/-- VNEG of the Moatra MT5 (R117). -/
def execMt5Vneg (c : CoreId) (v : CompatArgs) (s : State) : Host.Outcome State Fault Refusal :=
  compatExec ewNeg c (instrWord (.mt5Vneg c v)) v s
/-- VABS of the Moatra MT5 (R117). -/
def execMt5Vabs (c : CoreId) (v : CompatArgs) (s : State) : Host.Outcome State Fault Refusal :=
  compatExec ewAbs c (instrWord (.mt5Vabs c v)) v s
/-- VDIV of the Moatra MT5 (R117). -/
def execMt5Vdiv (c : CoreId) (v : CompatArgs) (s : State) : Host.Outcome State Fault Refusal :=
  compatExec ewDiv c (instrWord (.mt5Vdiv c v)) v s
/-- VSQRT of the Moatra MT5 (R117). -/
def execMt5Vsqrt (c : CoreId) (v : CompatArgs) (s : State) : Host.Outcome State Fault Refusal :=
  compatExec ewSqrt c (instrWord (.mt5Vsqrt c v)) v s
/-- VRECIP of the Moatra MT5 (R117). -/
def execMt5Vrecip (c : CoreId) (v : CompatArgs) (s : State) : Host.Outcome State Fault Refusal :=
  compatExec ewRecip c (instrWord (.mt5Vrecip c v)) v s
/-- VRSQRT of the Moatra MT5 (R117). -/
def execMt5Vrsqrt (c : CoreId) (v : CompatArgs) (s : State) : Host.Outcome State Fault Refusal :=
  compatExec ewRsqrt c (instrWord (.mt5Vrsqrt c v)) v s
/-- VEXP of the Moatra MT5 (R117). -/
def execMt5Vexp (c : CoreId) (v : CompatArgs) (s : State) : Host.Outcome State Fault Refusal :=
  compatExec (ewFn 0x12) c (instrWord (.mt5Vexp c v)) v s
/-- The sum of A into RA0 (R117, R120). -/
def execMt5Rsum (c : CoreId) (v : CompatArgs) (s : State) : Host.Outcome State Fault Refusal :=
  compatRed c (instrWord (.mt5Rsum c v)) v 0 s
/-- The maximum of A into RA0 (R117, R120). -/
def execMt5Rmax (c : CoreId) (v : CompatArgs) (s : State) : Host.Outcome State Fault Refusal :=
  compatRed c (instrWord (.mt5Rmax c v)) v 3 s

end Sys2Proof.Machine
end

