-- ==== Sys2Proof/Machine/Stream.lean ====
section
/-! DEFINITION. Stream units, credits and LBAR (R138 to R159, R445). -/

namespace Sys2Proof.Machine
open Sys2Proof

/-! ### The control word (R140) -/

def ctlCredits (w : W64) : Nat := bitsOf w.toNat 63 52
def ctlIter (w : W64) : Nat := bitsOf w.toNat 47 32
def ctlClass (w : W64) : Nat := bitsOf w.toNat 31 29
def ctlNotify (w : W64) : Bool := w.getLsbD 28
def ctlScope (w : W64) : Nat := bitsOf w.toNat 27 26
/-- Mailbox of a destination word (R55). -/
def destMbx (w : W64) : Nat := bitsOf w.toNat 12 9

/-- DDR and mesh class of a stream class (R138, R284, R289). -/
def streamDdr (cls : Nat) : Nat := if cls = 1 then 2 else if cls = 2 then 3 else if cls = 3 then 4 else 1
def streamMesh (cls : Nat) : Nat := if cls = 1 then 4 else if cls = 2 ∨ cls = 3 then 5 else if cls = 4 then 3 else 2

/-- A class permits a destination space (R138). -/
def classAllows (cls space : Nat) : Bool :=
  if cls = 0 then space != 3 else if cls = 1 then space == 3 else if cls = 4 then decide (space ≤ 1) else space == 0

/-- The descriptor checks of R142 that raise ILLEGAL. -/
def sgoIllegal (sd dd : Desc) (cls : Nat) : Bool :=
  sd.malformed || dd.malformed || decide (2 ≤ sd.space) || !classAllows cls dd.space
    || sd.count != dd.count || decide (2 ^ 48 ≤ sd.count)
    || (sd.scaled && sd.space == 1) || (dd.scaled && dd.space == 1)
    || (sd.space == 0 && sd.scaled && sd.dim 0 % 32 != 0) || (dd.space == 0 && dd.scaled && dd.dim 0 % 32 != 0)
    || (dd.space == 0 && dd.scaled && dd.crossed && dd.dim 1 % 32 != 0)

/-- The completion notice of a unit (R145). -/
def State.streamNotice (s : State) (k : Nat) (u : StreamUnit) : State :=
  let d := u.note.toNat
  let g : Msg := { tag := BitVec.ofNat 16 (bitsOf d 63 48), epoch := u.epoch, src := s.lcoreOf k, mbx := bitsOf d 12 9,
                   dst := bitsOf d 8 0, payload := [], engine := none }
  s.updCore k fun c => { c with outq := c.outq ++ [{ msg := g }] }

/-- An operand-cache row of a descriptor's walks lies in the range of a TMOV in flight (R183). -/
def Desc.meetsTmov (d : Desc) (c : Core) (iter : Nat) : Bool :=
  d.space == 1 && c.bg.any fun op =>
    match c.tmovRange op with
    | none => false
    | some (b, m, _) => (List.range iter).any fun j =>
        (List.range d.count).any fun e => d.touchesRows (j * d.repstep) e b m

/-- A TMOV in flight writes the operand cache. -/
def Core.tmovToOc (c : Core) : Bool :=
  c.bg.any fun op => match c.tmovRange op with
    | some (_, _, w) => w
    | none => false

/-- SGO (R141, R142). Where there is nothing to move, R141 names STATE and the counters: the unit's other fields read 0 (DESIGN
CHOICE: notes/assumptions/159). -/
def execSgo (c : CoreId) (i : BitVec 3) (ds dd : BitVec 4) (a : Reg) (s : State) : Host.Outcome State Fault Refusal :=
  let w := instrWord (.sgo c i ds dd a)
  let k := coreKey c
  runInstr c w false (do
    needCompute k w
    let x ← getC k
    let u := x.unit i.toNat
    if u.state = 1 ∧ x.level.code < u.level.code then privilege (BitVec.ofNat 32 w)
    if u.state = 1 then stall
    illegalIf w (u.state == 2)
    let ctl := x.rx a
    let note := x.rx (a + 1)
    let cls := ctlClass ctl
    illegalIf w (a == 31 || decide (5 ≤ cls))
    if (cls = 2 ∨ cls = 3) ∧ x.level = .u then privilege (BitVec.ofNat 32 w)
    if ctlNotify ctl ∧ 14 ≤ destMbx note ∧ x.level ≠ .m then privilege (BitVec.ofNat 32 w)
    let sd := x.descOf ds.toNat
    let td := x.descOf dd.toNat
    let u' : StreamUnit :=
      { state := 1, src := x.descWords ds.toNat, dst := x.descWords dd.toNat, ctl := ctl, note := note, epoch := x.epoch,
        level := x.level, cls := cls, credits := ctlCredits ctl, crovf := u.crovf, fdir := u.fdir, sfaddr := u.sfaddr,
        target := u.target }
    if sd.count = 0 ∨ td.count = 0 ∨ ctlIter ctl = 0 then do
      if ctlNotify ctl && decide (8 ≤ x.outq.length) then stall
      modC k fun c => c.setUnit i.toNat { state := 3 }
      if ctlNotify ctl then modify fun s => s.streamNotice k u'
      return .next
    else do
      illegalIf w (sgoIllegal sd td cls)
      forEach [sd, td] fun d =>
        if d.space ≤ 1 then
          match d.misaligned with
          | some (v, n) => trap 0x03 n v
          | none => pure ()
        else pure ()
      if x.tmovToOc || sd.meetsTmov x (ctlIter ctl) || td.meetsTmov x (ctlIter ctl) then stall
      modC k fun c => c.setUnit i.toNat u'
      return .next) s

/-! ### The other stream instructions (R150, R156, R157) -/

/-- SWAIT holds until the threshold, none where a is 0, is reached or the unit no longer runs (R150). -/
def Core.swaitDone (c : Core) (i : Nat) (thr : Option W64) : Bool :=
  let u := c.unit i
  u.state != 1 || (match thr with
    | some t => decide (t.toNat ≤ u.sfill)
    | none => false)

def swaitBody (k word : Nat) (i : BitVec 3) (thr : Option W64) : M Flow := do
  needCompute k word
  if (← getC k).swaitDone i.toNat thr then return .next
  else do
    modC k fun c => { c with wait := .swait i thr }
    stall

/-- SWAIT (R150). -/
def execSwait (c : CoreId) (i : BitVec 3) (a : Reg) (s : State) : Host.Outcome State Fault Refusal :=
  runInstr c (instrWord (.swait c i a)) false
    (swaitBody (coreKey c) (instrWord (.swait c i a)) i
      (if a = 0 then none else some ((s.core (coreKey c)).rx a))) s

/-- A waiting SWAIT whose condition holds completes (R150). -/
def execSwaitComplete (c : CoreId) (s : State) : Host.Outcome State Fault Refusal :=
  let k := coreKey c
  match (s.core k).wait with
  | .swait i thr =>
    if s.issuing k && (s.core k).swaitDone i.toNat thr then
      runInstr c 0 false (swaitBody k 0 i thr) (s.updCore k fun x => { x with wait := .none })
    else .next s
  | _ => .next s

/-- PRIVILEGE below the unit's level (R150). -/
def unitLevel (k word : Nat) (i : Nat) : M Unit := do
  needCompute k word
  let c ← getC k
  if c.level.code < (c.unit i).level.code then privilege (BitVec.ofNat 32 word)

/-- SCRED returns x[a][11:0] credits to the unit (R149, R150). -/
def execScred (c : CoreId) (i : BitVec 3) (a : Reg) (s : State) : Host.Outcome State Fault Refusal :=
  let w := instrWord (.scred c i a)
  let k := coreKey c
  runInstr c w false (do
    unitLevel k w i.toNat
    modC k fun x => x.creditUnit i.toNat ((x.rx a).toNat % 4096)
    return .next) s

/-- Tile or W register that a unit writes next: its code in the ring (R135). -/
def StreamUnit.ringCode (u : StreamUnit) : Nat :=
  let d := Desc.of u.dst
  let b := d.base.toNat
  if d.space = 2 then (bitsOf b 3 0 + u.tileNo % (bitsOf b 11 8 + 1)) % 16
  else wCode (bitsOf b 0 0) (bitsOf b 2 1 + u.tileNo % (bitsOf b 5 4 + 1))

/-- A unit with a tile-space destination. -/
def StreamUnit.toTile (u : StreamUnit) : Bool := decide (2 ≤ (Desc.of u.dst).space)

/-- The tile that a RUNNING or HALTED unit is writing (R184). -/
def StreamUnit.writes? (u : StreamUnit) : Option Nat :=
  if (u.state = 1 ∨ u.state = 2) ∧ u.toTile ∧ u.taken then some u.ringCode else none

/-- The tile a unit was writing becomes PARTIAL, with the unit in WRITER (R154, R157). -/
def Core.partialTile (c : Core) (i : Nat) : Core :=
  match (c.unit i).writes? with
  | some code => c.updTile code fun t => { t with st := 3, writer := i }
  | none => c

/-- Halt a unit (R154). -/
def Core.haltUnit (c : Core) (i cause : Nat) (va : W64) (fdir : Bool) : Core :=
  let c := c.partialTile i
  c.setUnit i { c.unit i with state := 2, fcause := cause, sfaddr := va, fdir := fdir }

/-- SRESUME turns a HALTED unit back to RUNNING (R156). -/
def execSresume (c : CoreId) (i : BitVec 3) (s : State) : Host.Outcome State Fault Refusal :=
  let w := instrWord (.sresume c i)
  let k := coreKey c
  runInstr c w false (do
    unitLevel k w i.toNat
    modC k fun x =>
      let u := x.unit i.toNat
      if u.state = 2 then x.setUnit i.toNat { u with state := 1, fcause := 0, sfaddr := 0 } else x
    return .next) s

/-- SSTOP halts a RUNNING unit at a granule boundary; a unit that has moved all its elements reaches DONE first (R157). No address
faulted: SFADDR and FDIR read 0 (DESIGN CHOICE: notes/assumptions/27). -/
def execSstop (c : CoreId) (i : BitVec 3) (s : State) : Host.Outcome State Fault Refusal :=
  let w := instrWord (.sstop c i)
  let k := coreKey c
  runInstr c w false (do
    unitLevel k w i.toNat
    let u := (← getC k).unit i.toNat
    if u.state = 1 ∧ u.noticeDue then stall
    modC k fun x => if u.state = 1 then x.haltUnit i.toNat 4 0 false else x
    return .next) s

/-- SCANCEL ends the unit in any state (R157): its remaining work, credits and notice are discarded. -/
def Core.cancelUnit (c : Core) (i : Nat) : Core :=
  let c := c.partialTile i
  c.setUnit i { c.unit i with state := 0, credits := 0, noticeDue := false, taken := false, fcause := 0 }

def execScancel (c : CoreId) (i : BitVec 3) (s : State) : Host.Outcome State Fault Refusal :=
  let w := instrWord (.scancel c i)
  let k := coreKey c
  runInstr c w false (do
    unitLevel k w i.toNat
    modC k fun x => x.cancelUnit i.toNat
    return .next) s

/-! ### Granules (R143, R144, R149) -/

/-- Elements of the granule at a unit's position, in walk order. A ring of one W register cannot take a granule across its end:
the granule is cut there (DESIGN CHOICE: notes/assumptions/158). -/
def StreamUnit.granule (u : StreamUnit) : List Nat :=
  let d := Desc.of u.dst
  let left := d.count - u.index
  let n :=
    if d.space = 2 then let e := perRow d.fmt; e - u.tilePos % e
    else if d.space = 3 then (if bitsOf d.base.toNat 5 4 = 0 then min 32 (1024 - u.tilePos) else 32)
    else if d.scaled && d.crossed then 32 * d.dim 0
    else 32
  rangeFrom u.index (min n left)

/-- A granule of the W ring goes on into the next register (R143). -/
def StreamUnit.crosses (u : StreamUnit) : Bool :=
  (Desc.of u.dst).space == 3 && decide (1024 < u.tilePos + u.granule.length)

/-- Credits that the granule needs before its first byte (R149). -/
def Core.creditNeed (c : Core) (u : StreamUnit) : Nat :=
  let d := Desc.of u.dst
  if d.space = 0 then 0
  else if d.space = 1 then
    (u.moved + u.granule.length * d.bits / 8 + 2047) / 2048 - u.paid
  else (if u.taken then 0 else c.tileCost u.ringCode) + (if u.crosses then 1 - u.paid else 0)

/-- The unit's walk reaches a tile it cannot write (R186). -/
def Core.cannotWrite (c : Core) (u : StreamUnit) : Bool :=
  let d := Desc.of u.dst
  (d.space == 2 && (c.tile u.ringCode).rows == 0) || (d.space == 3 && (d.fmt == 0 || d.fmt == 5))

/-- WAITCR: RUNNING and waiting for credits (R159). -/
def Core.waitcr (c : Core) (i : Nat) : Bool :=
  let u := c.unit i
  u.state == 1 && !u.noticeDue && !c.cannotWrite u && decide (u.credits < c.creditNeed u)

/-- A unit can take a grant: RUNNING, with its credits, its tile free of earlier readers and writers, and a queue slot where
only its notice is left (R144, R151, R166, R445). -/
def Core.eligible (c : Core) (i : Nat) : Bool :=
  let u := c.unit i
  u.state == 1 &&
    (if u.noticeDue then decide (c.outq.length < 8)
     else c.cannotWrite u ||
      (decide (c.creditNeed u ≤ u.credits) &&
        (if !u.toTile then true
         else if isT u.ringCode then !c.tileBusy u.ringCode
         else (u.taken || (c.tile u.ringCode).st != 2)
           && (!u.crosses || (c.tile { u with tileNo := u.tileNo + 1 }.ringCode).st != 2))))

/-- The streams' way to memory: through the lagoon, never L1, at the level of SGO (R146). -/
def streamPort (k i : Nat) (u : StreamUnit) : MemPort :=
  let a := k / 16
  let ddr := streamDdr u.cls
  let mesh := streamMesh u.cls
  { loc := locate k u.level .s
    rd := fun va pa n => do
      let r ← modifyGet fun s => s.lagRead a (pa / 128) (some k) ddr mesh
      if r.dead then do
        deadReadAt k va
        return 0
      else if r.bad then accessMcheck k 0x0304 va pa 10 0
      else if r.poison ≠ 0 then accessMcheck k 0x0110 va pa 10 r.poison
      else return lineGet r.data (pa % 128) n
    wr := fun va pa n v => do
      match (← get).region pa with
      | .dram _ =>
        let ok ← modifyGet fun s =>
          s.lagWrite a (pa / 128) (lineAt (pa % 128) (v % 2 ^ (8 * n))) (spanMask (pa % 128) n) 0 (some k) ddr mesh
        if ok then
          modC k fun c =>
            let x := c.unit i
            if x.wrote.contains (pa / 128) then c else c.setUnit i { x with wrote := x.wrote ++ [pa / 128] }
        else accessMcheck k 0x0304 va pa 12 0
      | _ => pure ()
    probe := fun acc va pa => do
      let s ← get
      match acc, s.region pa with
      | .store, .dram _ =>
        if (s.lagWrite a (pa / 128) 0 0 0 (some k) ddr mesh).1 then pure () else accessMcheck k 0x0304 va pa 12 0
      | .store, _ => pure ()
      | _, .dram _ => if (s.lagRead a (pa / 128) (some k) ddr mesh).1.dead then deadReadAt k va else pure ()
      | _, _ => pure () }

/-- Write one run of a tile row from source elements with scales (R135, R144): the elements of a scale group that is not complete
stay with the unit, and the group is encoded anew from all of them (R199, R210). The row takes the whole of what this unit has
written of it (R148). Answers the flags, those of an incomplete group only at the stream's end. -/
def streamRow (k i : Nat) (sd dd : Desc) (es : List Nat) (xs : List (Nat × Nat)) : M Flags := do
  let c ← getC k
  let u := c.unit i
  let code := u.ringCode
  let e := rowElems code dd.fmt
  let start := u.tilePos - u.part.length
  let r := start / e
  let at_ := start % e
  let b := dd.bits
  let src := u.part ++ xs
  let full := if dd.scaled then src.length / 32 * 32 else src.length
  let last := decide (ctlIter u.ctl ≤ u.iter + 1 ∧ dd.count ≤ u.index + es.length)
  let conv := convRun (!dd.scaled || sd.keepsGroups (walkGroups sd.count)) sd.fmt dd.fmt
  let (bits, scales, _) := conv src
  let new := u.rowBits % 2 ^ (b * at_) + packBits b bits * 2 ^ (b * at_)
  let newScales := u.rowScales.filter (fun g => decide (g.1 < at_ / 32)) ++ scales.zipIdx.map fun g => (at_ / 32 + g.2, g.1)
  modify fun s => s.putRow k code r new newScales
  modC k fun c => c.setUnit i { c.unit i with part := src.drop full, rowBits := new, rowScales := newScales }
  return (conv (if last then src else src.take full)).2.2

/-- The writes and flags of a granule in memory or the operand cache. -/
def streamPuts (sd dd : Desc) (rep : Int) (es : List Nat) (xs : List (Nat × Nat)) : List Put × Flags :=
  if dd.scaled then
    let copy := sd.fmt = dd.fmt && sd.keepsGroups dd.groups
    let groups : List (List Nat) :=
      if dd.crossed then
        (List.range (dd.dim 0)).map fun r => (List.range 32).map fun j => es.headD 0 + r + dd.dim 0 * j
      else [es]
    let get := fun e => xs.getD (e - es.headD 0) (0, 127)
    joinPuts (groups.map fun g =>
      let vals := g.map get
      let e0 := g.headD 0
      if copy then
        (dd.putGroup rep e0 ((vals.head?.map (·.2)).getD 0) (vals.map (·.1)), (0 : Flags))
      else
        let (x, bits, f) := encodeGroup dd.fmt 0 (vals.map (valueOf sd.fmt))
        (dd.putGroup rep e0 x bits, f))
  else
    joinPuts ((es.zip xs).map fun ex =>
      let (b, f) := if sd.fmt = dd.fmt then (ex.2.1, (0 : Flags)) else encodeElem dd.fmt 0 (valueOf sd.fmt ex.2)
      ([dd.putElem rep ex.1 b], f))

/-- The bytes of a write by place: a physical address, or an address of this core's operand cache. -/
def MemPort.places (p : MemPort) (k : Nat) : Put → M (List (Nat × Byte))
  | .oc bs => return bs.map fun b => ((k + 1) * 2 ^ 64 + b.1, b.2.1)
  | .mem va n v => do
    let parts ← p.loc .store va n
    return (parts.flatMap fun x => (rangeFrom x.2.1 x.2.2)).zip (leBytes n v)

/-- Another unit's bytes in a row or 64-byte span that a RUNNING unit is filling are lost to what it writes there next (R148). -/
def Core.hitUnits (c : Core) (but : Option Nat) (spans : List Nat) : Core :=
  (List.range 8).foldl (fun c i =>
    let u := c.unit i
    let hit := spans.filter fun x => u.span.any fun b => b.1 / 64 == x
    if u.state = 1 ∧ some i ≠ but ∧ hit ≠ [] then c.setUnit i { u with hit := (u.hit ++ hit).dedup } else c) c

/-- The writes of a granule in memory or the operand cache; where another unit has written in a row or span that this unit has begun,
the unit writes its own bytes there anew, so that each ends with the whole of one unit's data (R148). -/
def streamStore (k i : Nat) (p : MemPort) (ws : List Put) : M Unit := do
  let new := (← collect ws (p.places k)).flatten
  let spans := (new.map (·.1 / 64)).dedup
  let u := (← getC k).unit i
  let old := u.span.filter fun b => !new.any (·.1 == b.1)
  forEach (old.filter fun b => spans.contains (b.1 / 64) && u.hit.contains (b.1 / 64)) fun b =>
    if b.1 < 2 ^ 64 then p.wr 0 b.1 1 b.2.toNat else modify fun s => s.ocWrite k (b.1 % 2 ^ 64) [b.2]
  p.putAll k ws
  modify fun s => s.cores.foldl (fun s x => s.updCore x.1 fun c => c.hitUnits (if x.1 = k then some i else none) spans) s
  modC k fun c => c.setUnit i { c.unit i with span := old ++ new, hit := u.hit.filter fun x => !spans.contains x }

/-- Progress after a granule of n elements (R143, R149). -/
def Core.advanceUnit (c : Core) (i n : Nat) (fl : Flags) : Core :=
  let u := c.unit i
  let d := Desc.of u.dst
  let index := u.index + n
  let wrap := decide (d.count ≤ index)
  let u := { u with index := if wrap then 0 else index, iter := if wrap then u.iter + 1 else u.iter, flags := u.flags ||| fl }
  if d.space ≤ 1 then
    let moved := u.moved + n * d.bits / 8
    c.setUnit i { u with moved := moved, sfill := moved / 2048 }
  else
    let code := u.ringCode
    let pos := u.tilePos + n
    if c.rowsOf code * rowElems code d.fmt ≤ pos then
      (c.updTile code fun t => { t with st := 2, poison := false }).setUnit i
        { u with tilePos := 0, tileNo := u.tileNo + 1, taken := false, sfill := u.sfill + c.tileCost code }
    else c.setUnit i { u with tilePos := pos }

/-- All iterations are walked: a partly filled credit unit counts (R149), then the notice with its release (R144, R252). -/
def State.finishUnit (s : State) (k i : Nat) : State :=
  let c := s.core k
  let u := c.unit i
  let d := Desc.of u.dst
  let u :=
    if u.noticeDue then u
    else if d.space ≤ 1 then { u with sfill := (u.moved + 2047) / 2048 }
    else if u.tilePos = 0 then u
    else
      let rows := (u.tilePos + rowElems u.ringCode d.fmt - 1) / rowElems u.ringCode d.fmt
      { u with sfill := u.sfill + (if d.space = 2 then (rows * 64 + 2047) / 2048 else 1) }
  if ctlNotify u.ctl then
    let s := if u.noticeDue then s
      else if 2 ≤ ctlScope u.ctl then s.lagRelease (k / 16) (u.wrote.filterMap ((s.atoll (k / 16)).lagFind (k / 16))) (some k)
      else s
    if c.outq.length < 8 then
      (s.streamNotice k u).updCore k fun c => c.setUnit i { u with state := 3, noticeDue := false, wrote := [] }
    else s.updCore k fun c => c.setUnit i { u with noticeDue := true, wrote := [] }
  else s.updCore k fun c => c.setUnit i { u with state := 3, wrote := [] }

/-- The unit takes the tile or W register that it writes next: FILLING, and empty where it has not begun it, except for rows that
another RUNNING unit has written there (R148). -/
def Core.takeTile (c : Core) (i : Nat) : Core :=
  let u := c.unit i
  let first := !u.taken && !(List.range 8).any fun j =>
    j != i && (c.unit j).state == 1 && (c.unit j).writes? == some u.ringCode
  (c.setUnit i { u with taken := true, target := u.ringCode % 16 }).updTile u.ringCode fun t =>
    { t with st := 1, writer := i, fmt := (Desc.of u.dst).fmt, data := if first then [] else t.data,
             scale := if first then [] else t.scale }

/-- A tile granule as its runs of one row each. -/
def rowRuns (e : Nat) : Nat → Nat → List Nat → List (List Nat)
  | 0, _, _ => []
  | fuel + 1, pos, es =>
    if es = [] then [] else es.take (e - pos % e) :: rowRuns e fuel (pos + (e - pos % e)) (es.drop (e - pos % e))

/-- Write a granule of a tile ring, row by row; it may go on into the next W register, which was paid for with it. -/
def streamTile (k i : Nat) (sd dd : Desc) (es : List Nat) (xs : List (Nat × Nat)) : M Unit := do
  let u := (← getC k).unit i
  forEach (rowRuns (rowElems u.ringCode dd.fmt) es.length u.tilePos es) fun run => do
    modC k fun c => if (c.unit i).taken then c else (c.setUnit i { c.unit i with paid := 0 }).takeTile i
    let fl ← streamRow k i sd dd run ((xs.drop (run.headD 0 - es.headD 0)).take run.length)
    modC k fun c => c.advanceUnit i run.length fl

/-- One granule of a unit that has its credits. -/
def granuleBody (k i : Nat) : M Unit := do
  let c ← getC k
  let u := c.unit i
  let sd := Desc.of u.src
  let dd := Desc.of u.dst
  let es := u.granule
  let need := c.creditNeed u
  modC k fun c =>
    let c := c.setUnit i { u with credits := u.credits - need
                                  paid := if u.toTile then (if u.crosses then 1 else 0) else u.paid + need }
    if u.toTile then c.takeTile i else c
  let p := streamPort k i u
  let srep := (u.iter : Int) * sd.repstep
  let drep := (u.iter : Int) * dd.repstep
  forEach es fun e => do
    sd.check p srep .load [e]
    dd.check p drep .store [e]
  let xs ← collect es fun e => sd.readElem k p srep e
  if u.toTile then streamTile k i sd dd es xs else do
    let r := streamPuts sd dd drep es xs
    streamStore k i p r.1
    modC k fun c => c.advanceUnit i es.length r.2

/-- A granule, with the halt that a fault in it causes (R154, R186). A tile that the unit cannot write is not begun: it is not marked
PARTIAL and TARGET does not name it (DESIGN CHOICE: notes/assumptions/160). -/
def runGranule (k i : Nat) : M Unit := do
  let c ← getC k
  let u := c.unit i
  if u.noticeDue then modify fun s => s.finishUnit k i
  else if c.cannotWrite u then modC k fun c => c.haltUnit i 2 0 true
  else
    let r : Except Err Unit ← tryCatch (do
      granuleBody k i
      return .ok ()) fun e => return .error e
    match r with
    | .ok () =>
      let u := (← getC k).unit i
      if ctlIter u.ctl ≤ u.iter then modify fun s => s.finishUnit k i
    | .error (.exc e) =>
      if e.code = 0x12 then do
        modC k fun c => c.haltUnit i 5 e.addr e.write
        modify fun s => s.raiseMchk k { num := e.detail, index := e.index, addr := e.addr, deferred := false, injected := e.injected }
      else if e.code = 0x05 then modC k fun c => c.haltUnit i 3 e.addr false
      else modC k fun c => c.haltUnit i (if e.detail.testBit 4 then 2 else 1) e.addr (e.detail.testBit 2)
    | .error e => throw e

/-- The lagoon port grants one granule: to the first eligible unit at or after the pointer (R445). -/
def execStreamGranule (c : CoreId) (s : State) : Host.Outcome State Fault Refusal :=
  let k := coreKey c
  let x := s.core k
  if isCompute k && s.corePowered k && x.run != .inReset then
    match ((List.range 8).map fun j => (x.rr + j) % 8).find? fun i => x.eligible i with
    | some i => runEvent (do
        modC k fun c => { c with rr := (i + 1) % 8 }
        runGranule k i) s
    | none => .next s
  else .next s

/-! ### LBAR (R152, R153, R188) -/

/-- What LBAR waits for has come. -/
def Core.lbarDone (c : Core) : Bool :=
  ((List.range 8).all fun i =>
    let u := c.unit i
    !((u.state == 1 || u.state == 2) && (u.cls == 0 || u.cls == 4)))
    && !c.bg.any (·.isArray)

def lbarBody (k word : Nat) : M Flow := do
  needCompute k word
  modC k Core.runGroups
  if (← getC k).lbarDone then return .next
  else do
    modC k fun c => { c with wait := .lbar }
    stall

/-- LBAR (R152). -/
def execLbar (c : CoreId) (s : State) : Host.Outcome State Fault Refusal :=
  runInstr c (instrWord (.lbar c)) false (lbarBody (coreKey c) (instrWord (.lbar c))) s

/-- A waiting LBAR completes (R152, R153). -/
def execLbarComplete (c : CoreId) (s : State) : Host.Outcome State Fault Refusal :=
  let k := coreKey c
  if (s.core k).wait = .lbar ∧ s.issuing k ∧ (s.core k).lbarDone then
    runInstr c (instrWord (.lbar c)) false (lbarBody k (instrWord (.lbar c))) (s.updCore k fun x => { x with wait := .none })
  else .next s

end Sys2Proof.Machine
end

