-- ==== Sys2Proof/Machine/Unit.lean ====
section
/-! DEFINITION. The scheduling of a packet unit's rings (R373, R374). -/

namespace Sys2Proof.Machine
open Sys2Proof

def PUnit.ring (u : PUnit) (r : Nat) : Ring := u.rings.get {} r
def PUnit.setRing (u : PUnit) (r : Nat) (x : Ring) : PUnit := { u with rings := u.rings.set {} r x }

/-- FW_ACTIVATE of component 0 waits at the SERVICE ring for every other packet of the unit (R386). -/
def PUnit.restarting (u : PUnit) : Bool :=
  match (u.ring 2).parked with
  | some p => p.pkt.opc == 0x31 && p.pkt.params.headD 0 &&& 15 == 0
  | none => false

/-- A ring waits: it holds a packet not fetched yet, and none of its packets is parked (R373). -/
def PUnit.waits (u : PUnit) (r : Nat) : Bool :=
  let x := u.ring r
  x.present && x.fetched != x.tail && x.parked.isNone && (r == 0 || !u.restarting)

/-- CQAGE.r.LIMIT; the configuration blob's default is 0x1_0000 (R375). -/
def PUnit.limit (u : PUnit) (r : Nat) : Nat := u.ageLimit.get 0x10000 r

/-- The rings as an arbiter sees them. -/
def PUnit.arbiter (u : PUnit) : Arbiter :=
  { u.arb with waiting := [0, 1, 2].foldl (fun m r => m.set [] r (if u.waits r then [[]] else [])) [] }

/-- A cycle of MCLK: the age of each waiting ring grows (R374). -/
def PUnit.tick (u : PUnit) : PUnit := { u with arb := u.arbiter.tick u.limit [0, 1, 2] }

end Sys2Proof.Machine
end

