-- ==== Sys2Proof/Machine/Clock.lean ====
section
/-! DEFINITION. What a cycle of ACLK does when no command waits: the counters of R51 count, ages grow (R285, R290, R374), and
the meters of time run (R388) (DESIGN CHOICE: notes/assumptions/1). -/

namespace Sys2Proof.Machine
open Sys2Proof

/-- A counter's next value, modulo 2^64 (R51). -/
def nextCount (n : Nat) : Nat := (n + 1) % 2 ^ 64

/-- A compute core's cycle counts as active: powered, not halted, for debug neither (R94), not waiting in a FENCE.TASK of a drained atoll (R388). -/
def State.activeCore (s : State) (k : Nat) : Bool :=
  let c := s.core k
  let d := s.die (k / 144)
  (s.atoll (k / 16)).powered && !c.dbgHalted
    && (match c.run with
      | .halted _ => false
      | _ => true)
    && !(c.wait == .fenceTask && (match d.logicalAt (posOfKey k) with
      | some a => d.drained.testBit a
      | none => false))

/-- Active cores of a die. -/
def State.activeCores (s : State) (d : Nat) : Nat := ((rangeFrom (144 * d) 144).filter s.activeCore).length

/-- A core has a stream unit RUNNING that waits for no credits: its cycle counts as stream busy (R388). -/
def Core.streamBusy (c : Core) : Bool := (List.range 8).any fun i => (c.unit i).state == 1 && !c.waitcr i

/-- Cores of a die with a busy stream unit. -/
def State.streamCores (s : State) (d : Nat) : Nat :=
  ((rangeFrom (144 * d) 144).filter fun k => s.corePowered k && (s.core k).streamBusy).length

/-- One cycle of ACLK on a die: the counter and the time meters run in P0, P1 and P2 (R52, R388). -/
def Die.tick (d : Die) (active stream : Nat) : Die :=
  { d with ctr := nextCount d.ctr,
           meters := { d.meters with active := d.meters.active + active, stream := d.meters.stream + stream,
                                     cycles := d.meters.cycles + 1 } }

/-- A die at a cycle of ACLK; its arbiters count MCLK cycles, one for two of ACLK (R8). -/
def State.tickDie (s : State) (d : Nat) : State :=
  if (s.die d).powered then
    let n := s.activeCores d
    let m := s.streamCores d
    s.updDie d fun x => if s.board.phase then (x.tick n m).tickArbiters else x.tick n m
  else s

/-- One cycle of ACLK: each powered die and the mainland die count; the service counter counts MCLK cycles. -/
def State.tick (s : State) : State :=
  let s := [0, 1, 2, 3].foldl (fun s d => s.tickDie d) s
  let s := if s.board.phase then [0, 1, 2, 3, 4].foldl (fun s u => s.updPunit u PUnit.tick) s else s
  let mclk := s.board.servicePowered && s.board.phase
  s.updBoard fun b =>
    { b with mctr := if b.mainlandOn then nextCount b.mctr else b.mctr,
             svcCtr := if mclk then nextCount b.svcCtr else b.svcCtr,
             meters := if mclk then { b.meters with cycles := b.meters.cycles + 1 } else b.meters,
             phase := !b.phase }

end Sys2Proof.Machine
end

