-- ==== Sys2Proof/Machine/Tile.lean ====
section
/-! DEFINITION. TLD, TST, TREL, TCFG and TMOV (R173, R179 to R186, R190 to R193). -/

namespace Sys2Proof.Machine
open Sys2Proof

/-- A tile code that names a tile (R160). -/
def needTile (word code : Nat) : M Unit := illegalIf word (decide (40 ≤ code))

/-- OR conversion flags into VFLAGS [5:0]; IRAISED keeps its value (R181). -/
def Core.orVflagsOnly (c : Core) (f : Flags) : Core := c.setSr vflagsNo (c.sr vflagsNo ||| zext64 f)

/-- A poisoned tile is consumed: MCHECK before any effect (R176, R180). The entry names the producing detector (R416); ADDR is 0, and
every poison of a tile comes from an injection (DEDUCED: notes/assumptions/36). -/
def poisonTrap {α : Type} (k code : Nat) : M α := do
  modify fun s => s.detect (unitOfKey k) { code := 0x0110, sev := 3, loc := s.locOf k, injected := true,
                                           data2 := w64 ((s.core k).tile code).pdet }
  mcheck k 0x0110 0 false true

/-! ### The checks of R179 and R180 -/

/-- What R179 asks of Dn, the tile and its format before the first granule. Answers true where a dimension is 0. TST's check of the
source's state stands after the unconfigured row (DESIGN CHOICE: notes/assumptions/134). -/
def tileChecks (k word code fmt : Nat) (d : Desc) (src : Bool) : M Bool := do
  let c ← getC k
  illegalIf word (d.malformed || decide (2 ≤ d.space))
  if d.count = 0 then
    if c.rowsOf code = 0 then tileTrap code
    return true
  else do
    illegalIf word ((d.scaled || blockScaled fmt) && d.space == 1)
    illegalIf word (!src && ((isZ code && fmt != 0) || (isW code && (fmt == 0 || fmt == 5)) || decide (13 ≤ fmt)))
    if c.rowsOf code = 0 then tileTrap code
    if src then
      let t := c.tile code
      if !(t.st == 2 || (isZ code && (t.st == 0 || t.st == 4))) then tileTrap code
    illegalIf word (d.count != c.rowsOf code * rowElems code fmt)
    match d.misaligned with
    | some (v, n) => trap 0x03 n v
    | none => return false

/-- Rows from `r`, `left` of them before an event stops the instruction, as a machine check that has arisen does; a stop or fault
records the position (R77, R90, R190). -/
def rowLoop (k : Nat) (pc : W64) (row onStop : Nat → M Unit) : Nat → Nat → Option Nat → M Unit
  | 0, _, _ => pure ()
  | f + 1, r, left => do
    let stopAt : M Unit := do
      modC k fun c => c.setSr tposNo (posWord pc r)
      onStop r
    if left = some 0 || !(← getC k).mchk.isEmpty then do
      stopAt
      stall
    else do
      tryCatch (row r) fun e => do
        stopAt
        throw e
      rowLoop k pc row onStop f (r + 1) (left.map (· - 1))

/-- One row of TLD (R179, R181). An uncorrectable error gives the tile and the row (R193). -/
def tldRow (k code fmt : Nat) (d : Desc) (r : Nat) : M Unit := do
  let c ← getC k
  let p := l1Port k c.level
  let n := rowElems code fmt
  let es := rangeFrom (r * n) n
  d.check p 0 .load es
  let xs ← tryCatch (collect es fun e => d.readElem k p 0 e) fun
    | .exc e => throw (.exc (if e.code = 0x12 then { e with addr := tileAddr code r } else e))
    | e => throw e
  let (bits, scales, fl) := convRun (!blockScaled fmt || d.keepsGroups (walkGroups d.count)) d.fmt fmt xs
  modify fun s => (s.putRow k code r (packBits (elemBits fmt) bits) (scales.zipIdx.map fun g => (g.2, g.1))).updCore k
    fun c => c.orVflagsOnly fl

/-- The record of a TLD's stop: its PC tag and tile (R191). -/
def tldKey (pc : W64) (code : Nat) : Nat := bitsOf pc.toNat 16 2 * 64 + code

/-- TLD stops: its tile is PARTIAL, and its ROWS are recorded (R190, R191). -/
def tldStop (k code : Nat) : M Unit :=
  modC k fun c => { c.updTile code fun t => { t with st := 3, writer := 8 } with
    tldStops := c.tldStops.set 0 (tldKey c.pc code) (c.rowsOf code) }

/-- TLD (R179, R181, R190, R191). One that moves nothing, a dimension of its descriptor being 0, leaves the open groups as they are
(DESIGN CHOICE: notes/assumptions/180). -/
def execTld (c : CoreId) (tile : BitVec 6) (dn : BitVec 4) (tfmt : BitVec 5) (stop : Option Nat) (s : State) :
    Host.Outcome State Fault Refusal :=
  let w := instrWord (.tld c tile dn tfmt stop)
  let k := coreKey c
  let code := tile.toNat
  let fmt := tfmt.toNat
  runInstr c w false (do
    needCompute k w
    needTile w code
    let x ← getC k
    let valid := (x.sr tposNo).getLsbD 63
    let start ← posStart k tposNo 2 x.pc
    if valid && !((x.tile code).st == 3 && (x.tile code).writer == 8 && x.tldStops.get 0 (tldKey x.pc code) == x.rowsOf code) then do
      modC k fun c => c.setSr tposNo 0
      trap 0x07 2
    let d := x.descOf dn.toNat
    if ← tileChecks k w code fmt d false then do
      modC k fun c => c.setSr tposNo 0
      return .next
    else do
      modC k fun c => c.runGroupOf code
      let x ← getC k
      if x.tileBusy code || x.gathering code || d.meetsTmov x 1 then stall
      let rows := x.rowsOf code
      if start < rows then do
        modC k fun c => c.updTile code fun t =>
          { t with st := 1, writer := 8, fmt := fmt, data := if start = 0 then [] else t.data
                   scale := if start = 0 then [] else t.scale }
        rowLoop k x.pc (tldRow k code fmt d) (fun _ => tldStop k code) (rows - start) start stop
      modC k fun c => { (c.updTile code fun t => { t with st := 2, writer := 8, fmt := fmt, poison := false }).setSr tposNo 0 with
        tldStops := c.tldStops.set 0 (tldKey x.pc code) 0 }
      return .next) s

/-- The 32 places of the scale group that holds a walk element: the walk element at each place, where there is one (R134). -/
def Desc.members (d : Desc) (e : Nat) : List (Option Nat) :=
  let n0 := d.dim 0
  let i0 := e % n0
  let i1 := e / n0 % d.dim 1
  (List.range 32).map fun p =>
    if d.crossed then
      let j := i1 / 32 * 32 + p
      if j < d.dim 1 then some (e - i1 * n0 + j * n0) else none
    else
      let j := i0 / 32 * 32 + p
      if j < n0 then some (e - i0 + j) else none

/-- The scale groups that tile row `es` completes, each by its first place's walk element (R180, R199). -/
def Desc.doneGroups (d : Desc) (es : List Nat) : List (List (Option Nat)) :=
  (es.filter fun e => ((d.members e).filterMap id).getLast? == some e).map d.members

/-- A TST changes no group's membership: every group of the tensor receives, in order, one group of the tile (R200). -/
def Desc.keepsTile (d : Desc) : Bool :=
  (d.doneGroups (List.range d.count)).all fun g =>
    let first := (g.headD none).getD 0
    g.zipIdx.all (fun x => x.1 == some (first + x.2)) && first % 32 == 0

/-- The bits and scale of a group that TST writes, and its flags: copied where the whole TST is a copy, else encoded. Places of
a group beyond the tensor's edge are written as +0.0 (DESIGN CHOICE: notes/assumptions/30). -/
def tstGroup (copy : Bool) (fmt : Nat) (d : Desc) (elem : Nat → Nat × Nat) (g : List (Option Nat)) : Nat × List Nat × Flags :=
  if copy then ((elem ((g.headD none).getD 0)).2, g.map fun e => (elem (e.getD 0)).1, 0)
  else encodeGroup d.fmt 0 (g.map fun e => match e with
    | some e => valueOf fmt (elem e)
    | none => FV.zero false)

/-- Element e of a tile that TST reads: +0.0 of one that holds no data. -/
def Tile.stored (t : Tile) (code fmt : Nat) (held : Bool) (e : Nat) : Nat × Nat :=
  let n := rowElems code fmt
  if held then t.elem code fmt (e / n) (e % n) else (0, 127)

/-- TST stops before row r inside scale groups: the elements of the rows below are written under a scale of their own, which the rest
of the group replaces; the bits of the others stay, and the conversion's flags are left to the whole group (R181, R190; DESIGN
CHOICE: notes/assumptions/135). The bits that stay are read behind a store that fills the line, so that the write trains no detector
and raises no flag (R245, R260). -/
def tstStop (k code fmt : Nat) (held : Bool) (d : Desc) (r : Nat) : M Unit := do
  let c ← getC k
  let p := l1Port k c.level
  let n := rowElems code fmt
  let elem := (c.tile code).stored code fmt held
  let below := List.range (r * n)
  let cut := (below.map d.members).dedup.filter fun g => (g.filterMap id).any fun e => decide (r * n ≤ e)
  forEach (if d.scaled then cut else []) fun g => do
    let (x, bits, _) := tstGroup false fmt d elem (g.map fun e => e.filter fun e => decide (e < r * n))
    forEach (g.zip bits) fun eb =>
      match eb.1 with
      | some e => if e < r * n then do
          let (a, bit) := d.place 0 e
          let m := (bit + d.bits + 7) / 8
          let parts ← p.loc .store (w64 a) m
          forEach parts fun x => p.wr x.1 x.2.1 0 0
          let old ← readParts p.rd parts
          p.store (w64 a) m (old % 2 ^ bit + eb.2 % 2 ^ d.bits * 2 ^ bit + old / 2 ^ (bit + d.bits) * 2 ^ (bit + d.bits))
        else pure ()
      | none => pure ()
    match g.filterMap id with
    | e :: _ => p.store (d.scaleAddr 0 e) 1 x
    | [] => pure ()

/-- One row of TST (R180, R181). -/
def tstRow (k code fmt : Nat) (held : Bool) (d : Desc) (r : Nat) : M Unit := do
  let c ← getC k
  let p := l1Port k c.level
  let n := rowElems code fmt
  let es := rangeFrom (r * n) n
  if held && (c.tile code).poison then poisonTrap k code
  let bad ← modifyGet fun s => s.meetRow k code r 3
  if bad then mcheck k 0x0105 (tileAddr code r) false true
  let elem := ((← getC k).tile code).stored code fmt held
  d.check p 0 .store es
  let r :=
    if d.scaled then
      let copy := fmt = d.fmt && d.keepsTile
      joinPuts ((d.doneGroups es).map fun g =>
      let (x, bits, f) := tstGroup copy fmt d elem g
      (d.putGroup 0 ((g.headD none).getD 0) x bits, f))
    else joinPuts (es.map fun e =>
      let (b, f) := if fmt = d.fmt then ((elem e).1, (0 : Flags)) else encodeElem d.fmt 0 (valueOf fmt (elem e))
      ([d.putElem 0 e b], f))
  p.putAll k r.1
  modC k fun c => c.orVflagsOnly r.2

/-- TST (R180, R181, R190). -/
def execTst (c : CoreId) (tile : BitVec 6) (dn : BitVec 4) (stop : Option Nat) (s : State) : Host.Outcome State Fault Refusal :=
  let w := instrWord (.tst c tile dn stop)
  let k := coreKey c
  let code := tile.toNat
  runInstr c w false (do
    needCompute k w
    needTile w code
    let x ← getC k
    let start ← posStart k tposNo 2 x.pc
    illegalIf w (isW code)
    let d := x.descOf dn.toNat
    let fmt := if isZ code then 0 else (x.tile code).fmt
    if ← tileChecks k w code fmt d true then do
      modC k fun c => c.setSr tposNo 0
      return .next
    else do
      let x ← getC k
      if x.willWrite code || d.meetsTmov x 1 then stall
      let held := x.zHolds code
      rowLoop k x.pc (tstRow k code fmt held d) (tstStop k code fmt held d) (x.rowsOf code - start) start stop
      modC k fun c => c.setSr tposNo 0
      return .next) s

/-! ### TREL and TCFG (R184, R185) -/

/-- A RUNNING or HALTED unit is writing the tile (R184). -/
def Core.streamWrites (c : Core) (code : Nat) : Bool := (List.range 8).any fun i => (c.unit i).writes? == some code

/-- TREL (R184). -/
def execTrel (c : CoreId) (tile : BitVec 6) (s : State) : Host.Outcome State Fault Refusal :=
  let w := instrWord (.trel c tile)
  let k := coreKey c
  let code := tile.toNat
  runInstr c w false (do
    needCompute k w
    needTile w code
    let x ← getC k
    if x.rowsOf code = 0 then tileTrap code
    modC k fun c => c.runGroupOf code
    if x.streamWrites code || (← getC k).gathering code then tileTrap code
    modC k fun c => c.release code
    return .next) s

/-- A release whose earlier readers have finished takes effect: credits return, and the tile is EMPTY where it is still RELEASING, and
not by a later release, be it one that an open group holds (R164, R184). Later work that writes it has made it FULL at acceptance. -/
def Core.finishRelease (c : Core) (i code writer : Nat) : Core :=
  let c := (c.dropBg i).returnCredits writer (c.tileCost code)
  if (c.tile code).st = 4 ∧ !c.bg.any (·.releases code) ∧ !c.groupReleases code then c.emptyTile code else c

/-- The tile's oldest release completes (R184). -/
def Core.completeRelease (c : Core) (code : Nat) : Core :=
  match c.firstBg (·.releases code) with
  | some (i, .rel t w) => if c.free? i (.rel t w) then c.finishRelease i t w else c
  | _ => c

/-- Every release that waits for nothing completes. -/
def Core.completeReleases (c : Core) : Core := (List.range 40).foldl Core.completeRelease c

/-- The earlier readers of a released tile have finished: it is EMPTY and returns its credits (R184). -/
def execTileReleaseComplete (c : CoreId) (tile : BitVec 6) (s : State) : Host.Outcome State Fault Refusal :=
  let k := coreKey c
  if s.corePowered k then .next (s.updCore k fun x => x.completeRelease tile.toNat) else .next s

/-- Tiles of a unit's TILE_T ring (R135). -/
def StreamUnit.ringTiles (u : StreamUnit) : List Nat :=
  let d := Desc.of u.dst
  if d.space = 2 then (List.range (bitsOf d.base.toNat 11 8 + 1)).map fun i => (bitsOf d.base.toNat 3 0 + i) % 16 else []

/-- TCFG (R158, R185). -/
def execTcfg (c : CoreId) (a b : Reg) (s : State) : Host.Outcome State Fault Refusal :=
  let w := instrWord (.tcfg c a b)
  let k := coreKey c
  runInstr c w false (do
    needCompute k w
    let x ← getC k
    let sel := (x.rx a).toNat
    let rows := (x.rx b).toNat
    illegalIf w (decide (2 ^ 32 ≤ sel) || decide (256 < rows))
    modC k Core.runGroups
    modC k Core.completeReleases
    let x ← getC k
    if !x.bg.isEmpty then stall
    let codes := (List.range 32).filter fun t => sel.testBit t
    let changed := codes.filter fun t => (x.tile t).rows != rows
    forEach (List.range 8) fun i =>
      let u := x.unit i
      if (u.state = 1 ∨ u.state = 2) ∧ u.ringTiles.any changed.contains then
        (if u.state = 1 then stall else tileTrap u.ringCode)
      else pure ()
    modC k fun x => changed.foldl (fun x t => (x.retire t (x.tile t).writer).updTile t fun y => { y with rows := rows }) x
    return .next) s

/-! ### TMOV (R182, R183) -/

/-- The forms of TMOV that R182 refuses. -/
def tmovIllegal (code dir tfmt ofmt : Nat) : Bool :=
  if dir = 0 then !isZ code || tfmt != 0 || decide (7 ≤ ofmt)
  else if dir = 1 then !isT code || decide (13 ≤ tfmt) || decide (7 ≤ ofmt)
  else if dir = 2 then !isZ code || ofmt != 0 || decide (13 ≤ tfmt)
  else !isZ code || tfmt != 0 || decide (7 ≤ ofmt)

/-- TMOV: every check is made at acceptance, and its destination is FULL from then on (R182). Of several, the source's configuration and
state come first, then the destination's, then POISON (DESIGN CHOICE: notes/assumptions/193). -/
def execTmov (c : CoreId) (tile : BitVec 6) (pk : BitVec 4) (dir : BitVec 2) (tfmt ofmt : BitVec 5) (s : State) :
    Host.Outcome State Fault Refusal :=
  let w := instrWord (.tmov c tile pk dir tfmt ofmt)
  let k := coreKey c
  let code := tile.toNat
  runInstr c w false (do
    needCompute k w
    needTile w code
    illegalIf w (tmovIllegal code dir.toNat tfmt.toNat ofmt.toNat)
    let x ← getC k
    if x.rowsOf code = 0 then tileTrap code
    if dir = 0 ∨ dir = 2 then
      if !((x.tile code).st == 2 || (x.tile code).st == 0 || (x.tile code).st == 4) then tileTrap code
    if dir = 2 then
      if (x.tile pk.toNat).rows = 0 ∨ x.rowsOf code * 32 ≠ (x.tile pk.toNat).rows * perRow tfmt.toNat then tileTrap pk.toNat
    if (dir = 0 ∨ dir = 2) ∧ x.zHolds code ∧ x.poisoned code then poisonTrap k code
    let dst := if dir = 2 then pk.toNat else code
    modC k fun c => (c.runGroupOf code).runGroupOf dst
    let y ← getC k
    if y.gathering code || y.gathering dst then stall
    modC k fun c =>
      let op := BgOp.tmov code pk.toNat (c.rowBase (pNo pk.toNat)) dir.toNat tfmt.toNat ofmt.toNat (c.zHolds code)
      let c := { c with bg := c.bg ++ [op] }
      if dir = 0 then c else c.updTile dst fun t => { t with st := 2, writer := 9, fmt := tfmt.toNat }
    return .next) s

/-- OR flags into MXSTAT.FLAGS (R169). -/
def Core.orMxflags (c : Core) (f : Flags) : Core := { c with mxflags := c.mxflags ||| f }

/-- Row r of a Z tile as 32 FP32 values, +0.0 where it held no data; and whether an uncorrectable error stands in it. -/
def State.zRowBg (s : State) (k code r : Nat) (held : Bool) : List Nat × Bool × State :=
  if held then
    let (bad, s) := s.meetRow k code r 2
    let t := (s.core k).tile code
    ((List.range 32).map (t.z r), bad, s)
  else (List.replicate 32 0, false, s)

/-- Operand-cache bytes as a background instruction reads them: an uncorrectable error is reported and does not stop it (R193). -/
def State.ocReadBg (s : State) (k a n : Nat) : List Byte × Bool × State :=
  let bads := (s.core k).ocBad.filter fun b => (ocWords a n).contains (b / 8)
  let (hit, s) := bads.foldl (fun (acc : Bool × State) b =>
    let fix := b % 4 == 1
    let s := acc.2.detect (unitOfKey k)
      { code := 0x0104, sev := if fix then 1 else 2, loc := acc.2.locOf k, injected := decide (4 ≤ b % 8) }
    if fix then (acc.1, s.updCore k fun c => { c with ocBad := c.ocBad.filter (· != b) })
    else (true, s.bgMchk k 0x0104 (w64 (b / 8 / 8)))) (false, s)
  ((s.core k).ocBytes a n, hit, s)

/-- Mark a tile poisoned by what a detector found. -/
def State.poisonTile (s : State) (k code det : Nat) : State :=
  s.updCore k fun c => c.updTile code fun t => { t with poison := true, pdet := det }

/-- One row of a TMOV. Answers the state. R200 does not list TMOV among the copies, so equal formats are converted too (R202;
DEDUCED: notes/assumptions/124). -/
def State.tmovRow (s : State) (k tile pk base dir tfmt ofmt : Nat) (held : Bool) (r : Nat) : State :=
  if dir = 0 then
    let (vs, bad, s) := s.zRowBg k tile r held
    let s := if bad then s.bgMchk k 0x0105 (tileAddr tile r) else s
    let es := vs.map fun v => encodeElem ofmt 0 (fpDec v)
    let b := elemBits ofmt
    let bytes := leBytes (4 * b) (packBits b (es.map (·.1)))
    (s.ocWrite k ((base * 64 + r * 4 * b) % ocSize) bytes).updCore k fun c => c.orMxflags (es.foldl (fun f e => f ||| e.2) 0)
  else if dir = 2 then
    let n := perRow tfmt
    let zr := (rangeFrom (r * n / 32) ((n + 31) / 32))
    let (vs, bad, s) := zr.foldl (fun (acc : List Nat × Bool × State) q =>
      let (vs, bad, s) := acc.2.2.zRowBg k tile q held
      (acc.1 ++ vs, acc.2.1 || bad, if bad then s.bgMchk k 0x0105 (tileAddr tile q) else s)) (([] : List Nat), false, s)
    let xs := (vs.drop (r * n % 32)).take n
    let (bits, scales, fl) := convRun false 0 tfmt (xs.map fun v => (v, 127))
    let s := (s.putRow k pk r (packBits (elemBits tfmt) bits) (scales.zipIdx.map fun g => (g.2, g.1))).updCore k
      fun c => c.orMxflags fl
    if bad then s.poisonTile k pk 0x0105 else s
  else
    let fmt := if dir = 1 then tfmt else 0
    let n := rowElems tile fmt
    let b := elemBits ofmt
    let (bytes, bad, s) := s.ocReadBg k ((base * 64 + r * n * b / 8) % ocSize) (n * b / 8)
    let v := ofLe bytes
    let xs := (List.range n).map fun i => ((v >>> (b * i)) % 2 ^ b, 127)
    let (bits, scales, fl) := convRun false ofmt fmt xs
    let s := (s.putRow k tile r (packBits (elemBits fmt) bits) (scales.zipIdx.map fun g => (g.2, g.1))).updCore k
      fun c => c.orMxflags fl
    if bad then s.poisonTile k tile 0x0104 else s

/-- The oldest accepted TMOV runs once nothing before it holds its tiles (R166, R182). -/
def execTmovRun (c : CoreId) (s : State) : Host.Outcome State Fault Refusal :=
  let k := coreKey c
  if s.corePowered k then
    match (s.core k).firstBg (·.isTmov) with
    | some (i, .tmov tile pk base dir tfmt ofmt held) =>
      if (s.core k).free? i (.tmov tile pk base dir tfmt ofmt held) then
        let dst := if dir = 2 then pk else tile
        let rows := if dir = 2 then ((s.core k).tile pk).rows else (s.core k).rowsOf tile
        let s := if dir = 0 then s else s.updCore k fun c => c.updTile dst fun t => { t with poison := false, data := [], scale := [] }
        let s := (List.range rows).foldl (fun s r => s.tmovRow k tile pk base dir tfmt ofmt held r) s
        .next (s.updCore k fun c => c.dropBg i)
      else .next s
    | _ => .next s
  else .next s

end Sys2Proof.Machine
end

