-- ==== Sys2Proof/Machine/Matrix.lean ====
section
/-! DEFINITION. The forward pass: MMF, the array's passes, MMGATHER and its groups (R167 to R170, R174 to R178, R187 to R189,
R193, R204, R222). -/

namespace Sys2Proof.Machine
open Sys2Proof

/-! ### Cells (R163, R167, R177, R220) -/

def Core.cells (c : Core) (arr : Nat) : Cells := if arr = 0 then c.cells0 else c.cells1
def Core.setCells (c : Core) (arr : Nat) (x : Cells) : Core := if arr = 0 then { c with cells0 := x } else { c with cells1 := x }

/-- The weight of cell (k, c), its block scale included. -/
def Cells.weight (x : Cells) (k c : Nat) : FV := valueOf x.fmt (x.code.get 0 (32 * k + c), x.scl.get 127 (32 * k + c))

/-- The cells that a W register's load leaves, transposed or not (R220). -/
def cellsOf (w : Tile) (code : Nat) (tw : Bool) : Cells :=
  (List.range 1024).foldl (fun (x : Cells) i =>
    let e := if tw then w.elem code w.fmt (i % 32) (i / 32) else w.elem code w.fmt (i / 32) (i % 32)
    { x with code := x.code.set 0 i e.1, scl := x.scl.set 127 i e.2 }) { cls := fmtClass w.fmt, fmt := w.fmt }

/-- Load a W register into the cells of an array: the register empties and its credit returns; array 1 leaves its
output-stationary mode (R177, R220, R222). Answers whether an uncorrectable error stood in it. -/
def State.loadCells (s : State) (k arr code : Nat) (tw : Bool) : Bool × State :=
  let (bad, s) := (List.range 32).foldl (fun (acc : Bool × State) r =>
    let (b, s) := acc.2.meetRow k code r 2
    (acc.1 || b, if b then s.bgMchk k 0x0105 (tileAddr code r) else s)) (false, s)
  (bad, s.updCore k fun c =>
    let c := c.setCells arr (cellsOf (c.tile code) code tw)
    let c := if arr = 0 then { c with transp0 := tw } else { c with mode1 := false, acc := [] }
    c.retire code (c.tile code).writer)

/-! ### One pass (R167, R203, R204) -/

/-- The exact sum of products under R204, with NV. -/
def exactSum (ps : List (FV × Flags)) : FV × Flags :=
  let fl := ps.foldl (fun f p => f ||| p.2) (0 : Flags)
  let pinf := ps.any fun p => p.1 == .inf false
  let ninf := ps.any fun p => p.1 == .inf true
  if pinf && ninf then (.nan, fl ||| flNV)
  else if ps.any fun p => p.1.isNan then (.nan, fl)
  else if pinf then (.inf false, fl)
  else if ninf then (.inf true, fl)
  else (ps.foldl (fun a p => (fvAdd 0 a p.1).1) (FV.zero false), fl)

/-- An exact zero writes +0.0 (R203). -/
def FV.plusZero (v : FV) : FV := if v.isZero then FV.zero false else v

/-- rnd32 of a sum, after the prior value where there is one (R167, R204). Answers bits and flags. -/
def accum (prior : Option Nat) (s : FV × Flags) : Nat × Flags :=
  let r := match prior with
    | some z => let (v, f) := fvAdd 0 (fpDec z) s.1; (v, f ||| s.2)
    | none => s
  fpEnc 0 (r.1.plusZero, r.2)

/-- The 32 elements of token slot g of a T row (R162). -/
def Tile.token (t : Tile) (fmt r g : Nat) : List FV := (List.range 32).map fun p => valueOf fmt (t.elem 0 fmt r (32 * g + p))

/-- One token through the array: the 32 outputs and their flags. -/
def Cells.pass (x : Cells) (a : List FV) (prior : Option (List Nat)) : List Nat × Flags :=
  let es := (List.range 32).map fun c =>
    accum (prior.map fun z => z.getD c 0) (exactSum (a.zipIdx.map fun v => fvMul v.1 (x.weight v.2 c)))
  (es.map (·.1), es.foldl (fun f e => f ||| e.2) 0)

/-- A row of FP32 values as a number. -/
def packRow (vs : List Nat) : Nat := packBits 32 vs

/-- Meter the cycles in which an array streams a row (R388 w3). -/
def State.meterMat (s : State) (k n : Nat) : State :=
  s.updDie (k / 144) fun d => { d with meters := { d.meters with mat := satAdd d.meters.mat n (2 ^ 64 - 1) } }

/-- One T row of a pass: its tokens' Z rows. Answers whether the row, or a Z row it accumulates into, held an uncorrectable
error. -/
def State.passRow (s : State) (k arr t tf z : Nat) (accum? : Bool) (r : Nat) : Bool × State :=
  let (bad, s) := s.meetRow k t r 2
  let s := if bad then s.bgMchk k 0x0105 (tileAddr t r) else s
  let p := packOf tf
  (List.range p).foldl (fun (acc : Bool × State) g =>
    let zr := r * p + g
    let (prior, zbad, s) := acc.2.zRowBg k z zr accum?
    let s := if zbad then s.bgMchk k 0x0105 (tileAddr z zr) else s
    let c := s.core k
    let (vs, fl) := (c.cells arr).pass ((c.tile t).token tf r g) (if accum? then some prior else none)
    (acc.1 || zbad, (s.putRow k z zr (packRow vs) []).updCore k fun c => c.orMxflags fl)) (bad, s)

/-- A column residue that an injection makes fail (R193, R413). -/
def State.residue (s : State) (k arr : Nat) : Bool × State :=
  let loc := s.locOf k + arr * 32768
  match s.takeArmed (unitOfKey k) 0x0106 loc with
  | (some _, s) =>
    (true, (s.detect (unitOfKey k) { code := 0x0106, sev := 2, loc := loc, injected := true }).bgMchk k 0x0106 0)
  | (none, s) => (false, s)

/-- A pass (R167): every row of a T tile, the rows of a Z tile that held no data, and the Z tile's POISON (R193). -/
def State.pass (s : State) (k arr t tf z : Nat) (acc held wbad : Bool) : State :=
  let rows := ((s.core k).tile t).rows
  let tokens := rows * packOf tf
  let zrows := ((s.core k).tile z).rows
  let s := if !held || (!acc && decide (zrows ≤ tokens))
    then s.updCore k fun c => c.updTile z fun x => { x with poison := false } else s
  let s := if held then s else s.updCore k fun c => c.updTile z fun x => { x with data := [], bad := [] }
  let (bad, s) := (List.range rows).foldl (fun (b : Bool × State) r =>
    let (e, s) := b.2.passRow k arr t tf z (acc && held) r
    (b.1 || e, s)) (wbad, s)
  let (res, s) := s.residue k arr
  let s := if bad || res then s.poisonTile k z (if bad then 0x0105 else 0x0106) else s
  s.meterMat k rows

/-! ### Acceptance (R176, R222) -/

/-- What an accepted operation leaves in an array's cells, when it changes their class (R177, R218, R222). -/
def BgOp.cellsAfter (o : BgOp) (arr cls : Nat) : Nat :=
  match o with
  | .pass a _ tf _ _ _ keep _ => if a = arr ∧ !keep then fmtClass tf else cls
  | .gather a _ _ _ reqs => if a = arr then fmtClass ((reqs.head?.map (·.tf)).getD 0) else cls
  | .mmbwd _ _ _ _ _ _ keep _ _ => if arr = 1 then 0 else if keep then cls else 1
  | _ => cls

/-- The class of an array's cells as a later instruction sees it. -/
def Core.cellClass (c : Core) (arr : Nat) : Nat :=
  c.bg.foldl (fun cls o => match o, arr with
    | .mmbwd dy dx xf w z acc keep tw held, 1 =>
      -- an MMBWD discards array 1's weights; within MODE1 there are none
      (BgOp.mmbwd dy dx xf w z acc keep tw held).cellsAfter 1 cls
    | o, a => o.cellsAfter a cls) (c.cells arr).cls

/-- MODE1, and whether tokens stand undrained in the accumulators, as a later instruction sees them (R222). -/
def Core.mode1After (c : Core) : Bool × Bool :=
  c.bg.foldl (fun (m : Bool × Bool) o => match o with
    | .pass 1 _ _ _ _ _ false _ => (false, m.2)
    | .gather 1 _ _ _ _ => (false, m.2)
    | .mmbwd _ _ _ _ _ _ _ _ _ => (true, true)
    | .zdrain _ _ _ _ => (m.1, false)
    | _ => m) (c.mode1, decide (c.atok ≠ 0))

/-- The format that fills W register `code` of an array, to an instruction accepted now (R176): its own where it is FULL or
FILLING and no accepted load takes it, else that of a NEXT_WEIGHT unit whose ring holds it, the lowest-numbered of several (DESIGN
CHOICE: notes/assumptions/161). -/
def Core.weightFmt (c : Core) (arr w : Nat) (taken : Bool) : Option Nat :=
  let t := c.tile (wCode arr w)
  if !taken && (t.st == 1 || t.st == 2) then some t.fmt
  else
    ((List.range 8).find? fun i =>
      let u := c.unit i
      let d := Desc.of u.dst
      (u.state == 1 || u.state == 2) && u.cls == 1 && d.space == 3
        && (List.range (bitsOf d.base.toNat 5 4 + 1)).any fun j =>
          wCode (bitsOf d.base.toNat 0 0) (bitsOf d.base.toNat 2 1 + j) == wCode arr w).map
      fun i => (Desc.of (c.unit i).dst).fmt

/-- The T tile checks of R176. -/
def checkT (k t : Nat) : M Unit := do
  let c ← getC k
  let x := c.tile t
  if x.rows = 0 ∨ x.st ≠ 2 then tileTrap t
  if fmtClass x.fmt = 0 then tileTrap t

/-- The Z tile checks of R176 and R217: configured, not PARTIAL, with room for the tokens. -/
def checkZ (k z tokens : Nat) : M Unit := do
  let c ← getC k
  let x := c.tile z
  if x.rows = 0 ∨ x.st = 3 then tileTrap z
  if x.rows < tokens then tileTrap z

/-- The W register checks of R176. -/
def checkW (k arr w cls : Nat) (taken : Bool) : M Unit := do
  let c ← getC k
  let code := wCode arr w
  match c.weightFmt arr w taken with
  | none => tileTrap code
  | some f => if fmtClass f ≠ cls then tileTrap code
  if !taken && (c.tile code).st == 2 && (c.tile code).poison then poisonTrap k code

/-- The checks of R176 and R222 for one MMF, in order; that of R222 comes last (DESIGN CHOICE: notes/assumptions/162). -/
def checkMmf (k arr t w z : Nat) (acc keep taken : Bool) : M Unit := do
  checkT k t
  let c ← getC k
  let tf := (c.tile t).fmt
  let zc := zCode arr z
  checkZ k zc ((c.tile t).rows * packOf tf)
  if c.poisoned t then poisonTrap k t
  if acc && (c.tile zc).st == 2 && c.poisoned zc then poisonTrap k zc
  if keep then
    if c.cellClass arr ≠ fmtClass tf then tileTrap 0x3F
  else checkW k arr w (fmtClass tf) taken
  if arr = 1 ∧ c.mode1After = (true, true) then tileTrap 0x3F

/-- Room for one more entry in an array's queue (R170). -/
def needRoom (k arr : Nat) : M Unit := do
  if 8 ≤ (← getC k).queued arr then stall

/-- Accept a pass: its Z tile is FULL from now on, and REL releases its T tile after it (R164, R178). -/
def Core.acceptPass (c : Core) (arr t w z : Nat) (acc keep rel : Bool) : Core :=
  let zc := zCode arr z
  let op := BgOp.pass arr t (c.tile t).fmt (wCode arr w) zc acc keep (c.zHolds zc)
  let c := { c with bg := c.bg ++ [op] }.zFull zc 10
  if rel then c.release t else c

/-- The checks of an array instruction that runs open gather groups before it (R188, R216): they see the groups as run. One
that is not accepted leaves the groups as they were. -/
def groupFirst (k : Nat) (arrs : List Nat) (body : M Unit) : M Unit := do
  let c0 ← getC k
  if arrs.any fun a => (c0.group a).isSome && decide (8 ≤ c0.queued a) then stall
  modC k fun c => arrs.foldl Core.runGroup c
  tryCatch body fun e => do
    modC k fun c => { c with gather0 := c0.gather0, gather1 := c0.gather1, bg := c0.bg }
    throw e

/-- MMF (R176, R178). A failed check leaves the open group as it was. -/
def execMmf (c : CoreId) (m : MmArgs) (keep : Bool) (s : State) : Host.Outcome State Fault Refusal :=
  let w := instrWord (.mmf c m keep)
  let k := coreKey c
  runInstr c w false (do
    needCompute k w
    groupFirst k [m.arr.val] (do
      needRoom k m.arr.val
      let x ← getC k
      checkMmf k m.arr.val m.t.toNat m.w.toNat m.z.toNat m.acc keep (x.wTaken (wCode m.arr.val m.w.toNat)))
    modC k fun x => x.acceptPass m.arr.val m.t.toNat m.w.toNat m.z.toNat m.acc keep m.rel
    return .next) s

/-- Run the blocks of a gather pass over its requests (R189). -/
def State.gatherBlock (s : State) (k arr w j : Nat) (reqs : List GReq) : State :=
  let (bad, s) := s.loadCells k arr (wCode arr (w + j)) false
  reqs.zipIdx.foldl (fun s x =>
    let z := zCode arr (x.1.z + j)
    s.pass k arr x.1.t x.1.tf z x.1.acc (gatherHeld arr reqs j x.2 z) bad) s

/-- The oldest operation of an array runs, if it is a pass or a gather group and nothing before it holds its tiles and its W
register is FULL (R166, R167, R177, R189). One command runs one pass, or one block of a group. -/
def execArrayPass (c : CoreId) (arr : Fin 2) (s : State) : Host.Outcome State Fault Refusal :=
  let k := coreKey c
  let x := s.core k
  if s.corePowered k then
    match x.firstBg fun o => o.runsOn.contains arr.val with
    | some (i, .pass a t tf w z acc keep held) =>
      if x.free? i (.pass a t tf w z acc keep held) && (keep || (x.tile w).st == 2) then
        let (bad, s) := if keep then (false, s) else s.loadCells k a w false
        .next ((s.pass k a t tf z acc held bad).updCore k fun c => c.dropBg i)
      else .next s
    | some (i, .gather a w nw j reqs) =>
      if x.free? i (.gather a w nw j reqs) && (x.tile (wCode a (w + j))).st == 2 then
        let s := s.gatherBlock k a w j reqs
        .next (s.updCore k fun c =>
          if j + 1 < nw then { c with bg := c.bg.set i (.gather a w nw (j + 1) reqs) } else c.dropBg i)
      else .next s
    | _ => .next s
  else .next s

/-! ### MMGATHER (R187, R188) -/

def gcfgNo : Nat := 0x0E9
def Core.fill (c : Core) : Nat := (c.sr gcfgNo).toNat % 256 + 1
def Core.gatherTimed (c : Core) : Bool := bitsOf (c.sr gcfgNo).toNat 47 16 != 0

/-- The request joins the array's open group (R187). -/
def Gather.takes (g : Gather) (w nw cls : Nat) : Bool :=
  g.w == w && g.nw == nw && g.cls == cls && decide (g.reqs.length < 8)

/-- Append a request, opening a group where there is none, and run the group when it holds enough tokens (R187). Its Z tiles
are FULL from now on; a released T tile is RELEASING until the group has read it. -/
def Core.joinGroup (c : Core) (arr t w z nw : Nat) (acc rel : Bool) : Core :=
  let tf := (c.tile t).fmt
  let cls := fmtClass tf
  let g : Gather := (c.group arr).getD { w := w, nw := nw, cls := cls, reqs := [], rels := [], tokens := 0, timed := c.gatherTimed }
  let q : GReq := { t := t, tf := tf, z := z, acc := acc, zHeld := (rangeFrom z nw).map fun j => c.zHolds (zCode arr j) }
  let g := { g with
    reqs := g.reqs ++ [q], tokens := g.tokens + (c.tile t).rows * packOf tf
    rels := if rel then g.rels ++ [(t, (c.tile t).writer)] else g.rels }
  let c := c.setGroup arr (some g)
  let c := (rangeFrom z nw).foldl (fun c j => c.zFull (zCode arr j) 10) c
  let c := if rel then c.updTile t fun x => { x with st := 4 } else c
  if c.fill ≤ g.tokens then c.runGroup arr else c

/-- MMGATHER (R187): it is accepted while the array has fewer than 8 instructions accepted (R170), a group that it closes not counted
yet; its checks are made then, with that group run (R175). A request that joins the open group sees its W registers as they stand, as a KEEP pass of that group will (DESIGN CHOICE:
notes/assumptions/179). -/
def execMmgather (c : CoreId) (m : MmArgs) (nw1 : BitVec 2) (s : State) : Host.Outcome State Fault Refusal :=
  let w := instrWord (.mmgather c m nw1)
  let k := coreKey c
  let arr := m.arr.val
  let nw := nw1.toNat + 1
  runInstr c w false (do
    needCompute k w
    illegalIf w (decide (8 < m.z.toNat + nw))
    let x ← getC k
    let cls := fmtClass (x.tile m.t.toNat).fmt
    let joins := match x.group arr with | some g => g.takes m.w.toNat nw cls | none => false
    needRoom k arr
    groupFirst k (if joins then [] else [arr]) (do
      let x ← getC k
      forEach (List.range nw) fun j =>
        let v := m.w.toNat + j
        checkMmf k arr m.t.toNat v (m.z.toNat + j) m.acc false (x.wTaken (wCode arr v)))
    modC k fun x => x.joinGroup arr m.t.toNat m.w.toNat m.z.toNat nw m.acc m.rel
    return .next) s

/-- A group's TIMEOUT has expired: it runs as soon as the array's queue has room, unless TIMEOUT was 0 when it opened (R188). -/
def execGatherTimeout (c : CoreId) (arr : Fin 2) (s : State) : Host.Outcome State Fault Refusal :=
  let k := coreKey c
  match (s.core k).group arr.val with
  | some g => if g.timed && s.corePowered k then .next (s.updCore k fun x => x.runGroup arr.val) else .next s
  | none => .next s

/-- MMFLUSH (R188, R189). -/
def execMmflush (c : CoreId) (arr : Fin 2) (s : State) : Host.Outcome State Fault Refusal :=
  let w := instrWord (.mmflush c arr)
  let k := coreKey c
  runInstr c w false (do
    needCompute k w
    modC k fun x => x.runGroup arr.val
    if ((← getC k).group arr.val).isSome then stall
    return .next) s

end Sys2Proof.Machine
end

