-- ==== Sys2Proof/Machine/Backward.lean ====
section
/-! DEFINITION. The backward pass: MMBWD, ZDRAIN and the wide gradient buffer (R193, R214 to R230). -/

namespace Sys2Proof.Machine
open Sys2Proof

/-! ### MMBWD (R217, R218, R220, R222) -/

/-- The checks of R217, in order. -/
def checkMmbwd (k : Nat) (m : BwdArgs) : M Unit := do
  let y := m.dy.toNat
  let x := m.dx.toNat
  let z := zCode 0 m.z.toNat
  let c ← getC k
  if (c.tile y).rows = 0 ∨ (c.tile y).st ≠ 2 then tileTrap y
  if (c.tile y).fmt ≠ 7 then tileTrap y
  if (c.tile x).rows = 0 ∨ (c.tile x).st ≠ 2 then tileTrap x
  if fmtClass (c.tile x).fmt ≠ 1 then tileTrap x
  if (c.tile x).rows ≠ (c.tile y).rows then tileTrap x
  checkZ k z (c.tile y).rows
  if c.poisoned y then poisonTrap k y
  if c.poisoned x then poisonTrap k x
  if m.acc && (c.tile z).st == 2 && c.poisoned z then poisonTrap k z
  if m.keep then
    if c.cellClass 0 ≠ 1 then tileTrap 0x3F
  else checkW k 0 m.w.toNat 1 (c.wTaken (wCode 0 m.w.toNat))

/-- Accept an MMBWD: its dX tile is FULL from now on, and RELY and RELX release their tiles after it (R217, R218). -/
def Core.acceptMmbwd (c : Core) (m : BwdArgs) : Core :=
  let y := m.dy.toNat
  let x := m.dx.toNat
  let z := zCode 0 m.z.toNat
  let op := BgOp.mmbwd y x (c.tile x).fmt (wCode 0 m.w.toNat) z m.acc m.keep m.tw (c.zHolds z)
  let c := { c with bg := c.bg ++ [op] }.zFull z 10
  let c := if m.rely then c.release y else c
  if m.relx then c.release x else c

/-- MMBWD (R217). -/
def execMmbwd (c : CoreId) (m : BwdArgs) (s : State) : Host.Outcome State Fault Refusal :=
  let w := instrWord (.mmbwd c m)
  let k := coreKey c
  runInstr c w false (do
    needCompute k w
    illegalIf w (m.keep && m.tw)
    groupFirst k [0, 1] (do
      needRoom k 0
      needRoom k 1
      checkMmbwd k m)
    modC k fun x => x.acceptMmbwd m
    return .next) s

/-- One token into the accumulators of array 1 (R218, R204): x(t, k) × dy(t, n) added to A[k][n] with one rounding. -/
def Core.accToken (c : Core) (x dy : List FV) : Core :=
  (List.range 1024).foldl (fun (c : Core) i =>
    let p := fvMul (x.getD (i / 32) .nan) (dy.getD (i % 32) .nan)
    let (b, f) := accum (some (c.acc.get 0 i).toNat) p
    { c with acc := c.acc.set 0 i (BitVec.ofNat 32 b) }.orMxflags f) c

/-- An uncorrectable error stands in a row of the tile. -/
def Tile.broken (t : Tile) : Bool := t.bad.any fun b => b % 4 == 2

/-- The accumulator residue that an injection makes fail (R230, R413). Its entry and MCHECK come with the next ZDRAIN (DEDUCED:
notes/assumptions/42). -/
def State.accResidue (s : State) (k : Nat) : Bool × State :=
  match s.takeArmed (unitOfKey k) 0x0107 (s.locOf k) with
  | (some _, s) => (true, s)
  | (none, s) => (false, s)

/-- Array 1's part of an MMBWD: every token of X and dY, in row order (R218, R219). `ybad`: dY held an uncorrectable error. -/
def State.accTiles (s : State) (k y x xf : Nat) (ybad : Bool) : State :=
  let rows := ((s.core k).tile y).rows
  let s := s.updCore k fun c => if c.mode1 then c else { c with cells1 := {}, acc := [], mode1 := true }
  let (bad, s) := (List.range rows).foldl (fun (acc : Bool × State) r =>
    let (b, s) := if x = y then (false, acc.2) else acc.2.meetRow k x r 2
    let s := if b then s.bgMchk k 0x0105 (tileAddr x r) else s
    let s := s.updCore k fun c => c.accToken ((c.tile x).token xf r 0) ((c.tile y).token 7 r 0)
    (acc.1 || b, s)) (ybad, s)
  let (res, s) := s.accResidue k
  (s.updCore k fun c => { c with
    atok := satAdd c.atok rows 0xFFFFFFFF
    apois := c.apois || bad || res }).meterMat k rows

/-- The oldest accepted MMBWD computes dX on array 0 and adds dW on array 1, once nothing before it holds its tiles and its W
register is FULL (R166, R218, R223). -/
def execMmbwdRun (c : CoreId) (s : State) : Host.Outcome State Fault Refusal :=
  let k := coreKey c
  let x := s.core k
  if s.corePowered k then
    match x.firstBg fun o => match o with
      | .mmbwd _ _ _ _ _ _ _ _ _ => true
      | _ => false with
    | some (i, .mmbwd dy dx xf w z acc keep tw held) =>
      if x.free? i (.mmbwd dy dx xf w z acc keep tw held) && (keep || (x.tile w).st == 2) then
        let ybad := (x.tile dy).broken
        let (wbad, s) := if keep then (false, s) else s.loadCells k 0 w tw
        let s := s.pass k 0 dy 7 z acc held wbad
        let s := s.accTiles k dy dx xf ybad
        .next (s.updCore k fun c => c.dropBg i)
      else .next s
    | _ => .next s
  else .next s

/-! ### ZDRAIN (R224, R225) -/

/-- The checks of R224, in order. -/
def checkZdrain (k z roff : Nat) (acc : Bool) : M Unit := do
  let c ← getC k
  checkZ k z (32 * (roff + 1))
  if acc && (c.tile z).st == 2 && c.poisoned z then poisonTrap k z

/-- ZDRAIN (R224). -/
def execZdrain (c : CoreId) (z roff : BitVec 3) (acc : Bool) (s : State) : Host.Outcome State Fault Refusal :=
  let w := instrWord (.zdrain c z roff acc)
  let k := coreKey c
  let zc := zCode 1 z.toNat
  runInstr c w false (do
    needCompute k w
    groupFirst k [1] (do
      needRoom k 1
      checkZdrain k zc roff.toNat acc)
    modC k fun x => { x with bg := x.bg ++ [BgOp.zdrain zc roff.toNat acc (x.zHolds zc)] }.zFull zc 10
    return .next) s

/-- Row n of the snapshot into a Z row: added with one rounding where the tile held data and ACC is set, else copied (R224). -/
def State.drainRow (s : State) (k z roff : Nat) (add : Bool) (snap : SMap W32) (n : Nat) : Bool × State :=
  let r := 32 * roff + n
  let vs := (List.range 32).map fun i => (snap.get 0 (32 * n + i)).toNat
  if add then
    let (prior, bad, s) := s.zRowBg k z r true
    let s := if bad then s.bgMchk k 0x0105 (tileAddr z r) else s
    let es := (List.range 32).map fun i => fp32Add (prior.getD i 0) (vs.getD i 0)
    (bad, (s.putRow k z r (packRow (es.map (·.1))) []).updCore k fun c => c.orMxflags (es.foldl (fun f e => f ||| e.2) 0))
  else (false, s.putRow k z r (packRow vs) [])

/-- The snapshot wave of a drain: the accumulators are copied into the drain shadow and cleared (R224, R225). -/
def Core.takeShadow (c : Core) : Core :=
  { c with shadow := some { snap := c.acc, idle := decide (c.atok = 0), pois := c.apois }
           acc := if c.mode1 then [] else c.acc, atok := 0, apois := false }

/-- The drain shadow is written into the Z tile (R224, R225). -/
def State.drain (s : State) (k z roff : Nat) (acc held : Bool) (w : Shadow) : State :=
  let snap := w.snap
  let idle := w.idle
  let pois := w.pois
  let s := s.updCore k fun c => { c with shadow := none }
  if idle && acc && held then s
  else
    let s := if held then s else s.updCore k fun c => c.updTile z fun t => { t with data := [], bad := [], poison := false }
    let (bad, s) := (List.range 32).foldl (fun (b : Bool × State) n =>
      let (e, s) := b.2.drainRow k z roff (acc && held) snap n
      (b.1 || e, s)) (false, s)
    let s := if bad then s.poisonTile k z 0x0105 else s
    if pois then
      ((s.poisonTile k z 0x0107).detect (unitOfKey k)
        { code := 0x0107, sev := 2, loc := s.locOf k, injected := true }).bgMchk k 0x0107 0
    else s

/-- The oldest ZDRAIN runs once nothing before it holds array 1 or its Z tile: the first command takes its snapshot, and BSTAT.DSH is
1 until the second has written the shadow (R225; DESIGN CHOICE: notes/assumptions/13). -/
def execZdrainWave (c : CoreId) (s : State) : Host.Outcome State Fault Refusal :=
  let k := coreKey c
  let x := s.core k
  if s.corePowered k then
    match x.firstBg (·.isDrain) with
    | some (i, .zdrain z roff acc held) =>
      if x.free? i (.zdrain z roff acc held) then
        match x.shadow with
        | none => .next (s.updCore k Core.takeShadow)
        | some w => .next ((s.drain k z roff acc held w).updCore k fun c => c.dropBg i)
      else .next s
    | _ => .next s
  else .next s

/-! ### The wide gradient buffer (R226 to R230) -/

/-- The checks of R228, in order. -/
def checkGacc (k word z : Nat) (row : W64) (source : Bool) : M Unit := do
  illegalIf word (!gradientHolding k)
  let c ← getC k
  illegalIf word (decide (32768 ≤ row.toNat) || decide (32768 < row.toNat + (c.tile z).rows))
  if (c.tile z).rows = 0 then tileTrap z
  if source then
    if (c.tile z).st = 3 then tileTrap z
    if c.zHolds z && c.poisoned z then poisonTrap k z

/-- Accept a GACC form: 2 ADD, 3 PUT, 4 GET (R227, R228). -/
def acceptGacc (k word form z : Nat) (a : Reg) : M Flow := do
  needCompute k word
  modC k fun c => c.runGroupOf z
  if (← getC k).gathering z then stall
  needRoom k ((z - 16) / 8)
  let row := (← getC k).rx a
  checkGacc k word z row (decide (form ≠ 4))
  modC k fun c =>
    let c := { c with bg := c.bg ++ [BgOp.gacc form z row.toNat (c.zHolds z)] }
    if form = 4 then c.zFull z 10 else c
  return .next

def execGaccAdd (c : CoreId) (k : BitVec 4) (a : Reg) (s : State) : Host.Outcome State Fault Refusal :=
  let w := instrWord (.gaccAdd c k a)
  runInstr c w false (acceptGacc (coreKey c) w 2 (16 + k.toNat) a) s
def execGaccPut (c : CoreId) (k : BitVec 4) (a : Reg) (s : State) : Host.Outcome State Fault Refusal :=
  let w := instrWord (.gaccPut c k a)
  runInstr c w false (acceptGacc (coreKey c) w 3 (16 + k.toNat) a) s
def execGaccGet (c : CoreId) (k : BitVec 4) (a : Reg) (s : State) : Host.Outcome State Fault Refusal :=
  let w := instrWord (.gaccGet c k a)
  runInstr c w false (acceptGacc (coreKey c) w 4 (16 + k.toNat) a) s

/-- A row of the buffer (R226). -/
def Core.gbRow (c : Core) (r : Nat) : List Nat := (List.range 32).map fun n => (c.gbuf.get 0 (32 * r + n)).toNat

/-- Read a buffer row: a corrected error is counted; answers whether an uncorrectable one stands there (R230). -/
def State.gbMeet (s : State) (k r : Nat) : Bool × State :=
  ((s.core k).gbBad.filter fun b => b / 8 == r).foldl (fun (acc : Bool × State) b =>
    let fix := b % 4 == 1
    let s := acc.2.detect (unitOfKey k)
      { code := 0x0108, sev := if fix then 1 else 2, loc := acc.2.locOf k, injected := decide (4 ≤ b % 8) }
    if fix then (acc.1, s.updCore k fun c => { c with gbBad := c.gbBad.filter (· != b) })
    else (true, s.bgMchk k 0x0108 0)) (false, s)

/-- Write a buffer row; an armed injection stores an error in it (R226, R414). -/
def State.gbPut (s : State) (k r : Nat) (vs : List Nat) : State :=
  let (e, s) := s.armedErr (unitOfKey k) [0x0108] (s.locOf k)
  s.updCore k fun c => { c with
    gbuf := vs.zipIdx.foldl (fun m v => m.set 0 (32 * r + v.2) (BitVec.ofNat 32 v.1)) c.gbuf
    gbBad := c.gbBad.filter (fun b => b / 8 != r) ++ (if e = 0 then [] else [r * 8 + e]) }

/-- Set or clear the bit of a segment of 512 rows in GBPOIS (R230). -/
def Core.markSeg (c : Core) (seg : Nat) (b : Bool) : Core :=
  { c with gbpois := if b then c.gbpois ||| w64 (2 ^ seg) else c.gbpois &&& ~~~(w64 (2 ^ seg)) }

/-- One row of a GACC (R227, R230). Answers whether the Z tile (ADD, PUT) or the buffer (GET) gave an uncorrectable word. -/
def State.gaccRow (s : State) (k form z row : Nat) (held : Bool) (r : Nat) : Bool × State :=
  let g := row + r
  if form = 4 then
    let (bad, s) := s.gbMeet k g
    (bad, s.putRow k z r (packRow ((s.core k).gbRow g)) [])
  else
    let (vs, zbad, s) := s.zRowBg k z r held
    let s := if zbad then s.bgMchk k 0x0105 (tileAddr z r) else s
    if form = 3 then (zbad, s.gbPut k g vs)
    else
      let (bad, s) := s.gbMeet k g
      let s := if bad then s.updCore k fun c => c.markSeg (g / 512) true else s
      let old := (s.core k).gbRow g
      let es := (List.range 32).map fun i => fp32Add (old.getD i 0) (vs.getD i 0)
      (zbad, (s.gbPut k g (es.map (·.1))).updCore k fun c => c.orMxflags (es.foldl (fun f e => f ||| e.2) 0))

/-- A GACC's rows, then the poison it leaves (R193, R230). A GET that itself reads an uncorrectable buffer word leaves GBPOIS.SEG as
it was (DESIGN CHOICE: notes/assumptions/181). -/
def State.gacc (s : State) (k form z row : Nat) (held : Bool) : State :=
  let rows := ((s.core k).tile z).rows
  let (bad, s) := (List.range rows).foldl (fun (b : Bool × State) r =>
    let (e, s) := b.2.gaccRow k form z row held r
    (b.1 || e, s)) (false, s)
  let segs := rangeFrom (row / 512) ((row + rows - 1) / 512 + 1 - row / 512)
  if form = 4 then
    let stained := segs.any fun g => (s.core k).gbpois.getLsbD g
    let s := s.updCore k fun c => c.updTile z fun t => { t with poison := bad || stained, pdet := 0x0108 }
    if stained then
      (s.detect (unitOfKey k) { code := 0x0108, sev := 2, loc := s.locOf k, injected := true }).bgMchk k 0x0108 0
    else s
  else if bad then s.updCore k fun c => segs.foldl (fun c g => c.markSeg g true) c
  else if form = 3 then
    s.updCore k fun c => segs.foldl (fun c g =>
      if row ≤ 512 * g ∧ 512 * g + 512 ≤ row + rows then c.markSeg g false else c) c
  else s

/-- The oldest GACC uses the buffer port, once nothing before it holds its Z tile (R229). -/
def execGaccRun (c : CoreId) (s : State) : Host.Outcome State Fault Refusal :=
  let k := coreKey c
  let x := s.core k
  if s.corePowered k then
    match x.firstBg (·.isGacc) with
    | some (i, .gacc form z row held) =>
      if x.free? i (.gacc form z row held) then .next ((s.gacc k form z row held).updCore k fun c => c.dropBg i) else .next s
    | _ => .next s
  else .next s

end Sys2Proof.Machine
end

