-- ==== Sys2Proof/Machine/Crypto.lean ====
section
/-! DEFINITION. SHA-256, as the digests of R352, R389, R390 and R394 use it. -/

namespace Sys2Proof.Machine
open Sys2Proof

abbrev Word32 := BitVec 32

/-- The first `n` primes from `p` on, found within `fuel` trials. -/
def primesFrom : Nat → Nat → Nat → List Nat
  | 0, _, _ => []
  | _, 0, _ => []
  | fuel + 1, n + 1, p =>
    if (List.range p).any fun d => decide (2 ≤ d) && p % d == 0 then primesFrom fuel (n + 1) (p + 1)
    else p :: primesFrom fuel n (p + 1)

/-- The largest r with r ^ e ≤ x, bit by bit from bit `n - 1` down, above the bits in `r`. -/
def rootBits (e x : Nat) : Nat → Nat → Nat
  | 0, r => r
  | n + 1, r => rootBits e x n (if (r + 2 ^ n) ^ e ≤ x then r + 2 ^ n else r)

/-- The first 32 bits after the point of the e-th root of a number below 512. -/
def rootFraction (e p : Nat) : Word32 := BitVec.ofNat 32 (rootBits e (p * 2 ^ (32 * e)) 41 0)

/-- The round constants of SHA-256: the fractions of the cube roots of the first 64 primes. -/
def shaK : List Word32 := (primesFrom 400 64 2).map (rootFraction 3)

/-- The initial hash value of SHA-256: the fractions of the square roots of the first 8 primes. -/
def shaInit : List Word32 := (primesFrom 40 8 2).map (rootFraction 2)

/-- Padding to a multiple of 64 bytes: 0x80, zeros and the length in bits. -/
def shaPad (m : List Byte) : List Byte :=
  let n := m.length
  m ++ [0x80] ++ List.replicate ((119 - n % 64) % 64) 0 ++ beBytes 8 (8 * n)

/-- The message schedule: words 0 to 63, built from the last sixteen; `w` holds them newest first. -/
def shaExpand : Nat → List Word32 → List Word32
  | 0, w => w
  | n + 1, w =>
    let at_ := fun i => w.getD i 0
    let x15 := at_ 14
    let x2 := at_ 1
    let s0 := x15.rotateRight 7 ^^^ x15.rotateRight 18 ^^^ x15 >>> 3
    let s1 := x2.rotateRight 17 ^^^ x2.rotateRight 19 ^^^ x2 >>> 10
    shaExpand n ((at_ 15 + s0 + at_ 6 + s1) :: w)

structure Sha where
  a : Word32
  b : Word32
  c : Word32
  d : Word32
  e : Word32
  f : Word32
  g : Word32
  h : Word32
  deriving DecidableEq, Repr

/-- One round of the compression. -/
def Sha.round (s : Sha) (kw : Word32 × Word32) : Sha :=
  let t1 := s.h + (s.e.rotateRight 6 ^^^ s.e.rotateRight 11 ^^^ s.e.rotateRight 25)
    + ((s.e &&& s.f) ^^^ (~~~s.e &&& s.g)) + kw.1 + kw.2
  let t2 := (s.a.rotateRight 2 ^^^ s.a.rotateRight 13 ^^^ s.a.rotateRight 22)
    + ((s.a &&& s.b) ^^^ (s.a &&& s.c) ^^^ (s.b &&& s.c))
  ⟨t1 + t2, s.a, s.b, s.c, s.d + t1, s.e, s.f, s.g⟩

/-- Compress one block of 64 bytes. -/
def shaBlock (hs : List Word32) (blk : List Byte) : List Word32 :=
  let w := (List.range 16).map fun i => BitVec.ofNat 32 (ofBe ((blk.drop (4 * i)).take 4))
  let ws := (shaExpand 48 w.reverse).reverse
  let h := fun i => hs.getD i 0
  let s := (shaK.zip ws).foldl Sha.round ⟨h 0, h 1, h 2, h 3, h 4, h 5, h 6, h 7⟩
  [h 0 + s.a, h 1 + s.b, h 2 + s.c, h 3 + s.d, h 4 + s.e, h 5 + s.f, h 6 + s.g, h 7 + s.h]

/-- Blocks of a padded message, in order. -/
def shaBlocks : Nat → List Byte → List Word32 → List Word32
  | 0, _, hs => hs
  | n + 1, m, hs => shaBlocks n (m.drop 64) (shaBlock hs (m.take 64))

/-- SHA-256: 32 bytes. -/
def sha256 (m : List Byte) : List Byte :=
  let p := shaPad m
  (shaBlocks (p.length / 64) p shaInit).flatMap fun w => beBytes 4 w.toNat

/-! ### LM-OTS and LMS (RFC 8554), with the parameter sets that R389, R395 and R398 name -/

/-- One-time signature parameters: type code, bits per digit, chains, checksum shift. -/
structure OtsParam where
  code : Nat
  w : Nat
  p : Nat
  ls : Nat
  deriving DecidableEq, Repr

/-- LMOTS_SHA256_N32_W8 and LMOTS_SHA256_N32_W4. -/
def otsW8 : OtsParam := ⟨4, 8, 34, 0⟩
def otsW4 : OtsParam := ⟨3, 4, 67, 4⟩

/-- Digit i of a byte string. -/
def otsCoef (s : List Byte) (w i : Nat) : Nat :=
  ((s.getD (i * w / 8) 0).toNat >>> (8 - (w * (i % (8 / w)) + w))) % 2 ^ w

/-- The digits that a signature's chains start from: the hash and its checksum. -/
def otsDigits (o : OtsParam) (q : List Byte) : List Nat :=
  let sum := (List.range (256 / o.w)).foldl (fun n i => n + (2 ^ o.w - 1 - otsCoef q o.w i)) 0
  let qc := q ++ beBytes 2 (sum * 2 ^ o.ls)
  (List.range o.p).map (otsCoef qc o.w)

/-- n steps of chain i from step j. -/
def otsChain (id : List Byte) (q i : Nat) : Nat → Nat → List Byte → List Byte
  | 0, _, x => x
  | n + 1, j, x => otsChain id q i n (j + 1) (sha256 (id ++ beBytes 4 q ++ beBytes 2 i ++ beBytes 1 j ++ x))

/-- The hash of the chains' ends. -/
def otsRoot (id : List Byte) (q : Nat) (ys : List (List Byte)) : List Byte := sha256 (id ++ beBytes 4 q ++ beBytes 2 0x8080 ++ ys.flatten)

/-- The message hash of a one-time signature. -/
def otsHash (id : List Byte) (q : Nat) (c msg : List Byte) : List Byte := sha256 (id ++ beBytes 4 q ++ beBytes 2 0x8181 ++ c ++ msg)

/-- Chain i of the private key that Appendix A derives. -/
def otsPrivate (id seed : List Byte) (q i : Nat) : List Byte := sha256 (id ++ beBytes 4 q ++ beBytes 2 i ++ [0xFF] ++ seed)

/-- The public key of leaf q. -/
def otsPublic (o : OtsParam) (id seed : List Byte) (q : Nat) : List Byte :=
  otsRoot id q ((List.range o.p).map fun i => otsChain id q i (2 ^ o.w - 1) 0 (otsPrivate id seed q i))

/-- A one-time signature with randomizer c. -/
def otsSign (o : OtsParam) (id seed : List Byte) (q : Nat) (c msg : List Byte) : List Byte :=
  let ds := otsDigits o (otsHash id q c msg)
  beBytes 4 o.code ++ c ++ (ds.zipIdx.flatMap fun d => otsChain id q d.2 d.1 0 (otsPrivate id seed q d.2))

/-- The public key that a signature leads to. -/
def otsCandidate (o : OtsParam) (id : List Byte) (q : Nat) (sig msg : List Byte) : List Byte :=
  let c := (sig.drop 4).take 32
  let ds := otsDigits o (otsHash id q c msg)
  otsRoot id q (ds.zipIdx.map fun d => otsChain id q d.2 (2 ^ o.w - 1 - d.1) d.1 ((sig.drop (36 + 32 * d.2)).take 32))

/-- A node of a key's tree: `n` levels above the leaves. -/
def lmsNode (o : OtsParam) (h : Nat) (id seed : List Byte) : Nat → Nat → List Byte
  | 0, r => sha256 (id ++ beBytes 4 r ++ beBytes 2 0x8282 ++ otsPublic o id seed (r - 2 ^ h))
  | n + 1, r => sha256 (id ++ beBytes 4 r ++ beBytes 2 0x8383 ++ lmsNode o h id seed n (2 * r) ++ lmsNode o h id seed n (2 * r + 1))

/-- An LMS public key: 56 bytes. -/
def lmsPublic (code h : Nat) (o : OtsParam) (id seed : List Byte) : List Byte :=
  beBytes 4 code ++ beBytes 4 o.code ++ id ++ lmsNode o h id seed h 1

/-- An LMS signature by leaf q. -/
def lmsSign (code h : Nat) (o : OtsParam) (id seed : List Byte) (q : Nat) (c msg : List Byte) : List Byte :=
  beBytes 4 q ++ otsSign o id seed q c msg ++ beBytes 4 code
    ++ (List.range h).flatMap fun i => lmsNode o h id seed i ((2 ^ h + q) / 2 ^ i ^^^ 1)

/-- Climb from a leaf to the root along a path. -/
def lmsClimb (id : List Byte) : List (List Byte) → Nat → List Byte → List Byte
  | [], _, x => x
  | y :: ys, r, x =>
    let pair := if r % 2 = 1 then y ++ x else x ++ y
    lmsClimb id ys (r / 2) (sha256 (id ++ beBytes 4 (r / 2) ++ beBytes 2 0x8383 ++ pair))

/-- Bytes of an LMS signature. -/
def lmsSigLen (h : Nat) (o : OtsParam) : Nat := 44 + 32 * o.p + 32 * h

/-- Verify an LMS signature. -/
def lmsVerify (code h : Nat) (o : OtsParam) (pub sig msg : List Byte) : Bool :=
  let id := (pub.drop 8).take 16
  let q := ofBe (sig.take 4)
  let ots := (sig.drop 4).take (36 + 32 * o.p)
  let path := (List.range h).map fun i => (sig.drop (44 + 32 * o.p + 32 * i)).take 32
  let leaf := sha256 (id ++ beBytes 4 (2 ^ h + q) ++ beBytes 2 0x8282 ++ otsCandidate o id q ots msg)
  sig.length == lmsSigLen h o && pub.length == 56 && ofBe (pub.take 4) == code && ofBe ((pub.drop 4).take 4) == o.code
    && ofBe (ots.take 4) == o.code && ofBe ((sig.drop (40 + 32 * o.p)).take 4) == code && decide (q < 2 ^ h)
    && lmsClimb id path (2 ^ h + q) leaf == pub.drop 24

/-- Bytes of an HSS signature of R391 and R398: L = 2, LMS_SHA256_M32_H20, LMOTS_SHA256_N32_W8. -/
def hssLen : Nat := 3604

/-- Verify an HSS signature with L = 2 under a 60-byte key. -/
def hssVerify (key sig msg : List Byte) : Bool :=
  let n := lmsSigLen 20 otsW8
  let s0 := (sig.drop 4).take n
  let pub1 := (sig.drop (4 + n)).take 56
  let s1 := sig.drop (60 + n)
  sig.length == hssLen && key.length == 60 && ofBe (key.take 4) == 2 && ofBe (sig.take 4) == 1
    && lmsVerify 8 20 otsW8 (key.drop 4) s0 pub1 && lmsVerify 8 20 otsW8 pub1 s1 msg

end Sys2Proof.Machine
end

