-- ==== Sys2Proof/Machine/StraitBase.lean ====
section
/-! DEFINITION. Straits: the configuration record, neighbours, queues of frames, the segment table, engine notices and halts
(R309 to R320, R326, R329, R447). -/

namespace Sys2Proof.Machine
open Sys2Proof

/-! ### The record (R318) -/

/-- A neighbour entry that is not none: node, port, VIA. -/
structure Neigh where
  node : Nat
  port : Nat
  via : Bool
  deriving DecidableEq, Repr

def neighOf (e : Nat) : Option Neigh :=
  if e % 65536 = 0xFFFF then none else some ⟨e % 65536, bitsOf e 18 16, e.testBit 19⟩

structure TreeRec where
  self : Nat
  tepoch : Nat
  mode : Nat
  update : Bool
  head : Nat
  parent : Option Neigh
  left : Option Neigh
  right : Option Neigh
  buddy : Option Neigh
  llo : Nat
  lhi : Nat
  rlo : Nat
  rhi : Nat
  segtab : Nat
  nseg : Nat
  step0 : Nat
  deriving DecidableEq, Repr

/-- Word i of a record. -/
def word (ws : List W64) (i : Nat) : Nat := (ws.getD i 0).toNat

def treeRec (ws : List W64) : TreeRec :=
  let w := word ws
  { self := bitsOf (w 0) 15 0, tepoch := bitsOf (w 0) 31 16, mode := bitsOf (w 0) 33 32, update := (w 0).testBit 34,
    head := bitsOf (w 0) 42 40, parent := neighOf (bitsOf (w 1) 31 0), left := neighOf (bitsOf (w 1) 63 32),
    right := neighOf (bitsOf (w 2) 31 0), buddy := neighOf (bitsOf (w 2) 63 32), llo := bitsOf (w 3) 11 0,
    lhi := bitsOf (w 3) 27 16, rlo := bitsOf (w 3) 43 32, rhi := bitsOf (w 3) 59 48, segtab := bitsOf (w 4) 45 0,
    nseg := bitsOf (w 5) 19 0, step0 := bitsOf (w 6) 31 0 }

/-- A valid node ID (R315). -/
def validNode (n : Nat) : Bool :=
  n != 0xFFFF && (if n.testBit 15 then bitsOf n 14 8 == 0 else bitsOf n 14 12 == 0)

/-- Neighbours in the order PARENT, LEFT, RIGHT, BUDDY. -/
def TreeRec.neighbours (r : TreeRec) : List Neigh := [r.parent, r.left, r.right, r.buddy].filterMap id

/-- The malformed records of R319. -/
def treeMalformed (ws : List W64) : Bool :=
  let w := word ws
  let r := treeRec ws
  let e := [bitsOf (w 1) 31 0, bitsOf (w 1) 63 32, bitsOf (w 2) 31 0, bitsOf (w 2) 63 32]
  let ports : List Nat := (r.neighbours.filter fun n => !n.via).map (·.port)
  bitsOf (w 0) 39 35 != 0 || bitsOf (w 0) 63 43 != 0
    || e.any (fun x => x % 65536 != 0xFFFF && bitsOf x 31 20 != 0)
    || bitsOf (w 3) 15 12 != 0 || bitsOf (w 3) 31 28 != 0 || bitsOf (w 3) 47 44 != 0 || bitsOf (w 3) 63 60 != 0
    || bitsOf (w 4) 63 46 != 0 || bitsOf (w 5) 63 20 != 0 || bitsOf (w 6) 63 32 != 0
    || r.mode == 3 || !validNode r.self || decide (3 < r.head) || r.segtab % 64 != 0
    || (r.update && (r.mode != 1 || r.parent.isSome || r.right.isSome))
    || (r.mode == 1 && !r.update && r.parent.isNone)
    || (r.right.isSome && r.left.isNone)
    || !decide ports.Nodup
    || (r.mode == 2 && (decide (r.lhi < r.llo) || decide (r.rhi < r.rlo)))

def State.eng (s : State) (d : Nat) : Engine := (s.die d).eng

/-- CFGMIS: the four dies hold different records (R319). -/
def State.cfgMis (s : State) : Bool := [1, 2, 3].any fun d => (s.eng d).cfg != (s.eng 0).cfg

/-- The record in force: the four dies hold one record, and no engine is IDLE (R319). -/
def State.inForce (s : State) : Option TreeRec :=
  if s.cfgMis || (s.eng 0).cfg.isEmpty || [0, 1, 2, 3].any (fun d => (s.eng d).state == 0) then none
  else some (treeRec (s.eng 0).cfg)

/-- Change all four engines. -/
def State.updEngs (s : State) (g : Engine → Engine) : State := [0, 1, 2, 3].foldl (fun s d => s.updEng d g) s

/-- READY of STESTAT as a die shows it: bit k where die k has written STEREADY for the die's epoch and step (R336). -/
def State.readyBits (s : State) (d : Nat) : Nat :=
  (List.range 4).foldl (fun n k => n + (if (s.eng k).rdy = some ((s.eng d).tepoch, (s.eng d).step) then 2 ^ k else 0)) 0

/-! ### STEFLAGS (R336) -/

def steflagsNo : Nat := 0x582
def stalefrmNo : Nat := 0x583
/-- Set bits of a die's STEFLAGS. -/
def State.steFlag (s : State) (d : Nat) (bits : W64) : State :=
  s.updDie d fun x => x.setSr steflagsNo (x.sr steflagsNo ||| bits)
/-- OR arithmetic flags into a die's STEFLAGS. -/
def State.steFlags (s : State) (d : Nat) (f : Flags) : State := s.steFlag d (zext64 f)

/-- An FCLK cycle in which the engine of a die added (R388). -/
def State.meterAdd (s : State) (d : Nat) : State :=
  s.updDie d fun x => { x with meters := { x.meters with strait := x.meters.strait + 1 } }

/-! ### Frames and queues (R309, R312, R313) -/

/-- Class queue of a frame that a board sends: 0 NOTICE, 1 TREE, 2 RELAY, 3 SNAP, 4 PUT. -/
def frameClass (type : Nat) : Nat := if type = 7 then 0 else if type ≤ 4 then 1 else if type ≤ 6 then 3 else 4

def Port.queue (p : Port) (cls : Nat) : List Frame :=
  if cls = 0 then p.qNotice else if cls = 1 then p.qTree else if cls = 2 then p.qRelay else if cls = 3 then p.qSnap else p.qPut
def Port.setQueue (p : Port) (cls : Nat) (q : List Frame) : Port :=
  if cls = 0 then { p with qNotice := q } else if cls = 1 then { p with qTree := q } else if cls = 2 then { p with qRelay := q }
  else if cls = 3 then { p with qSnap := q } else { p with qPut := q }

def State.pushFrame (s : State) (port cls : Nat) (f : Frame) : State :=
  s.updPort port fun p => p.setQueue cls (p.queue cls ++ [f])

/-- Payload credits that a frame costs; its header costs one (R312). -/
def payCost (f : Frame) : Nat := (f.len.toNat + 2047) / 2048

/-- The engine has consumed or dropped a received frame: its credits go back (R312). -/
def State.freeFrame (s : State) (port : Nat) (f : Frame) : State :=
  s.updPort port fun p => { p with freedPay := p.freedPay + payCost f, freedHdr := p.freedHdr + 1 }

/-- Count a frame in BADFRM and write a 0x0404 entry (R310, R331, R409, R446). -/
def State.badFrame (s : State) (port : Nat) : State :=
  (s.updPort port fun p => { p with badfrm := satAdd p.badfrm 1 0xFFFFFFFF }).detect (port / 2)
    { code := 0x0404, sev := 0, loc := port }

/-- The port that the relay table of a die gives for a node (R331, R379). -/
def State.relayPort (s : State) (die node : Nat) : Option Nat :=
  ((s.eng die).relay.find? fun e => e.toNat % 65536 == node && node != 0xFFFF).map fun e => bitsOf e.toNat 18 16

/-- The port by which a neighbour is reached. -/
def State.portOf (s : State) (r : TreeRec) (n : Neigh) : Option Nat := if n.via then s.relayPort (r.head % 4) n.node else some n.port

/-- Queue a frame toward a neighbour, DST set to it. Without a relay entry the frame is dropped and counted (R331). -/
def State.sendTo (s : State) (r : TreeRec) (n : Neigh) (f : Frame) : State :=
  let f := { f with dst := BitVec.ofNat 16 n.node }
  match s.portOf r n with
  | some p => s.pushFrame p (frameClass f.type.toNat) f
  | none => s.badFrame (2 * (r.head % 4))

/-- Queue a frame to any node: a neighbour, or through the relay table (R331). -/
def State.sendNode (s : State) (r : TreeRec) (node : Nat) (f : Frame) : State :=
  match r.neighbours.find? fun n => n.node == node with
  | some n => s.sendTo r n f
  | none => s.sendTo r ⟨node, 0, true⟩ f

/-- A frame that this board originates. -/
def State.mkFrame (s : State) (r : TreeRec) (type : Nat) (last absent : Bool) (step seg fidx fmt ngrp : Nat) (payload : List Byte) :
    Frame :=
  { type := BitVec.ofNat 8 type, last := last, absent := absent, epoch := BitVec.ofNat 16 (s.eng (r.head % 4)).tepoch,
    step := BitVec.ofNat 32 step, src := BitVec.ofNat 16 r.self, dst := 0, seg := BitVec.ofNat 32 seg,
    fidx := BitVec.ofNat 16 fidx, len := BitVec.ofNat 16 payload.length, fmt := BitVec.ofNat 8 fmt,
    ngrp := BitVec.ofNat 8 ngrp, hops := 8, lseq := 0, payload := payload }

/-- Pieces of a byte string of at most n bytes each. -/
def piecesOf (n : Nat) (bs : List Byte) : List (List Byte) :=
  (List.range ((bs.length + n - 1) / n)).map fun i => (bs.drop (n * i)).take n

/-! ### Notices and halts (R328, R329, R447) -/

/-- Raise NOTICE at S on the cores of a die (R328, R357). -/
def State.noticeDie (s : State) (die detail : Nat) : State :=
  (List.range 128).foldl (fun s l =>
    let k := s.keyOfLcore (die * 128 + l)
    if (s.atoll (k / 16)).powered then s.notice k detail else s) s

/-- Notices take their places in the queue of 64, oldest first, and those that may leave are launched (R329). -/
def State.queueOwed (s : State) (die : Nat) : State :=
  (s.updEng die fun e =>
    let room := 64 - e.notices.length
    { e with notices := e.notices ++ e.owed.take room, owed := e.owed.drop room }).launchEngine die 64

/-- A notice of a die's engine: two payload words, the epoch of the destination word, SRC 0 (R329, R342). -/
def State.engNotice (s : State) (die : Nat) (dest : Nat) (step kind seg : Nat) : State :=
  let g : Msg := { tag := BitVec.ofNat 16 (bitsOf dest 63 48), epoch := BitVec.ofNat 16 (bitsOf dest 47 32), src := 0,
                   mbx := bitsOf dest 12 9, dst := bitsOf dest 8 0,
                   payload := [w64 (step % 2 ^ 32), w64 (kind * 2 ^ 56 + seg % 2 ^ 32)], engine := some die }
  (s.updEng die fun e => { e with owed := e.owed ++ [{ msg := g }] }).queueOwed die

/-- The notice queue holds 64 notices (R329). -/
def State.noticesFull (s : State) (die : Nat) : Bool := decide (64 ≤ (s.eng die).notices.length)

/-- All four engines enter HALT, a bit of STEFLAGS is set on all four dies, and the head die's cores get a NOTICE. -/
def State.haltTree (s : State) (r : TreeRec) (flag detail : Nat) : State :=
  let s := s.updEngs fun e => { e with state := 4 }
  let s := [0, 1, 2, 3].foldl (fun s d => s.steFlag d (w64 (2 ^ flag))) s
  s.noticeDie (r.head % 4) detail

/-- A malformed entry or a read error found by a die (R447). -/
def State.engErr (s : State) (r : TreeRec) (die : Nat) (injected : Bool) : State :=
  (s.detect die { code := 0x0408, sev := 4, loc := die, injected := injected }).haltTree r 11 0x0408

/-! ### The segment table (R320, R447) -/

abbrev Seg := List W64
def Seg.elems (e : Seg) : Nat := bitsOf (word e 0) 23 0
def Seg.groups (e : Seg) : Nat := Seg.elems e / 32
def Seg.mask (e : Seg) (d : Nat) : Bool := (word e 0).testBit (24 + d)
def Seg.pfmt (e : Seg) : Nat := bitsOf (word e 0) 36 32
def Seg.owner (e : Seg) : Nat := bitsOf (word e 0) 63 48
def Seg.gaddr (e : Seg) (d : Nat) : Nat := bitsOf (word e (1 + d)) 45 0
def Seg.paddr (e : Seg) : Nat := bitsOf (word e 5) 45 0
def Seg.notify (e : Seg) : Nat := word e 6
def Seg.raddr (e : Seg) : Nat := bitsOf (word e 7) 45 0
/-- Bytes of the segment's parameters. -/
def Seg.pbytes (e : Seg) : Nat := Seg.elems e * elemBits (Seg.pfmt e) / 8
/-- The board owns the segment (R320). -/
def TreeRec.owns (r : TreeRec) (e : Seg) : Bool := r.update || (r.mode == 2 && Seg.owner e == r.self)

/-- A malformed entry (R447). On the update rank no GADDR is used. -/
def Seg.bad (e : Seg) (update : Bool) : Bool :=
  Seg.elems e % 32 != 0 || decide (4 < Seg.pfmt e) || bitsOf (word e 0) 31 28 != 0 || bitsOf (word e 0) 47 37 != 0
    || [1, 2, 3, 4, 5, 7].any (fun i => bitsOf (word e i) 63 46 != 0)
    || (!update && [1, 2, 3, 4].any (fun i => word e i % 64 != 0))

/-- Words of a byte string, little-endian. -/
def wordsOf (bs : List Byte) : List W64 := (List.range (bs.length / 8)).map fun i => w64 (ofLe ((bs.drop (8 * i)).take 8))

/-- Read physical memory as an engine does; a read error halts the tree (R447). -/
def State.engRead (s : State) (r : TreeRec) (die pa n : Nat) : Option (List Byte) × State :=
  let (bs, e, s) := s.agentRead die false (enginePlace die) pa n 1 2
  match e with
  | .none => (some bs, s)
  | .hole => (none, s.engErr r die false)
  | .poison c => (none, s.engErr r die (decide (65536 ≤ c)))

def State.engWrite (s : State) (r : TreeRec) (pa : Nat) (bs : List Byte) : State :=
  s.physWrite (enginePlace (r.head % 4)) pa bs 1 2

/-- The entry of a segment, read once for a step by each engine that uses it, and checked. -/
def State.seg? (s : State) (r : TreeRec) (die i : Nat) : Option Seg × State :=
  let e := (s.eng die).tab.get [] i
  if e ≠ [] then (some e, s)
  else
    match s.engRead r die (r.segtab + 64 * i) 64 with
    | (none, s) => (none, s)
    | (some bs, s) =>
      let e := wordsOf bs
      if Seg.bad e r.update then (none, s.engErr r die false)
      else (some e, s.updEng die fun x => { x with tab := x.tab.set [] i e })

/-- The whole table, by index. -/
def State.segTable (s : State) (r : TreeRec) : Option (List (Nat × Seg)) × State :=
  (List.range r.nseg).foldl (fun (acc : Option (List (Nat × Seg)) × State) i =>
    match acc with
    | (none, s) => (none, s)
    | (some l, s) => match s.seg? r (r.head % 4) i with
      | (none, s) => (none, s)
      | (some e, s) => (some (l ++ [(i, e)]), s)) (some [], s)

/-- The owned segments, in table order; a segment of no elements is skipped (R320). -/
def TreeRec.ownedOf (r : TreeRec) (t : List (Nat × Seg)) : List (Nat × Seg) :=
  t.filter fun x => Seg.elems x.2 != 0 && r.owns x.2
def activeOf (t : List (Nat × Seg)) : List (Nat × Seg) := t.filter fun x => Seg.elems x.2 != 0

/-- Send the parameters of an owned segment, read from PADDR: PARAM frames to LEFT on the update rank, GATHER frames to
PARENT in shard mode, PARAM frames to both children from the top (R326, R330), for a step. Answers false on a read error. -/
def State.sendParams (s : State) (r : TreeRec) (step i : Nat) (e : Seg) : Bool × State :=
  match s.engRead r (r.head % 4) (Seg.paddr e) (Seg.pbytes e) with
  | (none, s) => (false, s)
  | (some bs, s) =>
    let type := if r.mode = 2 ∧ r.parent.isSome then 4 else 2
    let dests := if r.update then r.left.toList
      else match r.parent with
        | some p => [p]
        | none => r.left.toList ++ r.right.toList
    let ps := piecesOf 4096 bs
    (true, ps.zipIdx.foldl (fun s x =>
      let f := s.mkFrame r type (x.2 + 1 == ps.length) false step i x.2 (Seg.pfmt e) 0 x.1
      dests.foldl (fun s n => s.sendTo r n f) s) s)

end Sys2Proof.Machine
end

