-- ==== Sys2Proof/Machine/Snapshot.lean ====
section
/-! DEFINITION. Snapshots, buddies, the rate controller, failure notices and restore (R338 to R361). -/

namespace Sys2Proof.Machine
open Sys2Proof

/-! ### SNAP_CONFIG (R340) -/

abbrev SnapCfg := List W64
def SnapCfg.interval (c : SnapCfg) : Nat := bitsOf (word c 0) 15 0
def SnapCfg.imin (c : SnapCfg) : Nat := bitsOf (word c 0) 31 16
def SnapCfg.imax (c : SnapCfg) : Nat := bitsOf (word c 0) 47 32
def SnapCfg.adapt (c : SnapCfg) : Bool := (word c 0).testBit 48
def SnapCfg.localDiv (c : SnapCfg) : Nat := bitsOf (word c 0) 55 52
def SnapCfg.half (c : SnapCfg) : Nat := bitsOf (word c 0) 59 56
def SnapCfg.feed (c : SnapCfg) : Nat := bitsOf (word c 1) 15 0
def SnapCfg.lam0 (c : SnapCfg) : Nat := bitsOf (word c 1) 31 16
def SnapCfg.c0 (c : SnapCfg) : Nat := bitsOf (word c 1) 47 32
def SnapCfg.auxLen (c : SnapCfg) : Nat := bitsOf (word c 1) 63 48
def SnapCfg.addr (c : SnapCfg) (i : Nat) : Nat := bitsOf (word c i) 45 0
def SnapCfg.snotify (c : SnapCfg) : Nat := word c 7
def mib2 : Nat := 2 * 2 ^ 20

/-- The malformed records of R340. -/
def snapMalformed (c : SnapCfg) : Bool :=
  bitsOf (word c 0) 51 49 != 0 || bitsOf (word c 0) 63 60 != 0 || [2, 3, 4, 5, 6].any (fun i => bitsOf (word c i) 63 46 != 0)
    || (SnapCfg.adapt c && SnapCfg.imin c == 0) || decide (SnapCfg.imax c < SnapCfg.imin c)
    || decide (SnapCfg.half c < 4 ∨ 12 < SnapCfg.half c) || decide (16384 < SnapCfg.auxLen c)
    || [2, 3, 4, 5].any (fun i => SnapCfg.addr c i % 64 != 0) || SnapCfg.addr c 6 % mib2 != 0

/-! ### The rate controller (R354) -/

/-- Divide, rounded to nearest, a tie upward. -/
def divNear (n d : Nat) : Nat := (2 * n + d) / (2 * d)

/-- The interval in force; with ADAPT it starts at INTERVAL (R340, R354). -/
def Snap.intervalNow (n : Snap) : Nat :=
  let c : SnapCfg := n.cfg
  if !SnapCfg.adapt c || !n.estRun then SnapCfg.interval c
  else if n.estA = 0 then SnapCfg.imax c
  else
    let q := divNear (2 * n.cbar * n.estB) n.estA
    let root := (isqrt (4 * q) / 256 + 1) / 2
    max (SnapCfg.imin c) (min root (SnapCfg.imax c))

/-- Set the estimator from the record (R354). -/
def Snap.initEst (n : Snap) : Snap :=
  let c : SnapCfg := n.cfg
  { n with estB := 2 ^ SnapCfg.half c * 65536, estA := SnapCfg.lam0 c * 2 ^ SnapCfg.half c, cbar := SnapCfg.c0 c * 256, estSet := true,
           estRun := false }

/-- The estimator at a step end of `d` ACLK cycles (R354). -/
def Snap.estStep (n : Snap) (d : Nat) : Snap :=
  let h := 2 ^ SnapCfg.half n.cfg
  let quiet := n.status != 1 && !n.held
  { n with
    estRun := true
    estA := n.estA - divNear n.estA h
    estB := n.estB - divNear n.estB h + 65536
    tbase := if quiet then d else n.tbase
    extra := if quiet then n.extra else n.extra + (d - n.tbase)
    held := n.status == 1 }

/-- The cost of a snapshot that completes (R354); with no measured base step the quotient is free. -/
def State.estCost (s : State) : State :=
  let n := s.snap
  let (f, s) := if n.tbase = 0 then s.draw else (0, s)
  let c := if n.tbase = 0 then Config.freeNat f % 2 ^ 32 else divNear (n.extra * 65536) n.tbase
  let up := if n.cbar ≤ c then n.cbar + divNear (c - n.cbar) 4 else n.cbar - divNear (n.cbar - c) 4
  s.updSnap fun n => { n with extra := 0, cbar := up }

/-- A record that leaves the estimator's starting values as they are (R354). -/
def sameEst (a b : SnapCfg) : Bool :=
  SnapCfg.half a == SnapCfg.half b && SnapCfg.lam0 a == SnapCfg.lam0 b && SnapCfg.c0 a == SnapCfg.c0 b

/-- Accept a SNAP_CONFIG record: at once where no snapshot is ACTIVE, else its receive fields and FEED_ID only (R340, R354). -/
def Snap.takeCfg (n : Snap) (c : List W64) : Snap :=
  let latest : SnapCfg := if n.newCfg.isEmpty then n.cfg else n.newCfg
  let init := !n.estSet || !sameEst latest c
  let m := if n.status = 1 then
      { n with newCfg := c, cfg := n.cfg.take 5 ++ (c.drop 5).take 2 ++ n.cfg.drop 7 }
    else { n with cfg := c, newCfg := [] }
  if init then { ({ m with cfg := c }).initEst with cfg := m.cfg } else m

/-- A read of the head die's engine, in a DDR class (R284, R289). -/
def State.headRead (s : State) (r : TreeRec) (pa n ddr mesh : Nat) : List Byte × PhysErr × State :=
  s.agentRead (r.head % 4) false (enginePlace (r.head % 4)) pa n ddr mesh

/-! ### The leader and its notices (R341, R355, R358) -/

def TreeRec.leads (r : TreeRec) : Bool := (r.mode == 1 && r.update) || (r.mode == 2 && r.parent.isNone)

/-- A NOTICE frame (R355). -/
def State.noticeFrame (s : State) (r : TreeRec) (kind subject stepv code origin : Nat) : Frame :=
  s.mkFrame r 7 false false (s.eng (r.head % 4)).step 0 0 0 0
    (leBytes 8 (kind % 256 + subject % 65536 * 65536 + stepv % 2 ^ 32 * 2 ^ 32) ++ leBytes 8 (code % 16 + origin % 65536 * 2 ^ 48))

/-- Set NEXT; in shard mode the leader plans it down the tree (R341). -/
def State.setNext (s : State) (r : TreeRec) (v : Nat) : State :=
  if SnapCfg.interval s.snap.cfg = 0 then s.updSnap fun n => { n with next := none }
  else
    let s := s.updSnap fun n => { n with next := some (v % 2 ^ 32) }
    if r.mode = 2 ∧ r.leads then
      (r.left.toList ++ r.right.toList).foldl (fun s n => s.sendTo r n (s.noticeFrame r 2 r.self v 0 r.self)) s
    else s

/-- The record that an ACTIVE snapshot kept waiting applies (R340). -/
def Snap.applyCfg (n : Snap) : Snap := if n.newCfg.isEmpty then n else { n with cfg := n.newCfg, newCfg := [] }

/-- NEXT after a snapshot has ended (R341). -/
def State.replan (s : State) (r : TreeRec) : State :=
  let s := s.updSnap Snap.applyCfg
  if r.leads then s.setNext r (max (s.snap.cstep + s.snap.intervalNow) ((s.eng (r.head % 4)).step + 2)) else s

/-- INSTSEC is the latest step that every owner counted holds SECURED (R358). -/
def Snap.refreshInst (n : Snap) : Snap :=
  let all := (n.owners.get [] (n.ownerIds.headD 0)).filter fun k => n.ownerIds.all fun o => (n.owners.get [] o).contains k
  { n with instSec := if n.ownerIds.isEmpty ∨ all.isEmpty then 0xFFFFFFFF else all.foldl max 0 }

/-- OWNER of a segment's entry, read as the table stands; a read error halts the tree (R447). -/
def State.ownerAt (s : State) (r : TreeRec) (i : Nat) : Option Nat × State :=
  match s.engRead r (r.head % 4) (r.segtab + 64 * i) 8 with
  | (some bs, s) => (some (bitsOf (ofLe bs) 63 48), s)
  | (none, s) => (none, s)

/-- The distinct OWNERs of the segment table; none where a read error has ended the count (R358, R447). -/
def State.tableOwners (s : State) (r : TreeRec) : Option (List Nat) × State :=
  (List.range r.nseg).foldl (fun (a : Option (List Nat) × State) i =>
    match a with
    | (none, s) => (none, s)
    | (some l, s) => match s.ownerAt r i with
      | (none, s) => (none, s)
      | (some o, s) => (some (if l.contains o then l else l ++ [o]), s)) (some [], s)

/-- Whose snapshots a board awaits as leader: its own on the main path, those of the table's distinct OWNERs in shard mode (R358). A
count that a read error ends knows no owner (DESIGN CHOICE: notes/assumptions/150). -/
def State.countOwners (s : State) (r : TreeRec) : State :=
  let (ids, s) := if !r.leads then (some [], s) else if r.mode = 1 then (some [r.self], s) else s.tableOwners r
  s.updSnap fun n => { n with ownerIds := ids.getD [] }.refreshInst

/-- The leader takes a STATUS (R358). -/
def State.takeStatus (s : State) (owner step code : Nat) : State :=
  s.updSnap fun n =>
    let l := n.owners.get [] owner
    { n with owners := n.owners.set [] owner (if code = 2 then step :: l else if code = 5 then [] else l) }.refreshInst

/-- Send a STATUS notice toward the leader (R358). -/
def State.sendStatus (s : State) (r : TreeRec) (step code : Nat) : State :=
  if r.leads then s.takeStatus r.self step code
  else match r.parent with
    | some p => s.sendTo r p (s.noticeFrame r 3 r.self step code r.self)
    | none => s

/-- A snapshot notice: its entry, and NOTICE at S on the head die's cores (R357). `inj`: poison of an injection is its cause (R414). -/
def State.snapNotice (s : State) (r : TreeRec) (detail : Nat) (inj : Bool := false) : State :=
  let h := r.head % 4
  (s.detect h { code := detail, sev := 0, loc := h, injected := inj }).noticeDie h detail

def State.snapFlag (s : State) (bit : Nat) : State := s.updSnap fun n => { n with flags := n.flags ||| BitVec.ofNat 5 (2 ^ bit) }

/-! ### Failure notices (R355) -/

/-- Count the key of a FAILURE notice, unless it is among the last 64, and flood the notice to every neighbour but the one it came
from; DST alone changes. -/
def State.failureKey (s : State) (r : TreeRec) (f : Frame) (from_ : Option Nat) : State :=
  let key := (bitsOf (ofLe (f.payload.take 8)) 31 16, f.epoch.toNat)
  if s.snap.keys.contains key then s
  else
    let s := s.updSnap fun n =>
      { n with keys := (key :: n.keys).take 64, failCnt := satAdd n.failCnt 1 0xFFFFFFFF, estA := min (n.estA + 65536) 0xFFFFFFFF }
    let s := s.snapNotice r 0x0504
    (r.neighbours.filter fun n => some n.node != from_).foldl (fun s n => s.sendTo r n f) s

/-! ### Holds (R344) -/

/-- The KIND 1 notice of the owned segment with index `idx` in table order is withheld. -/
def Snap.holds (n : Snap) (step idx : Nat) : Bool :=
  n.status == 1 && decide (n.cstep < step) && (decide (n.read ≤ idx) || (n.local_ && decide (n.localCnt ≤ idx)))

/-- SNAP frames of a segment of the ACTIVE snapshot wait for their credits: the segment is not read yet, and the buddy's wait is seen as
a hold (R344, R349). -/
def State.segQueued (s : State) (r : TreeRec) (i : Nat) : Bool :=
  (List.range 8).any fun p => (s.port p).qSnap.any fun f =>
    f.type == 5 && f.src.toNat == r.self && f.step.toNat == s.snap.cstep && f.seg.toNat == i

/-- The KIND 1 notice of owned segment `i`, with index `idx` in table order, is withheld (R344, R349). -/
def State.segHeld (s : State) (r : TreeRec) (i idx : Nat) : Bool :=
  let step := (s.eng (r.head % 4)).step
  s.snap.holds step idx || (s.snap.status == 1 && decide (s.snap.cstep < step) && s.segQueued r i)

/-- Send the KIND 1 notice of a reduced segment, or withhold it (R325, R344). -/
def State.reducedNotice (s : State) (r : TreeRec) (i : Nat) (e : Seg) (idx : Nat) : State :=
  let h := r.head % 4
  if s.segHeld r i idx then
    (s.updEng h fun x => { x with withheld := x.withheld ++ [i] }).updSnap fun n => { n with held := true }
  else s.engNotice h (Seg.notify e) (s.eng h).step 1 i

/-- Send the withheld notices that nothing holds any longer. -/
def State.releaseHolds (s : State) (r : TreeRec) : State :=
  let h := r.head % 4
  let w := (s.eng h).withheld
  if w.isEmpty then s
  else match s.segTable r with
    | (none, s) => s
    | (some t, s) =>
      let own := r.ownedOf t
      w.foldl (fun s i =>
        match own.zipIdx.find? fun x => x.1.1 == i with
        | some x =>
          if s.segHeld r i x.2 then s
          else (s.updEng h fun y => { y with withheld := y.withheld.filter (· != i) }).engNotice h (Seg.notify x.1.2)
            (s.eng h).step 1 i
        | none => s) s

/-! ### Taking a snapshot (R342 to R347, R352) -/

def dirEnd (nown : Nat) : Nat := 4096 + 16 * (1 + 4 * nown)
def dataOff (nown : Nat) : Nat := roundUp (dirEnd nown) mib2

/-- The size of an image: the highest offset plus length that its sender will use, the directory's end where there is no data (R343). -/
def imageSize (dirEnd doff datalen : Nat) : Nat := if datalen = 0 then dirEnd else doff + datalen

/-- Send a run of image bytes as SNAP or PUT frames (R343). -/
def State.sendImage (s : State) (r : TreeRec) (node type step seg off size : Nat) (bs : List Byte) (last : Bool) : State :=
  let ps := piecesOf 4080 bs
  ps.zipIdx.foldl (fun (s : State) x =>
    let pl := leBytes 8 (off + 4080 * x.2) ++ leBytes 8 size ++ x.1
    s.sendNode r node (s.mkFrame r type (last && x.2 + 1 == ps.length) false step seg 0 0 0 pl)) s

/-- The lengths of a snapshot-table entry's four extents. -/
def extLens (e : List W64) : List Nat := [bitsOf (word e 4) 31 0, bitsOf (word e 4) 63 32, bitsOf (word e 5) 31 0, bitsOf (word e 5) 63 32]

/-- Poison that an injection created (R414). -/
def PhysErr.injected : PhysErr → Bool
  | .poison p => decide (65536 ≤ p)
  | _ => false

/-- Bytes read by the engine in a DDR class; where the read met an error, whether an injection caused it (R414). -/
def State.snapBytes (s : State) (r : TreeRec) (pa n ddr : Nat) : Except Bool (List Byte) × State :=
  let (bs, e, s) := s.headRead r pa n ddr 2
  (if e = .none then .ok bs else .error e.injected, s)

/-- The snapshot-table entry of a segment (R339). -/
def State.snapEntry (s : State) (r : TreeRec) (i : Nat) : List W64 × State :=
  let (bs, _, s) := s.headRead r (SnapCfg.addr s.snap.cfg 2 + 64 * i) 64 1 2
  (wordsOf bs, s)

/-- The ACTIVE snapshot is ABANDONED, and every hold ends (R346). -/
def State.snapStop (s : State) (r : TreeRec) (inj : Bool := false) : State :=
  (((s.updSnap fun n => { n with status := 4 }).snapFlag 1).snapNotice r 0x0501 inj).releaseHolds r

/-- Abandon the ACTIVE snapshot (R346). -/
def State.snapAbandon (s : State) (r : TreeRec) (inj : Bool := false) : State :=
  if s.snap.status = 1 then
    let s := s.snapStop r inj
    (s.sendStatus r s.snap.cstep 4).replan r
  else s

/-- Every SECURED snapshot on the buddy is LOST (R350). -/
def State.snapLost (s : State) (r : TreeRec) : State :=
  if s.snap.lastSec = 0xFFFFFFFF then s
  else
    let step := s.snap.lastSec
    let s := (s.updSnap fun n => { n with lastSec := 0xFFFFFFFF, secBuddy := none, status := if n.status = 2 then 5 else n.status }).snapFlag 3
    (s.snapNotice r 0x0502).sendStatus r step 5

/-- The snapshot completes once every owned segment is read, the buddy that it was sent to has acknowledged it and the local copy stands
(R345). -/
def State.snapCheck (s : State) (r : TreeRec) : State :=
  let n := s.snap
  if n.status = 1 ∧ n.read = n.nown ∧ (n.buddy.isNone ∨ n.acked) ∧ (!n.local_ ∨ n.localCnt = n.nown) then
    let sec := n.buddy.isSome && n.acked && n.buddyFeed != 0 && SnapCfg.feed n.cfg != 0 && n.buddyFeed != SnapCfg.feed n.cfg
    let s := s.updSnap fun n => { n with
      status := if sec then 2 else 3, lastSec := if sec then n.cstep else n.lastSec
      secBuddy := if sec then n.buddy else n.secBuddy }
    let s := if sec then s else (s.snapFlag 0).snapNotice r 0x0500
    let s := s.estCost.releaseHolds r
    (s.sendStatus r n.cstep (if sec then 2 else 3)).replan r
  else s

/-- TABDIG: word 0 of every entry, DIEMASK and reserved bits as 0 (R352). -/
def tabDigest (t : List (Nat × Seg)) : List Byte :=
  sha256 (t.flatMap fun x =>
    leBytes 8 (Seg.elems x.2 + Seg.pfmt x.2 * 2 ^ 32 + Seg.owner x.2 * 2 ^ 48))

def dirBytes (d : List (List W64)) : List Byte := d.flatMap fun e => e.flatMap fun w => leBytes 8 w.toNat

/-- The 4 KiB header of an image (R352). -/
def imageHeader (r : TreeRec) (epoch step feed nown datalen : Nat) (tab dir : List Byte) : List Byte :=
  let h := leBytes 4 0x5337544D ++ leBytes 2 1 ++ leBytes 2 r.self ++ leBytes 4 step ++ leBytes 2 epoch ++ leBytes 2 feed
    ++ leBytes 1 r.mode ++ List.replicate 7 0 ++ leBytes 8 nown ++ leBytes 8 datalen ++ leBytes 8 (dataOff nown)
    ++ sha256 tab ++ sha256 dir
  h ++ List.replicate (4096 - h.length) 0

/-- The header and directory are written to HDRBUF and sent to the buddy, the header last (R342). -/
def State.snapFinish (s : State) (r : TreeRec) (t : List (Nat × Seg)) : State :=
  let n := s.snap
  let dir := dirBytes n.dir
  let tab := t.flatMap fun x => leBytes 8 (Seg.elems x.2 + Seg.pfmt x.2 * 2 ^ 32 + Seg.owner x.2 * 2 ^ 48)
  let hd := imageHeader r (s.eng (r.head % 4)).tepoch n.cstep (SnapCfg.feed n.cfg) n.nown (n.off - dataOff n.nown) tab dir
  let s := s.engWrite r (SnapCfg.addr n.cfg 4) (hd ++ dir)
  match n.buddy with
  | some b =>
    let s := s.sendImage r b 5 n.cstep 0xFFFFFFFF 4096 n.size dir false
    s.sendImage r b 5 n.cstep 0xFFFFFFFF 0 n.size hd true
  | none => s

/-- The snapshot of a step starts: its size, its LOCAL and the auxiliary extent (R342), read in class STREAM, as R284 has the engine's
reads; only the segments' extents are read in class SNAPSHOT. -/
def State.snapStart (s : State) (r : TreeRec) (step : Nat) (own : List (Nat × Seg)) : State :=
  let (total, s) := own.foldl (fun (a : Nat × State) x =>
    let (e, s) := a.2.snapEntry r x.1
    (a.1 + (extLens e).foldl (· + ·) 0, s)) ((0 : Nat), s)
  let c : SnapCfg := s.snap.cfg
  let aux := 64 * SnapCfg.auxLen c
  let doff := dataOff own.length
  let s := s.updSnap fun n =>
    let ord := n.ordinal + 1
    { n with
      ordinal := ord, status := 1, cstep := step, buddy := r.buddy.map (·.node), acked := false, read := 0, off := doff, nown := own.length, localCnt := 0
      size := imageSize (dirEnd own.length) doff (aux + total), dir := [], held := true, nowLocal := false
      local_ := n.nowLocal || r.buddy.isNone || (SnapCfg.localDiv c != 0 && ord % SnapCfg.localDiv c == 0) }
  match s.snapBytes r (SnapCfg.addr c 3) aux 1 with
  | (.error inj, s) => s.snapAbandon r inj
  | (.ok bs, s) =>
    let s := match s.snap.buddy with
      | some b => s.sendImage r b 5 step 0xFFFFFFFF doff s.snap.size bs false
      | none => s
    s.updSnap fun n => { n with off := doff + aux, dir := [[0xFFFFFFFF, w64 (aux + crc32c bs * 2 ^ 32)]] }

/-- Read one extent of a segment, enter it in the directory and send it. -/
def State.snapExtent (s : State) (r : TreeRec) (i ext pa len : Nat) : State :=
  if s.snap.status ≠ 1 then s
  else if len = 0 then s.updSnap fun n => { n with dir := n.dir ++ [[w64 (i + ext * 2 ^ 32), 0]] }
  else
    match s.snapBytes r pa len 3 with
    | (.error inj, s) => s.snapAbandon r inj
    | (.ok bs, s) =>
      let s := match s.snap.buddy with
        | some b => s.sendImage r b 5 s.snap.cstep i s.snap.off s.snap.size bs false
        | none => s
      s.updSnap fun n =>
        { n with off := n.off + len, dir := n.dir ++ [[w64 (i + ext * 2 ^ 32), w64 (len + crc32c bs * 2 ^ 32)]] }

/-- An owned segment of the snapshot step is counted: the snapshot reads it (R342). -/
def State.snapSegment (s : State) (r : TreeRec) (t : List (Nat × Seg)) (i : Nat) : State :=
  let (e, s) := s.snapEntry r i
  let s := (extLens e).zipIdx.foldl (fun s x => s.snapExtent r i x.2 (bitsOf (word e x.2) 45 0) x.1) s
  if s.snap.status ≠ 1 then s
  else
    let s := s.updSnap fun n => { n with read := n.read + 1 }
    let s := if s.snap.local_ then s.engNotice (r.head % 4) (SnapCfg.snotify s.snap.cfg) s.snap.cstep 3 i else s
    let s := if s.snap.read = s.snap.nown then s.snapFinish r t else s
    (s.releaseHolds r).snapCheck r

/-- The first owned segment of a snapshot step is counted: the snapshot starts, or is skipped while the last is ACTIVE (R342,
R347). -/
def State.snapFirst (s : State) (r : TreeRec) (step : Nat) (own : List (Nat × Seg)) : State :=
  if s.snap.next = some step ∧ SnapCfg.interval s.snap.cfg ≠ 0 then
    if s.snap.status = 1 then ((s.snapFlag 2).snapNotice r 0x0503).sendStatus r step 1
    else s.snapStart r step own
  else s

/-- SNAPLOCAL.COUNT is written (R344, R356). -/
def State.snapLocal (s : State) (v : Nat) : State :=
  let n := s.snap
  if v < n.localCnt ∨ n.nown < v then s
  else
    let s := s.updSnap fun n => { n with
      localCnt := v, lastLocal := if n.status ≠ 0 ∧ v = n.nown then n.cstep else n.lastLocal }
    match s.inForce with
    | none => s
    | some r => (s.releaseHolds r).snapCheck r

/-! ### The buddy (R343, R348, R349) -/

/-- Image offset, image size and data of a SNAP or PUT payload (R343). -/
def imageData (f : Frame) : Nat × Nat × List Byte :=
  (ofLe (f.payload.take 8) % 2 ^ 48, ofLe ((f.payload.drop 8).take 8) % 2 ^ 48, f.payload.drop 16)

/-- Answer a sender with SNAPACK, on the port its frame came by. -/
def State.snapAck (s : State) (r : TreeRec) (port : Nat) (f : Frame) (code bytes : Nat) : State :=
  let pl := leBytes 8 (f.step.toNat + SnapCfg.feed s.snap.cfg * 2 ^ 32 + code * 2 ^ 48) ++ leBytes 8 (bytes % 2 ^ 48)
  s.pushFrame port 3 { s.mkFrame r 6 false false f.step.toNat 0xFFFFFFFF 0 0 0 pl with dst := f.src }

/-- Image bytes are written at an offset: they count in BYTES while no byte is left out before them, the directory and the header
following the data (R342, R348). -/
def Snap.noteImage (n : Snap) (off len : Nat) : Snap :=
  let next := match n.rxEnd with
    | none => false
    | some e => off == e || off == 4096 || off == 0
  { n with
    rxAll := n.rxAll + len, rxBytes := if next then n.rxBytes + len else n.rxBytes
    rxEnd := if next then some (off + len) else none }

/-- A SNAP frame belongs to another image than the last one: its step, or its epoch, is another, or it is at the offset at which that
image began, which a sender sends once (R348; DESIGN CHOICE for an image of the same step: notes/assumptions/175). -/
def Snap.newImage (n : Snap) (f : Frame) : Bool :=
  decide (n.rxStep ≠ some f.step.toNat ∨ n.rxEpoch ≠ f.epoch.toNat ∨ n.rxStart = (imageData f).1)

/-- A complete image stands in the receive region: the last one, or the one before an image that was refused and wrote nothing. -/
def Snap.lastStands (n : Snap) : Bool := n.rxComplete || (n.rxRefused && n.rxLastComplete)

/-- A SNAP frame for this board (R348, R349). Answers false where it is held. -/
def State.takeSnap (s : State) (r : TreeRec) (port : Nat) (f : Frame) : Bool × State :=
  let (off, size, bs) := imageData f
  let n := s.snap
  let fresh := n.newImage f
  if fresh && decide (SnapCfg.addr n.cfg 6 < size) then
    (true, (s.updSnap fun n => { n with
      rxStep := some f.step.toNat, rxEpoch := f.epoch.toNat, rxStart := off, rxRefused := true
      rxLastComplete := n.lastStands, rxComplete := false }).snapAck r port f 2 0)
  else if !fresh && n.rxRefused then (true, s)
  else if (if fresh then n.lastStands else n.rxLastComplete) && decide (n.rxDone < off + bs.length) then (false, s)
  else
    let s := if fresh then s.updSnap fun n => { n with
        rxEpoch := f.epoch.toNat, rxStart := off
        rxStep := some f.step.toNat, rxSize := size, rxBytes := 0, rxEnd := some off, rxAll := 0, rxAcked := 0, rxRefused := false
        rxLastComplete := n.lastStands, rxComplete := false } else s
    let s := s.engWrite r (SnapCfg.addr n.cfg 5 + off) bs
    let s := s.updSnap fun n => n.noteImage off bs.length
    let b := s.snap.rxBytes
    let a := s.snap.rxAll / 2 ^ 26
    let s := if s.snap.rxAcked < a then (s.updSnap fun n => { n with rxAcked := a }).snapAck r port f 0 b else s
    if f.last then
      let s := (s.updSnap fun n => { n with rxComplete := true, rxDone := 0 }).snapAck r port f 1 b
      (true, s.engNotice (r.head % 4) (SnapCfg.snotify s.snap.cfg) f.step.toNat 4 0)
    else (true, s)

/-- A SNAPACK from the buddy (R345, R346). -/
def State.takeSnapAck (s : State) (r : TreeRec) (f : Frame) : State :=
  let w := ofLe (f.payload.take 8)
  let code := bitsOf w 55 48
  if s.snap.status ≠ 1 ∨ w % 2 ^ 32 ≠ s.snap.cstep ∨ s.snap.buddy ≠ some f.src.toNat then s
  else if code = 1 then (s.updSnap fun n => { n with acked := true, buddyFeed := bitsOf w 47 32 }).snapCheck r
  else if code = 2 then (s.snapFlag 4).snapAbandon r
  else s

/-- A NOTICE for this board (R355). Each hop changes DST only. -/
def State.takeNotice (s : State) (r : TreeRec) (port : Nat) (f : Frame) : State :=
  let w0 := ofLe (f.payload.take 8)
  let w1 := ofLe ((f.payload.drop 8).take 8)
  let kind := w0 % 256
  let subject := bitsOf w0 31 16
  let stepv := bitsOf w0 63 32
  if kind = 1 then
    let came := (r.neighbours.find? fun n => s.portOf r n == some port).map (·.node)
    s.failureKey r f came
  else if kind = 2 then
    let s := s.updSnap fun n => { n with next := some stepv }
    (r.left.toList ++ r.right.toList).foldl (fun s n => s.sendTo r n f) s
  else if kind = 3 then
    if r.leads then s.takeStatus subject stepv (w1 % 16)
    else match r.parent with
      | some p => s.sendTo r p f
      | none => s
  else s

/-! ### Restore (R359, R360) -/

abbrev RestCfg := List W64
def RestCfg.step (c : RestCfg) : Nat := bitsOf (word c 0) 31 0
def RestCfg.role (c : RestCfg) : Nat := bitsOf (word c 0) 33 32
def RestCfg.bcast (c : RestCfg) : Bool := (word c 0).testBit 34
def RestCfg.peer (c : RestCfg) : Nat := bitsOf (word c 0) 63 48
def RestCfg.addr (c : RestCfg) : Nat := bitsOf (word c 1) 45 0
def RestCfg.size (c : RestCfg) : Nat := bitsOf (word c 2) 45 0

/-- A reserved field is set, or IMGADDR is not 2 MiB aligned. -/
def restoreMalformed (c : RestCfg) : Bool :=
  bitsOf (word c 0) 47 35 != 0 || bitsOf (word c 1) 63 46 != 0 || bitsOf (word c 2) 63 46 != 0 || word c 3 != 0
    || RestCfg.addr c % mib2 != 0

/-- Header fields of an image. -/
def hdField (h : List Byte) (off n : Nat) : Nat := ofLe ((h.drop off).take n)

/-- The checks of R360 before a byte is scattered: the directory where they pass. -/
def State.imageCheck (s : State) (r : TreeRec) (c : RestCfg) : Option (List Byte × List (List W64)) × State :=
  let (hd, e1, s) := s.headRead r (RestCfg.addr c) 4096 1 2
  let nown := hdField hd 24 8
  let dlen := 16 * (1 + 4 * min nown (2 ^ 20))
  let (dir, e2, s) := s.headRead r (RestCfg.addr c + 4096) dlen 1 2
  match s.segTable r with
  | (none, s) => (none, s)
  | (some t, s) =>
    let ok := e1 == .none && e2 == .none && hdField hd 0 4 == 0x5337544D && hdField hd 4 2 == 1
      && hdField hd 8 4 == RestCfg.step c && hdField hd 6 2 == r.self && ((hd.drop 48).take 32 == tabDigest t)
      && ((hd.drop 80).take 32 == sha256 dir) && decide (hdField hd 40 8 + hdField hd 32 8 ≤ RestCfg.size c)
    (if ok then some (hd, (List.range (dlen / 16)).map fun i => wordsOf ((dir.drop (16 * i)).take 16)) else none, s)

/-- Copy each extent to the address that the snapshot table gives, checking its CRC; answers false at a mismatch (R360), and
the bytes copied. -/
def State.scatter (s : State) (r : TreeRec) (c : RestCfg) : Bool × Nat × State :=
  match s.imageCheck r c with
  | (none, s) => (false, 0, s)
  | (some (hd, dir), s) =>
    let res := dir.foldl (fun (a : Bool × Nat × State) d =>
      let (ok, off, s) := a
      let seg := bitsOf (word d 0) 31 0
      let ext := bitsOf (word d 0) 35 32
      let len := bitsOf (word d 1) 31 0
      if !ok || len == 0 then a
      else
        let (bs, e, s) := s.headRead r (RestCfg.addr c + off) len 1 2
        if e != .none || crc32c bs != bitsOf (word d 1) 63 32 then (false, off, s)
        else if seg = 0xFFFFFFFF then (true, off + len, s.engWrite r (SnapCfg.addr s.snap.cfg 3) bs)
        else
          let (en, s) := s.snapEntry r seg
          (true, off + len, s.engWrite r (bitsOf (word en (ext % 4)) 45 0) bs)) (true, hdField hd 40 8, s)
    (res.1, res.2.1 - hdField hd 40 8, res.2.2)

/-- The parameters of every owned segment go down the tree, as though STEPDONE had counted them for a step; at the top of the tree
in shard mode they stand where they belong already (R330, R359). -/
def State.broadcast (s : State) (r : TreeRec) (step : Nat) : Bool × State :=
  match s.segTable r with
  | (none, s) => (false, s)
  | (some t, s) => (r.ownedOf t).foldl (fun (a : Bool × State) x =>
    if a.1 then
      match a.2.sendParams r step x.1 x.2 with
      | (true, s) => (true, if r.mode = 2 ∧ r.parent.isNone then s.engNotice (r.head % 4) (Seg.notify x.2) step 2 x.1 else s)
      | (false, s) => (false, s)
    else a) (true, s)

/-- Scatter, then broadcast where BCAST is set. -/
def State.scatterAnd (s : State) (r : TreeRec) (c : RestCfg) : Bool × Nat × State :=
  match s.scatter r c with
  | (false, n, s) => (false, n, s)
  | (true, n, s) =>
    if RestCfg.bcast c then
      let (ok, s) := s.broadcast r (RestCfg.step c)
      (ok, n, s)
    else (true, n, s)

/-- ROLE 1: send the image as PUT frames, the header first, then the directory and the data; LAST is set in the last frame (R359). -/
def State.sendWhole (s : State) (r : TreeRec) (c : RestCfg) : Bool × Nat × State :=
  let (hd, e, s) := s.headRead r (RestCfg.addr c) 4096 1 2
  let nown := hdField hd 24 8
  let size := hdField hd 40 8 + hdField hd 32 8
  if e != .none || hdField hd 0 4 != 0x5337544D || decide (RestCfg.size c < size) then (false, 0, s)
  else
    let (dir, e1, s) := s.headRead r (RestCfg.addr c + 4096) (16 * (1 + 4 * nown)) 1 2
    let (dat, e2, s) := s.headRead r (RestCfg.addr c + hdField hd 40 8) (hdField hd 32 8) 1 2
    let whole := imageSize (dirEnd nown) (hdField hd 40 8) (hdField hd 32 8)
    if e1 != .none || e2 != .none then (false, 0, s)
    else
      let put := fun (s : State) off bs last => s.sendImage r (RestCfg.peer c) 8 (RestCfg.step c) 0xFFFFFFFF off whole bs last
      (true, size, put (put (put s 0 hd false) 4096 dir dat.isEmpty) (hdField hd 40 8) dat true)

/-- A PUT frame: where a RESTORE of ROLE 2 awaits it, its bytes go to IMGADDR, and the last one lets the image be scattered.
Answers false where the frame is held. -/
def State.takePut (s : State) (r : TreeRec) (f : Frame) : Bool × State :=
  match s.restore with
  | none => (false, s)
  | some q =>
    if RestCfg.role q.cfg ≠ 2 ∨ q.result.isSome ∨ RestCfg.peer q.cfg ≠ f.src.toNat then (false, s)
    else
      let (off, _, bs) := imageData f
      if RestCfg.size q.cfg < off + bs.length then (true, { s with restore := some { q with result := some false } })
      else
        let s := s.engWrite r (RestCfg.addr q.cfg + off) bs
        if f.last then
          let (ok, n, s) := s.scatterAnd r q.cfg
          (true, { s with restore := some { q with got := n, result := some ok } })
        else (true, s)

end Sys2Proof.Machine
end

