-- ==== Sys2Proof/Machine/Strait.lean ====
section
/-! DEFINITION. Strait ports, the frames that reach a board, the stages of the reduction and the step (R308 to R335, R446). -/

namespace Sys2Proof.Machine
open Sys2Proof

/-! ### What a frame must be (R310) -/

/-- The payload rule of the frame's type. -/
def frameFits (f : Frame) : Bool :=
  let n := f.len.toNat
  let t := f.type.toNat
  let g := f.ngrp.toNat
  decide (1 ≤ t ∧ t ≤ 8) && n == f.payload.length && n % 8 == 0 && decide (n ≤ 4096) && (!f.absent || n == 0) &&
  if t = 1 ∨ t = 3 then
    f.fmt == 7 && decide (if f.absent then g = 0 else 1 ≤ g ∧ g ≤ 63) && n == roundUp (65 * g) 8
      && (f.payload.drop (65 * g)).all (· == 0)
  else if t = 2 ∨ t = 4 then decide (f.fmt.toNat ≤ 4) && n % (elemBits f.fmt.toNat / 8) == 0
  else if t = 5 ∨ t = 8 then decide (24 ≤ n) && f.fmt == 0 && f.ngrp == 0 && (f.payload.drop 6).take 2 == [0, 0]
    && (f.payload.drop 14).take 2 == [0, 0]
  else n == 16

/-- Element codes and scale of group i of a G16 payload (R310). -/
def frameGroup (f : Frame) (i : Nat) : List Nat × Nat :=
  ((List.range 32).map fun j => ofLe ((f.payload.drop (64 * i + 2 * j)).take 2),
   ((f.payload.getD (64 * f.ngrp.toNat + i) 0).toNat))

/-- Decode a G16 group to FP32, rounded to nearest even (R211). -/
def decGroup (es : List Nat) (x : Nat) : List W32 × Flags :=
  let rs := es.map fun e => fpEnc 0 (decodeScaled 7 x e, 0)
  (rs.map fun r => BitVec.ofNat 32 r.1, rs.foldl (fun f r => f ||| r.2) 0)

/-- add of R322: FP32 additions, ABSENT passed over. -/
def addGroup (x y : GroupVal) : GroupVal × Flags :=
  match x, y with
  | none, y => (y, 0)
  | x, none => (x, 0)
  | some a, some b =>
    let rs := (a.zip b).map fun p => fp32Add p.1.toNat p.2.toNat
    (some (rs.map fun r => BitVec.ofNat 32 r.1), rs.foldl (fun f r => f ||| r.2) 0)

/-- The G16 bytes of a group: 64 bytes of elements, then its scale byte; +0.0 where it is ABSENT (R199, R323, R325). -/
def encG16 (v : GroupVal) : List Byte × Flags :=
  match v with
  | none => (List.replicate 65 0, 0)
  | some l =>
    let (x, es, f) := encodeGroup 7 0 (l.map fun w => fpDec w.toNat)
    ((es.flatMap fun e => leBytes 2 e) ++ [BitVec.ofNat 8 x], f)

/-- Write a group of an owned segment to RADDR (R320, R325). -/
def State.writeGroup (s : State) (r : TreeRec) (e : Seg) (g : Nat) (bs : List Byte) : State :=
  (s.engWrite r (Seg.raddr e + 64 * g) (bs.take 64)).engWrite r (Seg.raddr e + 2 * Seg.elems e + g) (bs.drop 64)

/-! ### Segments done -/

/-- A further segment is sent up or received (RSEG); with all of them the engines wait for parameters (R336). -/
def State.bumpRseg (s : State) (active : Nat) : State :=
  s.updEngs fun e => { e with rseg := e.rseg + 1, state := if e.rseg + 1 = active ∧ e.state = 2 then 3 else e.state }

def State.bumpPseg (s : State) : State := s.updEngs fun e => { e with pseg := e.pseg + 1 }

/-- Index of a segment among the owned ones. -/
def ownedIndex (own : List (Nat × Seg)) (i : Nat) : Nat := own.findIdx fun x => x.1 == i

/-- The neighbour below which a segment's owner lies (R330). -/
def TreeRec.toward (r : TreeRec) (owner : Nat) : Option Neigh :=
  if r.llo ≤ owner ∧ owner ≤ r.lhi then r.left else if r.rlo ≤ owner ∧ owner ≤ r.rhi then r.right else none

/-- Send the encoded groups of one segment that make whole frames: GRAD toward PARENT, SHARD toward OWNER from the top (R323,
R330). Answers whether the segment is complete. -/
def State.flushSeg (s : State) (r : TreeRec) (active i : Nat) (e : Seg) : Bool × State :=
  let h := r.head % 4
  let g := s.eng h
  let n := Seg.groups e
  let done := g.ndone.get 0 i
  let frames := (n + 62) / 63
  let ready := if done = n then frames else done / 63
  let out := fun (s : State) (f : Frame) =>
    match r.parent with
    | some p => s.sendTo r p f
    | none => match r.toward (Seg.owner e) with
      | some c => s.sendTo r c f
      | none => s.badFrame (2 * h)
  let type := if r.parent.isSome then 1 else 3
  if g.present.get false i then
    let s := (rangeFrom g.upFrm (ready - g.upFrm)).foldl (fun s k =>
      let m := min 63 (n - 63 * k)
      let gs := (rangeFrom (63 * k) m).map fun q => (s.eng h).enc.get [] (i * 2 ^ 20 + q)
      let pl := gs.flatMap (·.take 64) ++ gs.flatMap (·.drop 64)
      let pl := pl ++ List.replicate (roundUp (65 * m) 8 - 65 * m) 0
      let s := out s (s.mkFrame r type (k + 1 == frames) false g.step i k 7 m pl)
      s.updEng h fun x => { x with
        upFrm := k + 1, enc := (rangeFrom (63 * k) m).foldl (fun t q => t.set [] (i * 2 ^ 20 + q) []) x.enc }) s
    if done = n then (true, (s.updEng h fun x => { x with upSeg := i + 1, upFrm := 0 }).bumpRseg active) else (false, s)
  else if done = n then
    let s := out s (s.mkFrame r type true true g.step i 0 7 0 [])
    let s := s.updEng h fun x => { x with
      upSeg := i + 1, upFrm := 0, enc := (List.range n).foldl (fun t q => t.set [] (i * 2 ^ 20 + q) []) x.enc }
    (true, s.bumpRseg active)
  else (false, s)

/-- Send whatever whole frames the node sums now make, segment by segment in table order (R323). -/
def State.flushUp (s : State) (r : TreeRec) (t : List (Nat × Seg)) : State :=
  let act := activeOf t
  (act.foldl (fun (a : Bool × State) x =>
    if !a.1 || decide (x.1 < (a.2.eng (r.head % 4)).upSeg) || r.owns x.2 && r.parent.isNone then a
    else a.2.flushSeg r act.length x.1 x.2) (true, s)).2

/-! ### Parameters and shards that reach the board (R327, R330) -/

/-- Write a frame's parameters to PADDR. -/
def State.writeParam (s : State) (r : TreeRec) (e : Seg) (f : Frame) : State :=
  s.engWrite r (Seg.paddr e + 4096 * f.fidx.toNat) f.payload

/-- The parameters of a segment stand here and have been sent on: the KIND 2 notice, and PSEG. A broadcast that reaches a board
in WAIT belongs to a RESTORE and is no part of a step (R359). -/
def State.paramDone (s : State) (r : TreeRec) (step i : Nat) (e : Seg) : State :=
  let h := r.head % 4
  let inStep := (s.eng h).state != 1
  let s := s.engNotice h (Seg.notify e) step 2 i
  if inStep then s.bumpPseg else s

def State.takeParam (s : State) (r : TreeRec) (e : Seg) (f : Frame) : State :=
  let s := s.writeParam r e f
  let s := (r.left.toList ++ r.right.toList).foldl (fun s n => s.sendTo r n { f with lseq := 0 }) s
  if f.last then s.paramDone r f.step.toNat f.seg.toNat e else s

/-- A GATHER frame: sent on to PARENT; at the top written, and broadcast once its segment is complete (R330). -/
def State.takeGather (s : State) (r : TreeRec) (e : Seg) (f : Frame) : State :=
  match r.parent with
  | some p => s.sendTo r p f
  | none =>
    let s := s.writeParam r e f
    if f.last then
      match s.sendParams r f.step.toNat f.seg.toNat e with
      | (true, s) => s.paramDone r f.step.toNat f.seg.toNat e
      | (false, s) => s
    else s

/-- A SHARD frame: the owner writes its groups, another board sends it toward the owner (R330). -/
def State.takeShard (s : State) (r : TreeRec) (port : Nat) (t : List (Nat × Seg)) (e : Seg) (f : Frame) : State :=
  let i := f.seg.toNat
  let h := r.head % 4
  if Seg.owner e = r.self then
    let n := Seg.groups e
    let s := if f.absent then (List.range n).foldl (fun s g => s.writeGroup r e g (encG16 none).1) s
      else (List.range f.ngrp.toNat).foldl (fun s k =>
        let (es, x) := frameGroup f k
        s.writeGroup r e (63 * f.fidx.toNat + k) ((es.flatMap fun v => leBytes 2 v) ++ [BitVec.ofNat 8 x])) s
    let got := if f.absent then n else (s.eng h).shardGot.get 0 i + f.ngrp.toNat
    let s := s.updEng h fun x => { x with shardGot := x.shardGot.set 0 i got }
    if n ≤ got then s.reducedNotice r i e (ownedIndex (r.ownedOf t) i) else s
  else
    match r.toward (Seg.owner e) with
    | some c => s.sendTo r c f
    | none => s.badFrame port

/-! ### A received frame (R319, R328, R331, R333, R446) -/

/-- A stale frame is dropped, counted and recorded as a run (R333). -/
def State.dropStaleFrame (s : State) (r : TreeRec) (port : Nat) (f : Frame) : State :=
  let d := port / 2
  let s := s.freeFrame port f
  let old := ((s.die d).sr stalefrmNo).toNat
  let s := s.updDie d fun x =>
    x.setSr stalefrmNo (w64 (f.epoch.toNat * 2 ^ 48 + f.src.toNat * 2 ^ 32 + satAdd (old % 2 ^ 32) 1 0xFFFFFFFF))
  let fresh := (s.eng d).staleRun != some f.epoch
  (s.updEng d fun e => { e with staleRun := some f.epoch }).detect d
    { code := 0x0405, sev := 0, loc := port, data0 := w64 r.tepoch, data1 := w64 f.epoch.toNat, data2 := w64 f.src.toNat,
      newRun := fresh }

/-- A frame not for this board: looked up in the relay table of the die it arrived on (R331). -/
def State.relayFrame (s : State) (port : Nat) (f : Frame) : State :=
  let s := s.freeFrame port f
  match s.relayPort (port / 2) f.dst.toNat with
  | some p => if f.hops = 0 then s.badFrame port else s.pushFrame p 2 { f with hops := f.hops - 1 }
  | none => s.badFrame port

/-- A GRAD, PARAM, SHARD or GATHER frame that does not fit the record in force and its table (R446). -/
def misfits (r : TreeRec) (t : List (Nat × Seg)) (f : Frame) : Bool :=
  let ty := f.type.toNat
  let e := (t.find? fun x => x.1 == f.seg.toNat).map (·.2)
  (match e with
    | none => true
    | some e => Seg.elems e == 0)
    || (ty == 1 && !([r.left, r.right].filterMap id).any fun n => n.node == f.src.toNat)
    || (ty == 2 && r.update) || ((ty == 3 || ty == 4) && r.mode != 2)

/-- An engine is in HALT. -/
def State.halted (s : State) : Bool := [0, 1, 2, 3].any fun d => (s.eng d).state == 4

/-- A PARAM or GATHER frame of the broadcast of a RESTORE: it is of the step before the one that a board in WAIT is to run (R359, R362;
DESIGN CHOICE: notes/assumptions/176). -/
def Engine.restored (e : Engine) (f : Frame) : Bool :=
  (f.type == 2 || f.type == 4) && e.state == 1 && decide ((f.step.toNat + 1) % 2 ^ 32 = e.step)

/-- A tree frame for this board makes it write a segment (R327, R330). -/
def TreeRec.writes (r : TreeRec) (e : Seg) (type : Nat) : Bool :=
  type == 2 || (type == 3 && Seg.owner e == r.self) || (type == 4 && r.parent.isNone)

/-- A tree frame for this board, of the right epoch. Answers whether it has left the receive buffer. -/
def State.takeTree (s : State) (r : TreeRec) (port : Nat) (f : Frame) : Bool × State :=
  let h := r.head % 4
  match s.segTable r with
  | (none, s) => (false, s)
  | (some t, s) =>
    let ty := f.type.toNat
    let step := (s.eng h).step
    if misfits r t f then (true, (s.freeFrame port f).badFrame port)
    else if f.step.toNat ≠ step ∧ (s.eng h).restored f = false then
      if ty = 1 ∧ f.step.toNat = (step + 1) % 2 ^ 32 then (false, s)
      else
        (true, ((s.freeFrame port f).detect (port / 2) { code := 0x0406, sev := 4, loc := port }).haltTree r 9 0x0406)
    else if ty = 1 then (false, s)
    else
      match t.find? fun x => x.1 == f.seg.toNat with
      | none => (true, s)
      | some x =>
        if r.writes x.2 ty && s.noticesFull h then (false, s)
        else
        let s := s.freeFrame port f
        (true, if ty = 2 then s.takeParam r x.2 f else if ty = 4 then s.takeGather r x.2 f else s.takeShard r port t x.2 f)

/-- What becomes of a frame in a receive buffer. Answers whether it has left the buffer. -/
def State.handleFrame (s : State) (port : Nat) (f : Frame) : Bool × State :=
  match s.inForce with
  | none => (false, s)
  | some r =>
    if f.dst.toNat ≠ r.self then (true, s.relayFrame port f)
    else if s.halted then (false, s)
    else if f.epoch.toNat ≠ r.tepoch then (true, s.dropStaleFrame r port f)
    else
      let ty := f.type.toNat
      if ty ≤ 4 then s.takeTree r port f
      else if ty = 5 then
        match s.takeSnap r port f with
        | (true, s) => (true, s.freeFrame port f)
        | (false, s) => (false, s)
      else if ty = 8 then
        match s.takePut r f with
        | (true, s) => (true, s.freeFrame port f)
        | (false, s) => (false, s)
      else if ty = 6 then (true, (s.freeFrame port f).takeSnapAck r f)
      else (true, (s.freeFrame port f).takeNotice r port f)

/-- Frames that keep their order behind a held one: SNAP frames, PUT frames, and the PARAM, SHARD or GATHER frames of a segment; 0 for
the others. -/
def rxLane (f : Frame) : Nat :=
  let t := f.type.toNat
  if 2 ≤ t ∧ t ≤ 4 then t + 16 * (f.seg.toNat + 1) else if t = 5 ∨ t = 8 then t else 0

/-- Handle the frames of a port's receive buffer in the order of their arrival. -/
def State.drainPort (s : State) (port : Nat) : State :=
  let res := (s.port port).rx.foldl (fun (a : List Frame × State) f =>
    let lane := rxLane f
    if lane != 0 && a.1.any (fun g => rxLane g == lane && g.dst == f.dst) then (a.1 ++ [f], a.2)
    else match a.2.handleFrame port f with
      | (true, s) => (a.1, s)
      | (false, s) => (a.1 ++ [f], s)) ([], s)
  res.2.updPort port fun p => { p with rx := res.1 }

def State.drainPorts (s : State) : State := (List.range 8).foldl (fun s p => s.drainPort p) s

/-! ### The receiver of a port (R308, R311, R312) -/

/-- The bytes of a frame that its CRC covers: the 32-byte header, reserved fields 0, and the payload (R309). -/
def frameBytes (f : Frame) : List Byte :=
  leBytes 1 f.type.toNat ++ leBytes 1 (f.last.toNat + 2 * f.absent.toNat) ++ leBytes 2 f.epoch.toNat ++ leBytes 4 f.step.toNat
    ++ leBytes 2 f.src.toNat ++ leBytes 2 f.dst.toNat ++ leBytes 4 f.seg.toNat ++ leBytes 2 f.fidx.toNat ++ leBytes 2 f.len.toNat
    ++ leBytes 1 f.fmt.toNat ++ leBytes 1 f.ngrp.toNat ++ leBytes 1 f.hops.toNat ++ leBytes 1 0 ++ leBytes 2 f.lseq.toNat
    ++ leBytes 6 0 ++ f.payload
/-- The CRC-32C in a frame's trailer (R309). -/
def frameCrc (f : Frame) : W32 := BitVec.ofNat 32 (crc32c (frameBytes f))
/-- Bytes of a frame with its header and trailer (R309). -/
def frameSize (f : Frame) : Nat := 40 + f.len.toNat

/-- The port asks for the replay, once, and anew where the replay itself is lost: a damaged frame may be its first one, and a sound
frame that is no further on than the last one dropped comes after it (R311; DESIGN CHOICE: notes/assumptions/194). `ahead`: how far the
frame's LSEQ is after the one due, none for a damaged frame. -/
def State.dropAndNak (s : State) (port : Nat) (ahead : Option Nat) : State :=
  s.updPort port fun p =>
    let again := match ahead with | none => true | some n => decide (n ≤ p.rxDrop)
    { p with nakSent := true, nakDue := p.nakDue || !p.nakSent || again, rxDrop := ahead.getD p.rxDrop }

/-- A codeword passes the error correction of a port, an armed error in it (R307, R414). Answers whether it is lost. -/
def State.codeword (s : State) (port : Nat) (fec : Codeword) : Bool × State :=
  let d := port / 2
  let (a, s) := s.takeArmed d 0x0401 port
  let (c, s) := s.takeArmed d 0x0402 port
  if c.isSome || fec == .uncorrectable then
    (true, (s.updPort port fun p => { p with fecUncorr := satAdd p.fecUncorr 1 0xFFFFFFFF }).detect d
      { code := 0x0402, sev := 1, loc := port, injected := c.isSome })
  else if a.isSome || fec == .corrected then
    (false, (s.updPort port fun p => { p with fecCorr := satAdd p.fecCorr 1 0xFFFFFFFF }).detect d
      { code := 0x0401, sev := 1, loc := port, injected := a.isSome })
  else (false, s)

/-- An armed error of the engine's buffer, met by a frame (R414). -/
def State.bufferInjection (s : State) (d : Nat) : State :=
  let (b, s) := s.takeArmed d 0x0407 d
  match b with
  | none => s
  | some 0 => s.detect d { code := 0x0407, sev := 1, loc := d, injected := true }
  | some _ => ((s.detect d { code := 0x0407, sev := 4, loc := d, injected := true }).updEng d fun e =>
      { e with state := 4 }).fatalToCtl d 0x0407 true

/-- A cell header (R308). -/
def cellHeader (kind start cseq : Nat) : BitVec 20 := BitVec.ofNat 20 (kind % 4 * 2 ^ 18 + start % 1024 * 2 ^ 8 + cseq % 256)
def cellKind (c : BitVec 20) : Nat := bitsOf c.toNat 19 18
def cellStart (c : BitVec 20) : Nat := bitsOf c.toNat 17 8
def cellSeq (c : BitVec 20) : Nat := bitsOf c.toNat 7 0

/-- Cells after the first that `n` bytes from an offset of a cell reach. -/
def moreCells (off n : Nat) : Nat := (off + n - 1) / 640

/-- A cell's CSEQ is the one due, or that of the cell in which the last frame ended and this one starts (R308). -/
def Port.inSequence (p : Port) (c : BitVec 20) : Bool :=
  cellSeq c == p.rxCseq || (cellKind c == 1 && (cellSeq c + 1) % 256 == p.rxCseq && decide (0 < p.rxOff ∧ p.rxOff ≤ cellStart c))

/-- A frame of `n` bytes starts in a cell of KIND 1, which ends a discarding of the byte stream; a cell out of sequence that starts a
frame ends the one it causes (R308; DESIGN CHOICE: notes/assumptions/174). -/
def Port.frameCells (p : Port) (c : BitVec 20) (n : Nat) : Port :=
  let more := moreCells (cellStart c) n
  { p with rxCseq := (cellSeq c + more + 1) % 256, rxOff := cellStart c + n - 640 * more, discarding := false }

/-- A data or idle cell in which no frame starts: out of sequence, the byte stream is discarded from here (R308). -/
def Port.plainCell (p : Port) (c : BitVec 20) : Port :=
  { p with rxCseq := (cellSeq c + 1) % 256, rxOff := 0, discarding := p.discarding || !p.inSequence c }

/-- A frame arrives on a port that is UP, with the CRC of its trailer, in the cells that start with `cell` (R308, R311). In a cell that
starts none there is no frame. -/
def State.receiveFrame (s : State) (port : Nat) (f : Frame) (crc : W32) (fec : Codeword) (cell : BitVec 20) : State :=
  let d := port / 2
  let s := s.updDie d fun x => { x with meters := { x.meters with rxBytes := x.meters.rxBytes + frameSize f } }
  let (lost, s) := (s.bufferInjection d).codeword port fec
  let s := if lost then s else s.updPort port fun p => if cellKind cell = 1 then p.frameCells cell (frameSize f) else p.plainCell cell
  if lost then s.dropAndNak port none
  else if cellKind cell ≠ 1 then s
  else if crc ≠ frameCrc f then (s.detect d { code := 0x0402, sev := 1, loc := port }).dropAndNak port none
  else if f.lseq.toNat ≠ (s.port port).rxSeq then s.dropAndNak port (some ((f.lseq.toNat + 65536 - (s.port port).rxSeq) % 65536))
  else
    let s := s.updPort port fun p => { p with rxSeq := (p.rxSeq + 1) % 65536, nakSent := false, nakDue := false, rxDrop := 0, ackDue := true }
    if frameFits f then (s.updPort port fun p => { p with rx := p.rx ++ [f] }).drainPort port
    else (s.freeFrame port f).badFrame port

/-- FRAME_RECEIVE (R311). -/
def execFrameReceive (port : Fin 8) (f : Frame) (r : Receipt) (s : State) : Host.Outcome State Fault Refusal :=
  .next (if (s.port port).state = 3 then s.receiveFrame port f r.crc r.fec r.cell else s)

/-- A data or idle cell with this CSEQ arrives: where it is out of sequence, the byte stream is discarded up to the next cell that
starts a frame, and the frames lost are asked for again by the sequence check (R308, R311); where it is the one due, nothing is lost. -/
def execCseqOutOfSequence (port : Fin 8) (cseq : BitVec 8) (s : State) : Host.Outcome State Fault Refusal :=
  .next (if (s.port port).state = 3 then
    s.updPort port fun p => p.plainCell (cellHeader 0 0 cseq.toNat) else s)

/-! ### The sender of a port (R311 to R313, R317) -/

/-- STARB weight of a class: TREE, RELAY, SNAP, PUT. -/
def Die.starb (d : Die) (cls : Nat) : Nat := bitsOf (d.sr 0x64E).toNat (4 * cls - 1) (4 * cls - 4)

/-- The class that sends next, and the grants its turn still has (R313). -/
def State.nextClass (s : State) (port : Nat) : Option (Nat × Nat) :=
  let p := s.port port
  if !p.qNotice.isEmpty then some (0, p.wrrLeft)
  else
    let arb : Arbiter := { rrCls := p.wrrCls, rrLeft := p.wrrLeft, waiting := [1, 2, 3, 4].foldl (fun m c =>
      m.set [] c ((p.queue c).map fun _ => [])) [] }
    arb.roundRobin (s.die (port / 2)).starb [1, 2, 3, 4]

/-- A frame enters the byte stream of a port: where a cell holds the end of the last frame and the start of none, it starts in that
cell, else in the next one (R308). -/
def Port.stream (p : Port) (f : Frame) : Port :=
  let next := p.txStarted || decide (640 ≤ p.txOff)
  let cs := if next then (p.txCseq + 1) % 256 else p.txCseq
  let off := if next then 0 else p.txOff
  let cells := moreCells off (frameSize f)
  { p with
    txCells := cellHeader 1 off cs :: (rangeFrom 1 cells).map fun i => cellHeader 0 0 (cs + i), txBytes := frameBytes f ++ leBytes 8 (frameCrc f).toNat
    txCseq := (cs + cells) % 256, txOff := off + frameSize f - 640 * cells, txStarted := cells == 0 }

/-- A port with no frame to send sends an idle cell (R308). -/
def Port.idleCell (p : Port) : Port :=
  let cs := if p.txStarted || p.txOff != 0 then (p.txCseq + 1) % 256 else p.txCseq
  { p with txCells := [cellHeader 2 0 cs], txBytes := [], txCseq := cs, txOff := 640, txStarted := false }

/-- The header of a control codeword's cell; CSEQ counts data and idle cells only (R308). -/
def Port.controlHeader (p : Port) : Option (BitVec 20) := p.ctlOut.map fun _ => cellHeader 3 0 0

/-- A frame leaves on a port's cable. -/
def State.onCable (s : State) (port : Nat) (p : Port) (f : Frame) : State :=
  (s.setPort port (p.stream f)).updDie (port / 2) fun x =>
    { x with meters := { x.meters with txBytes := x.meters.txBytes + frameSize f } }

/-- An armed control-silence injection acts on a port (R414). -/
def State.silenced (s : State) (port : Nat) : Bool :=
  (s.armed.get [] (port / 2)).any fun a => a.num == 0x0403 && a.loc == port

/-- A port sends a control codeword where an ACK, a NAK or credits are due (R308, R311, R312). -/
def State.sendControl (s : State) (port : Nat) : State :=
  let p := s.port port
  if s.silenced port ∨ (p.ackDue = false ∧ p.nakDue = false ∧ p.freedPay = 0 ∧ p.freedHdr = 0) then s
  else
    let pay := min p.freedPay 4095
    let hdr := min p.freedHdr 255
    s.setPort port { p with
      ackDue := false, nakDue := false, freedPay := p.freedPay - pay, freedHdr := p.freedHdr - hdr
      ctlOut := some {
        ack := if p.ackDue then some (BitVec.ofNat 16 (p.rxSeq + 65535)) else none
        nak := if p.nakDue then some (BitVec.ofNat 16 p.rxSeq) else none
        payloadCredits := BitVec.ofNat 12 pay, headerCredits := BitVec.ofNat 8 hdr } }

/-- A SNAP frame has left: segments that are read now hold nothing back any longer (R344, R349). -/
def State.snapSent (s : State) : State :=
  match s.inForce with
  | some r => s.releaseHolds r
  | none => s

/-- A port sends its next frame: a resent one first, else the class of R313, whole credits held (R312), at most 128 frames
unacknowledged (R311); an idle cell where there is none (R308). -/
def State.sendFrame (s : State) (port : Nat) : State :=
  let p := s.port port
  match p.resendQ with
  | f :: rest => s.onCable port { p with resendQ := rest, replayCnt := satAdd p.replayCnt 1 0xFFFFFFFF } f
  | [] =>
    match s.nextClass port with
    | none => s.setPort port p.idleCell
    | some (c, left) =>
      match p.queue c with
      | [] => s.setPort port p.idleCell
      | f :: rest =>
        if payCost f ≤ p.pcred ∧ 1 ≤ p.hcred ∧ p.replay.length < 128 then
          let f := { f with lseq := BitVec.ofNat 16 p.txSeq }
          let q := p.setQueue c rest
          let q := { q with
            pcred := p.pcred - payCost f, hcred := p.hcred - 1, txSeq := (p.txSeq + 1) % 65536, replay := p.replay ++ [f]
            wrrCls := if c = 0 then p.wrrCls else c, wrrLeft := if c = 0 then p.wrrLeft else left }
          let s := s.onCable port q f
          if c = 3 then s.snapSent else s
        else s.setPort port p.idleCell

/-- FRAME_SEND: what is due in a control codeword leaves before the frame (R313). -/
def execFrameSend (port : Fin 8) (s : State) : Host.Outcome State Fault Refusal :=
  .next (if (s.port port).state = 3 then (s.sendControl port).sendFrame port else s)

/-- SPORT.k.FEC and SPORT.k.LINK (R336). -/
def Port.fec (p : Port) : W64 := w64 (p.fecUncorr * 2 ^ 32 + p.fecCorr)
def Port.link (p : Port) : W64 := w64 (p.replayCnt * 2 ^ 32 + p.badfrm)
def Port.stat (p : Port) : W64 := w64 (p.pcred * 2 ^ 24 + p.hcred * 2 ^ 16 + p.fcause * 16 + p.state)

/-- An UP port goes FAILED: its detection, the FAILURE notices, and what a lost BUDDY port ends (R317, R346, R350, R355). -/
def State.portFail (s : State) (port cause : Nat) (injected : Bool) : State :=
  let d := port / 2
  let s := s.updPort port fun p => { p with state := 4, fcause := cause }
  let p := s.port port
  let s := (s.detect d { code := 0x0403, sev := 4, loc := port, data0 := w64 cause, data1 := p.fec, data2 := p.link,
                         injected := injected }).fatalToCtl d 0x0403 injected
  match s.inForce with
  | none => s
  | some r =>
    let step := (s.eng (r.head % 4)).step
    let s := (r.neighbours.filter fun n => s.portOf r n == some port).foldl
      (fun s n => s.failureKey r (s.noticeFrame r 1 n.node step cause r.self) none) s
    match r.buddy with
    | some b => if s.portOf r b = some port then (s.snapAbandon r).snapLost r else s
    | none => s

/-- The frames with sequence numbers before `n` are acknowledged; those from `n` on remain. -/
def fromSeq (n : Nat) (l : List Frame) : List Frame := l.dropWhile fun f => (n + 65536 - f.lseq.toNat) % 65536 - 1 < 32767
  && f.lseq.toNat != n

/-- A control codeword reaches a port: ACK, NAK and credits (R308, R311, R312). -/
def State.takeControl (s : State) (port : Nat) (k : Control) : State :=
  let s := s.updPort port fun p => { p with
    pcred := min 256 (p.pcred + k.payloadCredits.toNat), hcred := min 128 (p.hcred + k.headerCredits.toNat) }
  let s := match k.ack with
    | none => s
    | some a => s.updPort port fun p =>
      let rest := fromSeq ((a.toNat + 1) % 65536) p.replay
      if rest.length < p.replay.length then
        { p with replay := rest, resends := 0, resendQ := p.resendQ.filter rest.contains } else p
  match k.nak with
  | none => s
  | some a =>
    let p := s.port port
    if p.resends = 8 then s.portFail port 1 false
    else s.setPort port { p with resendQ := fromSeq a.toNat p.replay, resends := p.resends + 1 }

/-- CONTROL_CODEWORD (R311). -/
def execControlCodeword (port : Fin 8) (k : ControlCell) (s : State) : Host.Outcome State Fault Refusal :=
  .next (if (s.port port).state = 3 ∧ s.silenced port = false then
    match s.codeword port k.fec with
    | (true, s) => s
    | (false, s) => s.takeControl port k.content
  else s)

/-- PORT_CONTROL_SILENCE (R317): no control codeword for 10 µs. -/
def execPortControlSilence (port : Fin 8) (s : State) : Host.Outcome State Fault Refusal :=
  if (s.port port).state = 3 then
    let (a, s) := s.takeArmed (port.val / 2) 0x0403 port
    .next (s.portFail port 2 a.isSome)
  else .next s

/-- PORT_LANE_LOCK_LOSS (R317): lane lock lost for 1 ms. -/
def execPortLaneLockLoss (port : Fin 8) (s : State) : Host.Outcome State Fault Refusal :=
  .next (if (s.port port).state = 3 then s.portFail port 3 false else s)

/-! ### Training (R314 to R317, R433, R434) -/

def TrainOk (t : TrainResult) : Bool := t.lanesUp && t.moduleOk && t.berOk

/-- The cells of both directions start at CSEQ 0 after a training (DESIGN CHOICE: notes/assumptions/174). -/
def Port.firstCell (p : Port) : Port := { p with rxCseq := 0, rxOff := 0, discarding := false, txCseq := 0, txOff := 0, txStarted := false }

/-- A training ends. `old` is the port's state before it. Answers whether the port is UP. -/
def State.trainPort (s : State) (port old : Nat) (t : TrainResult) : Bool × State :=
  if TrainOk t then
    let s := s.updPort port Port.firstCell
    let p := s.port port
    let resume := old == 3 || (old == 4 && p.linkState && t.peerKeptState)
    if resume then
      let rest := fromSeq t.peerExpects.toNat p.replay
      (true, s.setPort port { p with state := 3, replay := rest, resendQ := rest, resends := 0, nakSent := false, nakDue := false, rxDrop := 0,
                                      ackDue := true })
    else
      let s := p.replay.foldl (fun s _ => s.badFrame port) s
      (true, s.updPort port fun p => { p with
        state := 3, txSeq := 0, rxSeq := 0, pcred := 256, hcred := 128, replay := [], resendQ := [], resends := 0,
        nakSent := false, nakDue := false, rxDrop := 0, ackDue := false, rx := [], freedPay := 0, freedHdr := 0
        linkState := true })
  else if old = 3 then (false, (s.updPort port fun p => { p with state := 3 }).portFail port 3 false)
  else (false, s.updPort port fun p => { p with state := old })

/-! ### READY and STEPDONE (R321, R326, R336) -/

/-- The step starts once all four dies are ready under a record in force (R321). -/
def State.tryStart (s : State) : State :=
  match s.inForce with
  | none => s
  | some r =>
    let h := r.head % 4
    if s.readyBits h = 15 ∧ [0, 1, 2, 3].all (fun d => (s.eng d).state == 1) then
      s.updEngs fun e => { e with state := 2 }
    else s

def badrdy : W64 := 0x100

/-- STEREADY is written on a die (R321). -/
def State.steReady (s : State) (d : Nat) (v : W64) : State :=
  let e := s.eng d
  let step := v.toNat % 2 ^ 32
  if e.state = 0 ∨ step ≠ e.step then s.steFlag d badrdy
  else (s.updEng d fun e => { e with rdy := some (e.tepoch, step) }).tryStart

/-- An owned segment is counted: the snapshot takes it, and its parameters go on (R326, R330, R342). -/
def State.countSegment (s : State) (r : TreeRec) (t own : List (Nat × Seg)) (j : Nat) (x : Nat × Seg) : State :=
  let h := r.head % 4
  let step := (s.eng h).step
  if s.halted then s
  else
    let s := if j = 0 then s.snapFirst r step own else s
    let s := if s.snap.status = 1 ∧ s.snap.cstep = step then s.snapSegment r t x.1 else s
    match s.sendParams r step x.1 x.2 with
    | (false, s) => s
    | (true, s) =>
      if r.update then s.bumpPseg
      else if r.parent.isNone then s.paramDone r step x.1 x.2
      else s

/-- STEPDONE.COUNT is written on a die (R326). -/
def State.stepDone (s : State) (d : Nat) (v : W64) : State :=
  let n := v.toNat % 2 ^ 32
  match s.inForce with
  | none => if n = 0 then s else s.steFlag d badrdy
  | some r =>
    let h := r.head % 4
    match s.segTable r with
    | (none, s) => s
    | (some t, s) =>
      let own := r.ownedOf t
      let old := (s.eng h).doneCnt
      if n < old ∨ own.length < n then s.steFlag d badrdy
      else
        let s := s.updEngs fun e => { e with doneCnt := n }
        ((own.zipIdx.drop old).take (n - old)).foldl (fun s x => s.countSegment r t own x.2 x.1) s

/-- SNAPRXDONE is written: held SNAP frames may be taken (R349). -/
def State.snapRxDone (s : State) (v : W64) : State :=
  (s.updSnap fun n => { n with rxDone := v.toNat % 2 ^ 48 }).drainPorts

/-! ### Die stage and node stage (R322, R323) -/

/-- A die's partial of a group, decoded on the engine of `at_` (R322). -/
def State.partial_ (s : State) (r : TreeRec) (at_ d : Nat) (e : Seg) (g : Nat) : Option GroupVal × State :=
  if Seg.mask e d then
    match s.engRead r at_ (Seg.gaddr e d + 64 * g) 64 with
    | (none, s) => (none, s)
    | (some bs, s) =>
      match s.engRead r at_ (Seg.gaddr e d + 2 * Seg.elems e + g) 1 with
      | (none, s) => (none, s)
      | (some x, s) =>
        let (v, f) := decGroup ((List.range 32).map fun j => ofLe ((bs.drop (2 * j)).take 2)) (ofLe x)
        (some (some v), s.steFlags at_ f)
  else (some none, s)

def stageKey (seg grp : Nat) : Nat := seg * 2 ^ 20 + grp

/-- DIE_STAGE_ADD: p on the engine of C1, q on that of C3, once all four dies are ready (R321, R322). -/
def State.dieStage (s : State) (die seg grp : Nat) : State :=
  match s.inForce with
  | none => s
  | some r =>
    if (die = 1 ∨ die = 3) ∧ (s.eng die).state = 2 ∧ r.update = false ∧ seg < r.nseg then
      match s.seg? r die seg with
      | (none, s) => s
      | (some e, s) =>
        if Seg.groups e ≤ grp ∨ ((s.eng die).stage.get none (stageKey seg grp)).isSome then s
        else
          match s.partial_ r die (die - 1) e grp with
          | (none, s) => s
          | (some a, s) =>
            match s.partial_ r die die e grp with
            | (none, s) => s
            | (some b, s) =>
              let (v, f) := addGroup a b
              ((s.meterAdd die).steFlags die f).updEng die fun x => { x with stage := x.stage.set none (stageKey seg grp) (some v) }
    else s

def execDieStageAdd (die : Fin 4) (seg grp : Nat) (s : State) : Host.Outcome State Fault Refusal :=
  .next (s.dieStage die seg grp)

/-- The GRAD frame that holds a child's group of a segment, with its port. -/
def State.gradOf (s : State) (r : TreeRec) (node seg grp : Nat) : Option (Nat × Frame) :=
  let step := (s.eng (r.head % 4)).step
  ((List.range 8).flatMap fun p => (s.port p).rx.map fun f => (p, f)).find? fun x =>
    let f := x.2
    f.type == 1 && f.dst.toNat == r.self && f.src.toNat == node && f.epoch.toNat == r.tepoch && f.step.toNat == step
      && f.seg.toNat == seg && (f.absent || decide (63 * f.fidx.toNat ≤ grp ∧ grp < 63 * f.fidx.toNat + f.ngrp.toNat))

/-- A child's decoded group: none while its frame has not arrived; ABSENT for a child that is none. -/
def State.childGroup (s : State) (r : TreeRec) (c : Option Neigh) (seg grp : Nat) : Option (GroupVal × Flags) :=
  match c with
  | none => some (none, 0)
  | some n =>
    match s.gradOf r n.node seg grp with
    | none => none
    | some (_, f) =>
      if f.absent then some (none, 0)
      else
        let (es, x) := frameGroup f (grp - 63 * f.fidx.toNat)
        let (v, fl) := decGroup es x
        some (some v, fl)

/-- GRAD frames of a segment whose last group is consumed leave the receive buffers (R312). -/
def State.spendGrads (s : State) (r : TreeRec) (seg done groups : Nat) : State :=
  let step := (s.eng (r.head % 4)).step
  let spent := fun (f : Frame) =>
    f.type == 1 && f.dst.toNat == r.self && f.epoch.toNat == r.tepoch && f.step.toNat == step && f.seg.toNat == seg
      && (if f.absent then done == groups else decide (63 * f.fidx.toNat + f.ngrp.toNat ≤ done))
  (List.range 8).foldl (fun s p =>
    let rx := (s.port p).rx
    let s := (rx.filter spent).foldl (fun s f => s.freeFrame p f) s
    if rx.any spent then s.updPort p fun q => { q with rx := rx.filter fun f => !spent f } else s) s

/-- The operands of a group: left, right, p and q, where all are present (R323). -/
def State.operands (s : State) (r : TreeRec) (seg grp : Nat) :
    Option ((GroupVal × Flags) × (GroupVal × Flags) × GroupVal × GroupVal) := do
  let l ← s.childGroup r r.left seg grp
  let t ← s.childGroup r r.right seg grp
  let p ← if r.update then some none else (s.eng 1).stage.get none (stageKey seg grp)
  let q ← if r.update then some none else (s.eng 3).stage.get none (stageKey seg grp)
  return (l, t, p, q)

/-- The node sum (left + right) + own, with the flags of its decodes and additions (R322, R323). -/
def nodeSum (o : (GroupVal × Flags) × (GroupVal × Flags) × GroupVal × GroupVal) : GroupVal × Flags :=
  let (own, f1) := addGroup o.2.2.1 o.2.2.2
  let (lr, f2) := addGroup o.1.1 o.2.1.1
  let (v, f3) := addGroup lr own
  (v, o.1.2 ||| o.2.1.2 ||| f1 ||| f2 ||| f3)

/-- A node sum is written by its owner, or encoded and sent on (R323, R325, R330). -/
def State.placeGroup (s : State) (r : TreeRec) (t : List (Nat × Seg)) (e : Seg) (seg grp : Nat) (v : GroupVal) : State :=
  let h := r.head % 4
  let n := Seg.groups e
  let (bs, f) := encG16 v
  let s := s.steFlags h f
  let s := s.updEng h fun x => { x with
    ndone := x.ndone.set 0 seg (grp + 1), present := if v.isSome then x.present.set false seg true else x.present }
  if r.owns e ∧ r.parent.isNone then
    let s := s.writeGroup r e grp bs
    if grp + 1 = n then (s.reducedNotice r seg e (ownedIndex (r.ownedOf t) seg)).bumpRseg (activeOf t).length else s
  else
    (s.updEng h fun x => { x with enc := x.enc.set [] (stageKey seg grp) bs }).flushUp r t

/-- NODE_GROUP_ADD: the next group of a segment, once all of its operands are present (R323). -/
def State.nodeGroup (s : State) (seg grp : Nat) : State :=
  match s.inForce with
  | none => s
  | some r =>
    let h := r.head % 4
    if (s.eng h).state = 2 ∧ seg < r.nseg ∧ (s.eng h).ndone.get 0 seg = grp then
      match s.segTable r with
      | (none, s) => s
      | (some t, s) =>
        match t.find? fun x => x.1 == seg with
        | none => s
        | some x =>
          if Seg.groups x.2 ≤ grp ∨ (r.owns x.2 ∧ r.parent.isNone ∧ s.noticesFull h) then s
          else
            match s.operands r seg grp with
            | none => s
            | some o =>
              let (v, f) := nodeSum o
              (((s.meterAdd h).steFlags h f).placeGroup r t x.2 seg grp v).spendGrads r seg (grp + 1) (Seg.groups x.2)
    else s

def execNodeGroupAdd (seg grp : Nat) (s : State) : Host.Outcome State Fault Refusal := .next (s.nodeGroup seg grp)

/-! ### The end of a step (R328) -/

/-- What a step leaves behind in an engine is cleared. -/
def Engine.clearStep (e : Engine) : Engine :=
  { e with tab := [], stage := [], ndone := [], enc := [], present := [], upSeg := 0, upFrm := 0, rseg := 0, pseg := 0,
           doneCnt := 0, shardGot := [] }

/-- The step advances (R328, R354). -/
def State.advance (s : State) (r : TreeRec) : State :=
  let h := r.head % 4
  let s := s.updEngs fun e => { e.clearStep with step := (e.step + 1) % 2 ^ 32, state := 1 }
  let s := [0, 1, 2, 3].foldl (fun s d => s.updDie d fun x => { x with meters := { x.meters with steps := x.meters.steps + 1 } }) s
  let now := (s.die h).ctr
  let s := s.updSnap fun n => { (if n.estSet then n.estStep (now - n.stepStart) else n) with stepStart := now }
  s.drainPorts

/-- STEP_END: every segment has gone up, every parameter is written and sent on. -/
def State.stepEnd (s : State) : State :=
  match s.inForce with
  | none => s
  | some r =>
    let e := s.eng (r.head % 4)
    if e.state = 2 ∨ e.state = 3 then
      match s.segTable r with
      | (none, s) => s
      | (some t, s) =>
        let n := (activeOf t).length
        if e.rseg = n ∧ e.pseg = n ∧ (List.range 8).all (fun p => (s.port p).qTree.isEmpty) then s.advance r else s
    else s

def execStepEnd (s : State) : Host.Outcome State Fault Refusal := .next s.stepEnd

/-! ### TREE_CONFIG and resets of an engine (R319, R334, R335) -/

/-- Drop the frames held and queued on a die's own ports that do not pass a test; their credits go back. -/
def State.dropFrames (s : State) (d : Nat) (keep : Frame → Bool) : State :=
  [2 * d, 2 * d + 1].foldl (fun s p =>
    let s := ((s.port p).rx.filter fun f => !keep f).foldl (fun s f => s.freeFrame p f) s
    s.updPort p fun q => { q with
      rx := q.rx.filter keep, qNotice := q.qNotice.filter keep, qTree := q.qTree.filter keep, qRelay := q.qRelay.filter keep
      qSnap := q.qSnap.filter keep, qPut := q.qPut.filter keep }) s

/-- Held frames of the old epoch for this board are stale, and a frame of the old epoch queued for sending is dropped, a relayed one
too; relayed frames held are not checked (R332 to R334). -/
def State.dropOldEpoch (s : State) (d old : Nat) (r : TreeRec) : State :=
  [2 * d, 2 * d + 1].foldl (fun s p =>
    let stale := fun (f : Frame) => f.dst.toNat == r.self && f.epoch.toNat == old
    let s := ((s.port p).rx.filter stale).foldl (fun s f => s.dropStaleFrame r p f) s
    let keep := fun (f : Frame) => f.epoch.toNat != old
    s.updPort p fun q => { q with
      rx := q.rx.filter fun f => !stale f, qNotice := q.qNotice.filter keep, qTree := q.qTree.filter keep
      qRelay := q.qRelay.filter keep, qSnap := q.qSnap.filter keep, qPut := q.qPut.filter keep }) s

/-- The record of the die that holds the snapshot registers (R356). -/
def State.snapRec (s : State) : TreeRec := treeRec (s.eng s.snap.headDie).cfg

/-- The head die takes a record in force: it counts the owners as leader, a snapshot whose copy stands with another buddy is lost, the
step begins, and the leader plans the next snapshot (R341, R350, R354, R358). -/
def State.headRecord (s : State) (r : TreeRec) : State :=
  let h := r.head % 4
  let s := (s.updSnap fun n => { n with headDie := h, leads := r.leads, stepStart := (s.die h).ctr }).countOwners r
  let s := if s.snap.secBuddy != r.buddy.map (·.node) then s.snapLost r else s
  if r.leads then s.setNext r ((r.step0 + 2 ^ 32 - 1 + s.snap.intervalNow) % 2 ^ 32) else s

/-- A die accepts a record (R319): WAIT with STEP0, or IDLE where MODE is 0. A change of TEPOCH ends what the old epoch holds, and
on the head die abandons the snapshot, whose STATUS carries the new epoch (R334, R346, R358). -/
def State.takeRecord (s : State) (d : Nat) (ws : List W64) : State :=
  let r := treeRec ws
  let was := s.eng d
  let changed := was.tepoch != r.tepoch
  let head := r.mode != 0 && r.head % 4 == d
  let stops := changed && (head || s.snap.headDie == d) && s.snap.status == 1
  let old := s.snapRec
  let s := if stops then s.snapStop old else s
  let s := s.updEng d fun e =>
    let e := { e.clearStep with tepoch := r.tepoch, rdy := none, staleRun := none, withheld := [] }
    if r.mode = 0 then { e with cfg := [], state := 0 } else { e with cfg := ws, state := 1, step := r.step0 }
  let s := if r.mode = 0 ∧ s.snap.headDie = d then s.updSnap fun n => { n with leads := false } else s
  let s := if changed then s.dropOldEpoch d was.tepoch r else s
  let s := if stops then
      let q := if head then r else old
      (s.sendStatus q s.snap.cstep 4).replan q
    else s
  if head then s.headRecord r else s

/-- TREE_CONFIG on a die: busy outside IDLE, WAIT and HALT, malformed where R319 says so. Answers the status. -/
def State.treeAccept (s : State) (d : Nat) (ws : List W64) : Nat × State :=
  let st := (s.eng d).state
  if treeMalformed ws then (5, s)
  else if st = 2 ∨ st = 3 then (0x10, s)
  else (0, ((s.takeRecord d ws).drainPorts).tryStart)

/-- ABORT with LEN 0 and JOB_HANDOFF on a die's engine (R335). -/
def State.engineReset (s : State) (d : Nat) : State :=
  let s := s.dropFrames d fun _ => false
  let s := s.updEng d fun e => { e.clearStep with cfg := [], state := 0, rdy := none, staleRun := none, relay := [],
                                                  notices := [], owed := [], withheld := [] }
  s.updDie d fun x => ((x.setSr steflagsNo 0).setSr stalefrmNo 0)

/-! ### Acknowledgements (R299, R305, R329) -/

/-- A notice has left the queue of an engine: the next ones take their places, and a frame held for want of room goes on (R329). -/
def State.engineFreed (s : State) (engine : Option Nat) : State :=
  match engine with
  | none => s
  | some d => (s.queueOwed d).drainPorts

/-- An acknowledgement reaches the sender (R299); one whose message is no longer queued is ignored (R305). -/
def execAckArrival (i : Nat) (s : State) : Host.Outcome State Fault Refusal :=
  match s.wireAcks[i]? with
  | none => .next s
  | some a =>
    if !s.pathUp (a.msg.dst / 128) (s.srcDie a.msg) then .next s
    else
    let s : State := { s with wireAcks := s.wireAcks.eraseIdx i }
    let g := a.msg
    let q := s.outOf g.engine g.src
    match findInFlight q g with
    | none => .next s
    | some j =>
      match a.ans with
      | .accept => .next ((s.setOut g.engine g.src (q.eraseIdx j)).engineFreed g.engine)
      | .discard =>
        let s := s.setOut g.engine g.src (q.eraseIdx j)
        .next (match g.engine with
          | some _ => s.engineFreed g.engine
          | none => s.updCore (s.keyOfLcore g.src) fun c => c.setSr mbxstatNo (c.sr mbxstatNo ||| 0x10000))
      | .refuse => .next (s.setOut g.engine g.src (q.modify j fun e => { e with st := .refused }))
      | .refuseFull => .next (s.setOut g.engine g.src (q.modify j fun e => { e with st := .refusedFull }))

end Sys2Proof.Machine
end

