-- ==== Sys2Proof/Machine/Task.lean ====
section
/-! DEFINITION. The task boundary, FENCE.TASK and the atoll part (R158, R194, R231, R255, R256, R381), and the fetch of an
instruction through the instruction cache (R263 to R265). -/

namespace Sys2Proof.Machine
open Sys2Proof

/-! ### FENCE.TASK -/

/-- Cancel every HALTED unit, with its entry (R158). -/
def State.taskCancel (s : State) (k : Nat) : State :=
  (List.range 8).foldl (fun s i =>
    let u := (s.core k).unit i
    if u.state = 2 then
      let s := s.detect (unitOfKey k)
        { code := 0x030A, sev := 0, loc := s.locOf k, data0 := w64 i, data1 := w64 (u.iter % 2 ^ 16 * 2 ^ 48 + u.index) }
      s.updCore k fun c => c.cancelUnit i
    else s) s

/-- A unit of the core is RUNNING. -/
def Core.anyRunning (c : Core) : Bool := (List.range 8).any fun i => (c.unit i).state == 1

/-- Every line of the L1 written back and invalidated, then IFENCE (R255). -/
def State.taskFlush (s : State) (k : Nat) : State :=
  let s := s.l1Release k ((s.core k).l1Lines true)
  (s.l1Drop k ((s.core k).l1Lines true)).updCore k Core.ifence

/-- The atoll at a position is drained (R381). -/
def State.atollDrained (s : State) (die pos : Nat) : Bool :=
  match (s.die die).logicalAt pos with
  | some a => (s.die die).drained.testBit a
  | none => false

/-- FENCE.TASK. A core that has no atoll has no atoll part to wait for: a general core writes back and invalidates the
mainland cache itself (DESIGN CHOICE: notes/assumptions/31). -/
def execFenceTask (c : CoreId) (s : State) : Host.Outcome State Fault Refusal :=
  let w := instrWord (.fenceTask c)
  let k := coreKey c
  runInstr c w false (do
    let x ← getC k
    if x.level = Level.u then privilege (BitVec.ofNat 32 w)
    modC k Core.runGroups
    if (← getC k).anyRunning then stall
    modify fun s => s.taskCancel k
    modC k Core.completeReleases
    if !(← getC k).bg.isEmpty then stall
    modify fun s => s.taskFlush k
    if isCompute k then
      let x ← getC k
      let drained ← (fun (s : State) => s.atollDrained (k / 144) (posOfKey k)) <$> get
      if x.taskRan && !drained then
        modC k fun x => { x with taskRan := false, taskArrived := false }
        return .next
      else do
        modC k fun x => { x with taskArrived := true, wait := .fenceTask }
        stall
    else do
      if isGeneral k then
        modify fun s => s.lagRelease 36 ((s.atoll 36).lagLines true) (some k)
        modify fun s => s.lagInvalidate 36 ((s.atoll 36).lagLines true)
      return .next) s

/-- The core counts as arrived: in FENCE.TASK, halted, or in reset (R256; notes/assumptions/32). -/
def Core.arrived (c : Core) : Bool :=
  c.taskArrived || (match c.run with
    | .running => false
    | _ => true)

/-- A core's FENCE.TASK completes, or, interrupted, will complete when it is issued again (R255): until then the core stays arrived,
for a further atoll part too (DESIGN CHOICE: notes/assumptions/164). -/
def Core.finishTask (c : Core) : Core :=
  if !c.taskArrived then c
  else if c.wait = .fenceTask then { c with taskArrived := false, wait := .none }.loopStep c.pc
  else { c with taskRan := true }

/-- The three steps of R256. No core is named as the finder of an error in the write-backs: the die controller takes its MCHECK
(DESIGN CHOICE: notes/assumptions/182). -/
def State.atollFlush (s : State) (a : Nat) : State :=
  let s := s.lagRelease a ((s.atoll a).lagLines true) none
  s.updAtoll a fun x => { x with lag := [], deadr := [], trackers := [] }

/-- The atoll part, once every core of the atoll has arrived (R256). An atoll that DRAIN has told becomes drained, and its
cores stay in FENCE.TASK (R381). -/
def execAtollTaskPart (die : Fin 4) (pos : Fin 9) (s : State) : Host.Outcome State Fault Refusal :=
  let d := die.val
  let p := pos.val
  let ks := coresAt d p
  if (s.die d).up && (s.atoll (d * 9 + p)).powered && (ks.all fun k => (s.core k).arrived)
      && (ks.any fun k => (s.core k).taskArrived) && !s.atollDrained d p then
    let s := s.atollFlush (d * 9 + p)
    match (s.die d).logicalAt p with
    | some a =>
      if (s.die d).draining.testBit a then
        .next (s.updDie d fun x => { x with draining := setBit x.draining a false, drained := setBit x.drained a true })
      else .next (ks.foldl (fun s k => s.updCore k Core.finishTask) s)
    | none => .next (ks.foldl (fun s k => s.updCore k Core.finishTask) s)
  else .next s

/-! ### Fetching an instruction (R263 to R265) -/

def icKeys (line : Nat) : List Nat := (List.range 4).map (line % 128 * 4 + ·)
def Core.icLine (c : Core) (key : Nat) : IcLine := c.icache.get {} key
def Core.setIc (c : Core) (key : Nat) (l : IcLine) : Core := { c with icache := c.icache.set {} key l }

/-- The least recently used way, or a free one. -/
def Core.icVictim (c : Core) (line : Nat) : Nat :=
  (icKeys line).foldl (fun b k => if (c.icLine k).lru < (c.icLine b).lru then k else b) (line % 128 * 4)

/-- A present instruction line, unless its stored word has an error: that is counted and the line is fetched again. -/
def State.icPresent (s : State) (k line : Nat) : Bool × State :=
  match (icKeys line).find? fun i => ((s.core k).icLine i).valid && ((s.core k).icLine i).line == line with
  | none => (false, s)
  | some i =>
    let l := (s.core k).icLine i
    if l.err ≠ 0 then
      let s := s.detect (unitOfKey k)
        { code := 0x0103, sev := 1, loc := s.locOf k, addr := (s.core k).pc, injected := decide (4 ≤ l.err) }
      (false, s.updCore k fun c => c.setIc i {})
    else (true, s.updCore k fun c => { c with icClock := c.icClock + 1 }.setIc i { l with lru := c.icClock + 1 })

/-- Fetch at the core's PC: the faults of R264, R265, R269 and R275, or the line enters the instruction cache. A dead line that a
fetch finds sets no bit of MEMSTAT (DESIGN CHOICE: notes/assumptions/183). -/
def fetch (k : Nat) : M Unit := do
  let c ← getC k
  let pa ← translate k c.level .i .fetch false false c.pc
  let line := pa / 128
  let s ← get
  if isCtl k && (match s.region pa with | .rom => true | _ => false) then pure ()
  else if ← modifyGet fun s => s.icPresent k line then pure ()
  else do
    let r ← modifyGet fun s => s.belowRead k line false
    if r.dead then trap 0x05 0 (w64 (c.pc.toNat / 128 * 128))
    if r.bad then accessMcheck k 0x0304 c.pc pa 1 0
    if r.poison ≠ 0 then accessMcheck k 0x0110 c.pc pa 1 r.poison
    let (e, s) := (← get).armedErr (unitOfKey k) [0x0103] ((← get).locOf k)
    set s
    modC k fun c =>
      { c with icClock := c.icClock + 1 }.setIc (c.icVictim line)
        { valid := true, line := line, data := r.data, err := e, lru := c.icClock + 1 }

/-- The fetch of the next instruction: it fails with the fault it meets, or its line is in the instruction cache (R77,
R264). -/
def execInstructionFetchFault (c : CoreId) (s : State) : Host.Outcome State Fault Refusal :=
  let k := coreKey c
  if s.issuing k && (s.core k).wait == .none then
    parityAfter k s (runEvent (do
      if ← boundary k then pure ()
      else do
        let pc := (← getC k).pc
        tryCatch (fetch k) fun e => match e with
          | .exc e => do
            let e ← modifyGet fun s => s.joinMchk k e
            discard <| raise k e pc
          | e => throw e) s)
  else .next s

end Sys2Proof.Machine
end

