-- ==== Sys2Proof/Machine/Reset.lean ====
section
/-! DEFINITION. Resets and power of cores, atolls and dies: what each loses and what it keeps (R65, R98, R158, R194, R226, R266,
R305, R335, R382, R402, R403). -/

namespace Sys2Proof.Machine
open Sys2Proof

/-! ### Cores and atolls -/

/-- A core after a core reset: in reset at M, every register, mailbox, unit, tile and cache at its reset value. A trace, a halt that
waits for U and a deferred debug request stay, and so does controller memory. -/
def Core.afterReset (c : Core) (k : Nat) : Core :=
  { mfw := isCompute k || c.mfw, dbgHaltReq := c.dbgHaltReq, dbgDeferred := c.dbgDeferred, trace := c.trace, ctlBody := c.ctlBody, ctlMem := c.ctlMem }

/-- Core reset: the waiting senders are woken (R305), all else returns to its reset value. In OPERATOR it takes a traced core to M, and
that stay has its M-GAP record (R404). -/
def State.coreReset (s : State) (k : Nat) : State :=
  let c := s.core k
  let wakes := c.waitlist.map fun w => ({ sender := w.sender, engine := w.engine, dst := s.lcoreOf k, mbx := w.mbx } : Wake)
  let s : State := { s.setCore k (c.afterReset k) with wireWakes := s.wireWakes ++ wakes }
  let s := if s.board.security = 1 then s.traceNote k .mGap (s.core k).pc else s
  wakes.foldl (fun s w => s.postBack k w.engine w.sender) s

/-- ABORT and JOB_HANDOFF on an atoll: its cores are reset, its lagoon invalidated without write-back, its entries, trackers and
registers reset (R266). -/
def State.atollAbort (s : State) (d p : Nat) : State :=
  let s := (coresAt d p).foldl (fun s k => s.coreReset k) s
  s.updAtoll (d * 9 + p) fun a => { a with lag := [], deadr := [], trackers := [], sys := [], gated := false }

/-- An active trace of a core whose domain switches off ends with an END record (R407). -/
def State.endTrace (s : State) (k : Nat) : State :=
  if (s.core k).trace.isSome then (s.traceNote k .ended 0).updCore k fun c => { c with trace := none } else s

/-- Drop the armed injections of a unit that a test names (R413). -/
def State.dropArmed (s : State) (u : Nat) (p : Armed → Bool) : State :=
  { s with armed := s.armed.set [] u ((s.armed.get [] u).filter fun a => !p a) }

/-- An injection is armed at a core, or at the atoll itself, of logical atolls in a mask. -/
def armedIn (mask : Nat) (a : Armed) : Bool :=
  (decide (a.num < 0x200) && mask.testBit (a.loc % 128 / 16)) || (decide (a.num / 256 = 2) && mask.testBit (a.loc % 16))

/-- The power domain of a temperature sensor (R413, R442): the die cores, the mainland cores, the modules, the drives, the service
domain. -/
def sensorDomain (n : Nat) : Nat :=
  if n < 4 then 12 * n + 9 else if n = 4 then 48 else if n < 37 then 51 + (n - 5) / 8 else if n < 41 then 55 + (n - 37) else 50

/-- A detector of the service core whose LOC lies in a power domain (R409, R413). -/
def Armed.inDomain (a : Armed) (n : Nat) : Bool :=
  (a.num == 0x602 && a.loc == n) || ((a.num == 0x603 || a.num == 0x604) && sensorDomain a.loc == n)

/-- A power domain switches off: what is armed there is dropped (R413). -/
def State.dropDomains (s : State) (ns : List Nat) : State := s.dropArmed 4 fun a => ns.any a.inDomain

/-- An armed injection of the service core's detector at a location is spent (R414). -/
def State.spend (s : State) (num loc : Nat) : Bool × State :=
  let (a, s) := s.takeArmed 4 num loc
  (a.isSome, s)

/-- A FATAL detection at board level: the entry, and MCHECK at the service core, whose firmware passes it on (R409, R411, R412). -/
def State.boardFatal (s : State) (code loc : Nat) (sample limit : W64) (inj : Bool) : State :=
  (s.detect 4 { code := code, sev := 4, loc := loc, data0 := sample, data1 := limit, injected := inj }).fatalToCtl 4 code inj

/-- The entry of a regulator fault. Its sample and its limit are free, and so is the LOC of IBUS, a VIN rail or an OSFP rail, which
have no number (R416, R425; DESIGN CHOICE: notes/assumptions/138). -/
def State.regulatorEntry (s : State) (loc : Option Nat) : Bool × State :=
  let (inj, s) := match loc with
    | some n => s.spend 0x0602 n
    | none => (false, s)
  let (a, s) := s.draw
  let (b, s) := s.draw
  let (c, s) := s.draw
  (inj, s.boardFatal 0x0602 (loc.getD (Config.freeNat c % 65536)) (w64 (Config.freeNat a)) (w64 (Config.freeNat b)) inj)

/-- Key of a supply: a domain's number, then IBUS, VIN.C0 to VIN.C3, VIN.H, OSFP.0 to OSFP.7. -/
def supplyKey : Supply → Nat
  | .domain n => n
  | .ibus => 59
  | .vin i => 60 + i
  | .osfp p => 65 + p

/-- A supply that is being enabled fails where a fault of it waits, which is then spent (R426; DESIGN CHOICE:
notes/assumptions/168). -/
def State.takeFail (s : State) (key : Nat) : Bool × State :=
  (s.board.failsNext.get false key, s.updBoard fun b => { b with failsNext := b.failsNext.set false key false })

/-- An atoll's domain switches off: contents are lost (R403). -/
def State.atollOff (s : State) (d p : Nat) : State :=
  let s := (coresAt d p).foldl (fun s k => (s.endTrace k).updCore k fun c =>
    ({ mfw := true, dbgDeferred := c.dbgDeferred } : Core)) s
  let s := match (s.die d).logicalAt p with
    | some a => s.dropArmed d (armedIn (2 ^ a))
    | none => s
  (s.dropDomains [12 * d + p]).setAtoll (d * 9 + p) {}

/-- An atoll's domain powers up: reset contents, its cores held at M (R98, R194, R226, R266, R386). Where it is on already, its cores are
reset, so that debug work on them goes on (R404, R407). -/
def State.atollOn (s : State) (d p : Nat) : State :=
  let s := if (s.atoll (d * 9 + p)).powered then (coresAt d p).foldl (fun s k => s.coreReset k) s
    else (coresAt d p).foldl (fun s k => s.updCore k fun c => ({ mfw := true, dbgDeferred := c.dbgDeferred } : Core)) s
  s.setAtoll (d * 9 + p) { powered := true }

/-- An atoll's domain fails: it is marked offline as ATOLL_OFFLINE with PWROFF does, with no write-back (R426). -/
def State.atollFault (s : State) (d p : Nat) : State :=
  let s := match (s.die d).logicalAt p with
    | some a => s.updDie d fun x => { x with
        offline := setBit x.offline a true, running := setBit x.running a false, draining := setBit x.draining a false
        drained := setBit x.drained a false }
    | none => s
  s.atollOff d p

/-- An atoll is switched on: it powers up, or its domain fails (R426, R430). -/
def State.startAtoll (s : State) (d p : Nat) : State :=
  let (bad, s) := s.takeFail (12 * d + p)
  if bad then ((s.regulatorEntry (some (12 * d + p))).2).atollFault d p else s.atollOn d p

/-- Physical positions of the active atolls: mapped and not offline. -/
def Die.activePos (d : Die) : List Nat := ((List.range 8).filter fun k => !d.isOffline k).map d.position

/-- The active atolls of a die power up, and those that do pass their self-test (R384, R385; DESIGN CHOICE: notes/assumptions/18). -/
def State.startAtolls (s : State) (d : Nat) : State :=
  let ps := (s.die d).activePos
  let s := ps.foldl (fun s p => s.startAtoll d p) s
  s.updDie d fun x => { x with selfTest := ps.foldl (fun n p => setBit n p (s.atoll (d * 9 + p)).powered) 0 }

/-- Dirty lines of an atoll's lagoon that are written back: a dead line is dropped (R386). -/
def State.dirtyLines (s : State) (a : Nat) : Nat :=
  ((s.atoll a).lag.filter fun e => e.2.valid && e.2.dirty != 0 && !(s.atoll a).isDead e.2.line).length

/-- Write back the lagoon's dirty lines at BOARD scope, drop its dead lines and invalidate it (R386). The dead bits stay: R261 lists what
clears them, and a domain that switches off loses them. -/
def State.lagoonOut (s : State) (a : Nat) : State :=
  let s := s.lagRelease a ((s.atoll a).lagLines true) none
  s.updAtoll a fun x => { x with lag := [] }

/-! ### Dies -/

/-- Start a die controller at M at its reset address (R383). -/
def State.startCtl (s : State) (k : Nat) : State :=
  s.updCore k fun c => { mfw := true, run := .running, pc := 0x3FFFFFF00000, ctlBody := c.ctlBody, ctlMem := c.ctlMem,
                            mchk := c.mchk, notices := c.notices, dbgDeferred := c.dbgDeferred }

/-- A die's strait ports, switched to a state with their counters reset (R314, R336). -/
def State.diePorts (s : State) (d st : Nat) : State := (s.setPort (2 * d) { state := st }).setPort (2 * d + 1) { state := st }

/-- Lanes of a causeway's eight modules that do not train, and whether lane repair makes every module whole (R292, R293). -/
def Board.badLanes (b : Board) (cw : Nat) : Nat := (List.range 8).foldl (fun n m => n + b.cwLanes.get 0 (cw * 8 + m)) 0
def Board.repairable (b : Board) (cw : Nat) : Bool :=
  (List.range 8).all fun m => decide (b.cwLanes.get 0 (cw * 8 + m) ≤ Config.spareLanes) || b.cwLanes.get 0 (cw * 8 + m) == 0

/-- The causeways of a die train, or go down with it: all eight modules of one or none, with both ends on (R293). -/
def State.dieCauseways (s : State) (d : Nat) (up : Bool) : State :=
  [0, 1, 2].foldl (fun s j =>
    let cw := causewayOf d j
    let trains := up && ((causewayEnds cw).all fun e => e.1 == d || (s.die e.1).powered) && s.board.repairable cw
    s.updBoard fun b => { b with
      causeway := b.causeway.set false cw trains
      cwRepaired := if trains then b.cwRepaired.set 0 cw (b.badLanes cw) else b.cwRepaired }) s

/-- Injections that waited at the causeways of a die take effect where these carry flits now (R414). -/
def State.dieArmed (s : State) (d : Nat) : State := [0, 1, 2].foldl (fun s j => s.causewayArmed (causewayOf d j)) s

/-- The bytes of a die's DRAM are lost. -/
def State.dramLost (s : State) (d : Nat) : State :=
  let out := fun (a : Nat) => a / dieWindow != d
  { s with dram := { bytes := s.dram.bytes.filter fun e => out e.1, ecc := s.dram.ecc.filter fun e => out (e.1 * 128) } }

/-- What a compute die keeps while its core domain is off: meters, the atoll map and its offline marks, and its modules. -/
def Die.kept (x : Die) : Die :=
  { meters := x.meters, atollMap := x.atollMap, offline := x.offline, dimms := x.dimms, selfTest := x.selfTest }

/-- A die is the head die of the record it holds. -/
def State.isHead (s : State) (d : Nat) : Bool :=
  !(s.eng d).cfg.isEmpty && (treeRec (s.eng d).cfg).head % 4 == d

/-- Every atoll, the strait engine and the ports of a die switch off; the head die's engine loses the snapshot registers. -/
def State.dieParts (s : State) (d : Nat) : State :=
  let s := (List.range 9).foldl (fun s p => if (s.atoll (d * 9 + p)).powered then s.atollOff d p else s) s
  let s := if s.snap.headDie == d then { s with snap := {}, restore := none } else s
  let s := ((s.diePorts d 0).dropArmed d fun _ => true).dropDomains [12 * d + 9, 12 * d + 10, 12 * d + 11]
  (s.setCore (592 + d) {}).dieCauseways d false

/-- P4 and emergency off on a die: everything is lost but what the service domain holds (R402, R403, R427). -/
def State.dieOff (s : State) (d : Nat) : State :=
  let s := (s.dieParts d).dropDomains [51 + d]
  ((s.setDie d (s.die d).kept).setPunit d {}).dramLost d

/-- Entry to P3: lagoons are written back, the modules enter self-refresh, the domains switch off (R402), and the controller's
registers with them (R13, R375). -/
def State.dieRetain (s : State) (d : Nat) : State :=
  let s := (List.range 9).foldl (fun s p => if (s.atoll (d * 9 + p)).powered then s.lagoonOut (d * 9 + p) else s) s
  let s := s.dieParts d
  (s.updPunit d fun u => { u with promo := [], ageLimit := [] }).updDie d fun x => { x.kept with
    retain := true, dimmOn := true, trained := x.trained, zeroed := x.zeroed, ctr := x.ctr, dramCap := x.dramCap
    bin := x.bin, taskState := x.taskState, image := x.image }

/-- The rails of both OSFP cages of a die are good, so that its strait SerDes group can be on (R425). -/
def Board.osfpGood (b : Board) (d : Nat) : Bool := !b.osfpFailed.get false (2 * d) && !b.osfpFailed.get false (2 * d + 1)

/-- The strait SerDes group of a die switches off: its ports are OFF, what is armed there is dropped (R314, R336, R403, R413). -/
def State.serdesOff (s : State) (d : Nat) : State :=
  let s := (s.dropArmed d fun a => decide (0x0401 ≤ a.num ∧ a.num ≤ 0x0405)).dropDomains [12 * d + 11]
  (s.updDie d fun x => { x with serdes := false }).diePorts d 0

/-- The domains of a die come on: core, DDR PHY, strait SerDes, with the ports DOWN and the causeways trained (R293, R402,
R425, R430). -/
def State.dieDomains (s : State) (d : Nat) : State :=
  let on := s.board.osfpGood d
  let s := s.updDie d fun x => { x with powered := true, phy := true, serdes := on, dimmOn := true }
  let s := s.updBoard fun b => { b with cwRetry := [0, 1, 2].foldl (fun m j => m.set 0 (d * 3 + j) 0) b.cwRetry }
  ((s.diePorts d (b2n on)).dieCauseways d true).dieArmed d

/-! ### ABORT and JOB_HANDOFF (R335, R382, R387) -/

/-- ABORT of the whole die reaches its engine: the ACTIVE snapshot is abandoned, SNAPLOCAL cleared on the head die (R335, R346,
R356). -/
def State.abortEngine (s : State) (d : Nat) : State :=
  let s := if s.snap.headDie == d then
      { (s.snapAbandon s.snapRec).updSnap (fun n => { n with localCnt := 0 }) with restore := none }
    else s
  s.engineReset d

/-- Parked TASK packets that ABORT ends (R382). -/
def PUnit.abortParked (u : PUnit) (whole : Bool) (mask : Nat) : PUnit :=
  let r := u.ring 1
  match r.parked with
  | some p =>
    if whole || p.mask &&& mask != 0 then
      u.setRing 1 { r with parked := some { p with ready := true, status := 0x12, results := [] } }
    else u
  | none => u

/-- ABORT on the logical atolls of a mask, or on the whole die (R382). -/
def State.abortDie (s : State) (d : Nat) (whole : Bool) (mask : Nat) : State :=
  let sel := (List.range 8).filter fun k => whole || mask.testBit k
  let s := sel.foldl (fun s k =>
    let p := (s.die d).position k
    if (s.atoll (d * 9 + p)).powered then s.atollAbort d p else s) s
  let s := if whole then (s.abortEngine d).dropArmed d fun _ => true else s.dropArmed d (armedIn mask)
  let s := s.updDie d fun x => { x with
    drained := sel.foldl (fun n k => setBit n k false) x.drained
    draining := sel.foldl (fun n k => setBit n k false) x.draining
    running := sel.foldl (fun n k => setBit n k false) x.running
    taskState := if x.image.isSome then 1 else 0 }
  s.updPunit d fun u => u.abortParked whole mask

/-- JOB_HANDOFF on this die resets the snapshot registers: its engine holds them (R356). -/
def State.holdsSnap (s : State) (d : Nat) : Bool := s.snap.headDie == d

/-- The registers that JOB_HANDOFF resets beside what ABORT resets (R286, R291, R356, R375). `snap`: also the snapshot's. -/
def State.handoffRegs (s : State) (d : Nat) (snap : Bool) : State :=
  let s := if snap then { s with snap := {} } else s
  (s.updDie d fun x => { x with ddrPromo := [], meshPromo := [] }).updPunit d fun u => { u with promo := [] }

end Sys2Proof.Machine
end

