-- ==== Sys2Proof/Machine/Command.lean ====
section
/-! DEFINITION. The command interface: directory, rings, doorbells, packets and replies (R363 to R376), and the packet's checks
(R370). -/

namespace Sys2Proof.Machine
open Sys2Proof

/-! ### Units -/

def unitPlace (u : Nat) : Place := if u < 4 then ⟨u, dieCtlStop⟩ else mainlandPlace

/-- Mesh class of a unit's accesses: CONTROL for die-controller command traffic, DEMAND for the service core (R289). -/
def cmdMesh (u : Nat) : Nat := if u < 4 then 0 else 1

/-- A unit reads and writes physical memory (R284, R289). -/
def State.unitRead (s : State) (u pa n : Nat) : List Byte × PhysErr × State := s.agentRead u true (unitPlace u) pa n 0 (cmdMesh u)
def State.unitWrite (s : State) (u pa : Nat) (bytes : List Byte) : State := s.physWrite (unitPlace u) pa bytes 0 (cmdMesh u)

/-- The unit's core runs: a die controller outside P3 and P4 (R376), or the service core with its firmware. -/
def State.unitUp (s : State) (u : Nat) : Bool :=
  if u < 4 then (s.die u).up && (s.die u).ctlRunning else s.board.servicePowered && s.board.serviceFwOk

/-- The reply ring is full (R368). -/
def PUnit.replyFull (p : PUnit) : Bool :=
  decide (2 ^ p.replyLog2 ≤ (p.replyNext + 65536 - p.replyHead) % 65536)

/-- Every fetched packet has its reply. -/
def PUnit.idle (p : PUnit) : Bool := p.current.isNone && [0, 1, 2].all fun r => (p.ring r).parked.isNone

/-! ### Versions and counts that replies name -/

/-- Key of what is kept for a component: component 0 by die, the others for the board. -/
def activeKey (comp die : Nat) : Nat := if comp = 0 then die else 3 + comp
/-- The active bank of a component on a die, 0 or 1. -/
def State.activeBank (s : State) (comp die : Nat) : Nat := s.board.flash.active.get 0 (activeKey comp die)
def bankKey (comp bank : Nat) : Nat := 2 * comp + bank

/-- A field of an image's header (R391). -/
def imageField (bs : List Byte) (off n : Nat) : Nat := ofLe ((bs.drop off).take n)
/-- The image that FW_STAGE has written into a bank; none in a bank as shipped. -/
def Flash.imageOf (f : Flash) (comp bank : Nat) : List Byte := f.image.get [] (bankKey comp bank)
def Flash.written (f : Flash) (comp bank : Nat) : Bool := !(f.imageOf comp bank).isEmpty
/-- VERSION, MINVER and body of what a bank holds (R391). -/
def Flash.versionOf (f : Flash) (comp bank : Nat) : Nat :=
  if f.written comp bank then imageField (f.imageOf comp bank) 8 2 else Config.shippedVersion comp bank % 65536
def Flash.minverOf (f : Flash) (comp bank : Nat) : Nat :=
  if f.written comp bank then imageField (f.imageOf comp bank) 10 2 else Config.shippedMinver comp bank % 65536
def Flash.bodyOf (f : Flash) (comp bank : Nat) : List Byte :=
  if f.written comp bank then ((f.imageOf comp bank).drop 64).take (imageField (f.imageOf comp bank) 12 4)
  else Config.shippedBody comp bank
def Flash.digestOf (f : Flash) (comp bank : Nat) : List Byte := sha256 (f.bodyOf comp bank)

/-- The version that a component runs with, and that of a unit's firmware (R378, R385). -/
def State.runningVersion (s : State) (comp die : Nat) : Nat := s.board.runVersion.get 0 (activeKey comp die)
def State.fwVersion (s : State) (u : Nat) : Nat := if u < 4 then s.runningVersion 0 u else s.runningVersion 1 0

/-! ### Replies (R371) -/

/-- The bytes of a reply. -/
def replyBytes (opc seq status u ring : Nat) (phase : Bool) (slot : Nat) (res : List W64) : List Byte :=
  let a := leBytes 2 opc ++ leBytes 2 seq ++ leBytes 2 status ++ leBytes 2 res.length ++ leBytes 1 u ++ leBytes 1 ring
    ++ leBytes 1 (b2n phase) ++ List.replicate 5 0
  let z := leBytes 4 0 ++ leBytes 8 slot
  let body := res.flatMap fun w => leBytes 8 w.toNat
  a ++ leBytes 4 (crc32c (a ++ leBytes 4 0 ++ z ++ body)) ++ z ++ body

/-- A refusal that detector 0x0607 records: OPC, SEQ and STATUS in DATA0, the ring in DATA1 (R367, R409, R416). -/
def State.refusedEntry (s : State) (u loc opc seq status ring : Nat) : State :=
  s.detect u { code := 0x0607, sev := 0, loc := loc, data0 := w64 (opc + seq * 65536 + status * 2 ^ 32), data1 := w64 ring }

/-- Write a reply into the next slot; PHASE flips each time the ring wraps (R371). -/
def State.writeReply (s : State) (u opc seq status ring slot : Nat) (res : List W64) : State :=
  let p := s.punit u
  if !p.ready then s else
  let i := p.replyNext % 2 ^ p.replyLog2
  let s := s.unitWrite u (p.replyBase + 1024 * i) (replyBytes opc seq status u ring p.phase slot res)
  let s := s.updPunit u fun p => { p with
    replyNext := (p.replyNext + 1) % 65536, phase := if i + 1 = 2 ^ p.replyLog2 then !p.phase else p.phase }
  if 1 ≤ status ∧ status ≤ 6 then s.refusedEntry u u opc seq status ring else s

/-! ### The directory and the boot reply (R364, R366, R385) -/

/-- Causeways of a die that are up, as bits CA, CB, CH. -/
def State.cwBits (s : State) (d : Nat) : Nat :=
  [0, 1, 2].foldl (fun n j => n + (if s.board.causeway.get false (causewayOf d j) then 2 ^ j else 0)) 0

/-- The boot reply's status and results (R385). -/
def State.bootReply (s : State) (u : Nat) : Nat × List W64 :=
  if u < 4 then
    let d := s.die u
    let repaired := [0, 1, 2].foldl (fun n j => n + s.board.cwRepaired.get 0 (causewayOf u j)) 0
    let at8 := ((List.range 8).find? fun k => d.position k == 8).getD 15
    (if d.dimmFault ≠ 0 ∨ s.cwBits u ≠ 7 then 0x40 else 0,
     [w64 (s.fwVersion u),
      w64 (d.sockets % 256 + d.dramCap % 4 * 256 + d.bin % 4 * 1024 + d.dimmFault % 16 * 4096),
      w64 (s.cwBits u + repaired % 256 * 256), w64 (d.selfTest % 512 + at8 * 65536)])
  else
    let ctl := [0, 1, 2, 3].foldl (fun n d => n + (if (s.die d).ctlRunning then 2 ^ d else 0)) 0
    (0, [w64 (s.fwVersion 4), w64 s.board.security, w64 (s.runningVersion 3 0), w64 ctl])

/-- A ring as the directory describes it. -/
def dirRing (w0 w1 : Nat) : Ring :=
  let l := w1 % 16
  { present := decide (4 ≤ l ∧ l ≤ 12), base := bitsOf w0 45 0, log2 := l }

/-- The unit reads its entries, sets every index to 0 and PHASE to 1, and writes its boot reply. A unit without a reply ring
takes no packets (R364, R366). -/
def State.readDir (s : State) (u dir : Nat) : State :=
  let (bs, e, s) := s.unitRead u (dir + 64 * u) 64
  let w := fun i => if e == .none then ofLe ((bs.drop (8 * i)).take 8) else 0
  let r := fun k => dirRing (w (2 * k)) (w (2 * k + 1))
  let s := s.updPunit u fun p => { p with
    rings := [0, 1, 2].foldl (fun m k => m.set {} k (r k)) [], replyPresent := (r 3).present, replyBase := (r 3).base
    replyLog2 := (r 3).log2, replyHead := 0, replyNext := 0, phase := true, dirPending := none, dir := dir
    ready := (r 3).present, current := none }
  if (r 3).present then
    let (st, res) := s.bootReply u
    (s.writeReply u 0 0 st 0 0 res).updPunit u fun p => { p with bootFault := st }
  else s

/-- A directory read that waits is made once every fetched packet has its reply (R366). -/
def State.tryDir (s : State) (u : Nat) : State :=
  match (s.punit u).dirPending with
  | some d => if (s.punit u).idle && s.unitUp u then s.readDir u d else s
  | none => s

/-- CMDDIR is written: each unit that runs reads the directory, at once or when it has replied to what it has fetched. -/
def State.cmddir (s : State) (v : W64) : State :=
  let dir := v.toNat % 2 ^ 46 / 4096 * 4096
  let s := s.updBoard fun b => { b with cmddir := dir }
  [0, 1, 2, 3, 4].foldl (fun s u => (s.updPunit u fun p => { p with dirPending := some dir }).tryDir u) s

/-! ### Doorbells (R367, R368) -/

/-- CMDDB is written. -/
def State.doorbell (s : State) (v : W64) : State :=
  let u := v.toNat % 16
  let r := bitsOf v.toNat 5 4
  let i := bitsOf v.toNat 47 32
  if 4 < u then s.refusedEntry 4 u 0 0 3 r
  else
    let p := s.punit u
    if !p.ready then s
    else if r = 3 then
      let held := (p.replyNext + 65536 - p.replyHead) % 65536
      let d := (i + 65536 - p.replyHead) % 65536
      let n := if d ≤ held then d else d % 2 ^ p.replyLog2
      if n ≤ held then s.setPunit u { p with replyHead := (p.replyHead + n) % 65536 } else s
    else
      let x := p.ring r
      if !x.present || x.tail == i then s
      else if 2 ^ x.log2 < (x.tail + 65536 - x.replied) % 65536 + (i + 65536 - x.tail) % 65536 then
        if p.replyFull || !s.unitUp u then s.refusedEntry u u 0 0 6 r else s.writeReply u 0 0 6 r 0 []
      else s.setPunit u (p.setRing r { x with tail := i })

/-! ### Packets and their checks (R369, R370) -/

/-- Opcodes that a unit serves, with the ring they arrive on (3: any) (R363, R378). -/
def served (opc u ring comp : Nat) : Bool :=
  let die := decide (u < 4)
  let on := fun r => ring == r
  if opc = 0x01 then true
  else if opc = 0x10 ∨ opc = 0x11 ∨ opc = 0x12 ∨ opc = 0x40 ∨ opc = 0x42 ∨ opc = 0x50 ∨ opc = 0x51 ∨ opc = 0x52 then die && on 1
  else if opc = 0x13 then die && on 0
  else if opc = 0x20 ∨ opc = 0x21 ∨ opc = 0x22 ∨ opc = 0x41 then die && on 2
  else if opc = 0x30 ∨ opc = 0x70 ∨ opc = 0x71 then !die && on 2
  else if opc = 0x31 then on 2 && (decide (3 < comp) || (die == (comp == 0)))
  else if opc = 0x60 ∨ opc = 0x61 ∨ opc = 0x80 then on 2
  else if opc = 0x62 ∨ opc = 0x90 then on 0
  else if opc = 0xA0 then on (if die then 1 else 0)
  else false

/-- LEN that the opcode table allows (R378). -/
def lenAllowed (opc u len : Nat) : Bool :=
  match opc with
  | 0x01 => true
  | 0x10 | 0x11 | 0x60 | 0x61 => len == 2
  | 0x12 | 0x20 | 0x22 | 0x31 | 0x41 | 0x62 | 0x80 => len == 1
  | 0x13 => decide (len ≤ 1)
  | 0x21 | 0x51 | 0x90 => len == 0
  | 0x30 | 0x71 => len == 3
  | 0x40 => len == 7
  | 0x42 => len == 16
  | 0x50 => len == 8
  | 0x52 => len == 4
  | 0x70 => len == 5
  | 0xA0 => len == (if u < 4 then 3 else 0)
  | _ => false

/-- Bits of parameter word i that an opcode does not name (R378). -/
def reservedBits (opc i : Nat) : Nat :=
  let only := fun m => 2 ^ 64 - 1 - m
  if opc = 0x11 ∧ i = 0 then only 0xFFFF00FF
  else if (opc = 0x12 ∨ opc = 0x13) ∧ i = 0 then only 0xFF
  else if (opc = 0x20 ∨ opc = 0x22 ∨ opc = 0x62) ∧ i = 0 then only 1
  else if opc = 0x30 ∧ i = 2 then only 15
  else if opc = 0x31 ∧ i = 0 then only 31
  else if opc = 0x41 ∧ i = 0 then only 7
  else if opc = 0x42 then only 0x7FFFF0007FFFF
  else if opc = 0x60 ∧ i = 0 then only 0xFFFF
  else if opc = 0x61 ∧ i = 0 then only 0xFFFFFFFF
  else if (opc = 0x61 ∧ i = 1) ∨ (opc = 0x70 ∧ i = 4) then only (2 ^ 46 - 1)
  else if opc = 0x71 ∧ i = 0 then only 1
  else if opc = 0x80 ∧ i = 0 then only 0xFF0307
  else if opc = 0xA0 ∧ i = 0 then only 1
  else 0

/-- Checks 1 to 7 of R370, in order; 0 where all pass. -/
def State.checkPacket (s : State) (u : Nat) (hd : List Byte) (p : Packet) (crcOk : Bool) : Nat :=
  let f := fun (o n : Nat) => ofLe ((hd.drop o).take n)
  let at_ := bitsOf p.target 7 4
  let wantsAtoll := decide (0x20 ≤ p.opc ∧ p.opc ≤ 0x22)
  if 28 < p.len then 2
  else if !crcOk then 1
  else if p.target % 16 ≠ u ∨ (if wantsAtoll then 7 < at_ else at_ ≠ 15) then 3
  else if !served p.opc u p.ring ((p.params.headD 0).toNat % 16) then 4
  else if (p.opc = 0x60 ∧ s.board.security = 0) ∨ (p.opc = 0x70 ∧ s.board.security = 2) then 0x30
  else if !lenAllowed p.opc u p.len then 2
  else if p.target / 256 ≠ 0 ∨ p.flags &&& 0xFF0E ≠ 0 ∨ f 10 6 ≠ 0 ∨ f 20 12 ≠ 0
      ∨ p.params.zipIdx.any (fun w => w.1.toNat &&& reservedBits p.opc w.2 != 0) then 5
  else 0

/-- The packet in a command slot of 256 bytes, and whether its CRC matches. -/
def packetOf (bs : List Byte) (ring slot : Nat) : Packet × Bool :=
  let f := fun (o n : Nat) => ofLe ((bs.drop o).take n)
  let len := f 4 2
  let ps := (bs.drop 32).take (8 * len)
  let crc := crc32c (bs.take 16 ++ leBytes 4 0 ++ (bs.drop 20).take 12 ++ ps)
  ({ opc := f 0 2, seq := f 2 2, len := len, target := f 6 2, flags := f 8 2, params := wordsOf ps, ring := ring, slot := slot },
   crc == f 16 4)

/-- A packet's reply, its NOTICE, and its slot is free (R371). -/
def State.replyPacket (s : State) (u : Nat) (p : Packet) (status : Nat) (res : List W64) : State :=
  let s := s.writeReply u p.opc p.seq status p.ring p.slot res
  let s := s.updPunit u fun q =>
    let x := q.ring p.ring
    q.setRing p.ring { x with replied := (x.replied + 1) % 65536 }
  if p.flags.testBit 0 then s.notice (mainland0 + bitsOf p.flags 7 4) (0x0200 + u) else s

/-- The packet that the unit runs is done. -/
def State.finishPacket (s : State) (u : Nat) (p : Packet) (status : Nat) (res : List W64) : State :=
  ((s.replyPacket u p status res).updPunit u fun q => { q with current := none }).tryDir u

/-- The unit chooses a ring, fetches the oldest packet of it and checks it: a packet that fails gets its reply, another waits
for its effect (R370, R374). -/
def State.startPacket (s : State) (u : Nat) : State :=
  let p := s.punit u
  if s.unitUp u && p.ready && p.current.isNone && p.dirPending.isNone && !p.replyFull then
    match p.arbiter.grant p.limit (fun _ => 1) [0] [1, 2] 1 with
    | none => s
    | some g =>
      let x := p.ring g.cls
      let slot := x.fetched % 2 ^ x.log2
      let promo := if g.promoted then p.promo.set 0 g.cls (satAdd (p.promo.get 0 g.cls) 1 0xFFFFFFFF) else p.promo
      let q := { p.setRing g.cls { x with fetched := (x.fetched + 1) % 65536 } with
        arb := { g.arb with waiting := [] }, promo := promo }
      let s := s.setPunit u q
      let (bs, e, s) := s.unitRead u (x.base + 256 * slot) 256
      let (pk, ok) := packetOf bs g.cls slot
      match s.checkPacket u bs pk (ok && e == .none) with
      | 0 => s.updPunit u fun q => { q with current := some pk }
      | st => s.finishPacket u pk st []
  else s

/-- UNIT_START_PACKET (R374). -/
def execUnitStartPacket (u : Fin 5) (s : State) : Host.Outcome State Fault Refusal := .next (s.startPacket u)

/-- A waiting ring's age reaches CQAGE.r.LIMIT (R374). -/
def execCqAgeLimit (u : Fin 5) (ring : Fin 3) (s : State) : Host.Outcome State Fault Refusal :=
  .next (s.updPunit u fun p => { p with arb := { p.arbiter.reachLimit p.limit [0, 1, 2] ring.val with waiting := [] } })

/-! ### The effect of a packet's opcode -/

/-- The packet that a unit has started, where it is of an opcode and its reply has a slot. -/
def State.packetOf? (s : State) (u opc : Nat) : Option Packet :=
  if s.unitUp u && !(s.punit u).replyFull then (s.punit u).current.filter fun p => p.opc == opc else none

/-- Word i of a packet. -/
def Packet.w (p : Packet) (i : Nat) : Nat := (p.params.getD i 0).toNat
/-- The logical atoll that a packet names. -/
def Packet.atoll (p : Packet) : Nat := bitsOf p.target 7 4

/-- Run an opcode whose reply follows at once. -/
def opNow (u : Fin 5) (opc : Nat) (g : Packet → State → Nat × List W64 × State) (s : State) : Host.Outcome State Fault Refusal :=
  match s.packetOf? u opc with
  | none => .next s
  | some p =>
    let (st, res, s) := g p s
    .next (s.finishPacket u p st res)

/-- Park the packet: it waits for an event or, `ready`, only for its reply (R373). -/
def State.park (s : State) (u : Nat) (x : Parked) : State :=
  s.updPunit u fun q =>
    { q.setRing x.pkt.ring { q.ring x.pkt.ring with parked := some x } with current := none }

/-- Run an opcode that parks: it answers a status other than 0 where it is refused. -/
def opPark (u : Fin 5) (opc : Nat) (g : Packet → State → Nat × Parked × State) (s : State) : Host.Outcome State Fault Refusal :=
  match s.packetOf? u opc with
  | none => .next s
  | some p =>
    let (st, x, s) := g p s
    .next (if st = 0 then s.park u x else s.finishPacket u p st [])

/-- A parked packet whose effect is still to come. -/
def Packet.waiting (p : Packet) (mask : Nat) : Parked := { pkt := p, ready := false, status := 0, results := [], mask := mask }
/-- A parked packet that only waits for its reply. -/
def Packet.done (p : Packet) (status : Nat) (res : List W64) : Parked :=
  { pkt := p, ready := true, status := status, results := res, mask := 0 }

/-- The ring's parked packet replies. -/
def State.unpark (s : State) (u ring status : Nat) (res : List W64) : State :=
  let q := s.punit u
  match (q.ring ring).parked with
  | none => s
  | some x =>
    let s := s.setPunit u (q.setRing ring { q.ring ring with parked := none })
    (s.replyPacket u x.pkt status res).tryDir u

end Sys2Proof.Machine
end

