-- ==== Sys2Proof/Machine/Sys.lean ====
section
/-! DEFINITION. System registers: which numbers a core has, the field masks, reading and writing (R11, R48 to R50), and SRR, SRW,
SRSET and SRCLR, with the rows of the opcode table that name one register each. -/

namespace Sys2Proof.Machine
open Sys2Proof

/-! ### Numbers (R48) -/

/-- Kinds of cores that have a register: 0 every core, 1 compute, 2 with a vector engine, 3 compute and general, 4 compute and die
controller, 5 general, 6 controllers (DEDUCED: notes/assumptions/12). -/
def sysKind (kind k : Nat) : Bool :=
  if kind = 0 then true
  else if kind = 1 then isCompute k
  else if kind = 2 then hasVector k
  else if kind = 3 then isCompute k || isGeneral k
  else if kind = 4 then isCompute k || decide (592 ≤ k ∧ k < 596)
  else if kind = 5 then isGeneral k
  else isCtl k

/-- First and last number and the kind of core that has them. -/
def sysRanges : List (Nat × Nat × Nat) := [
  (0x040, 0x040, 0), (0x041, 0x041, 1), (0x042, 0x042, 0), (0x050, 0x057, 0), (0x060, 0x061, 0), (0x070, 0x071, 2),
  (0x074, 0x074, 2), (0x078, 0x07B, 2), (0x080, 0x08F, 2), (0x090, 0x097, 2), (0x0A0, 0x0BF, 1), (0x0C0, 0x0EB, 1),
  (0x100, 0x102, 0), (0x104, 0x106, 0), (0x110, 0x118, 0), (0x120, 0x129, 3), (0x142, 0x142, 0), (0x150, 0x151, 1),
  (0x300, 0x301, 0), (0x310, 0x317, 1), (0x318, 0x318, 3), (0x510, 0x510, 0), (0x520, 0x521, 0), (0x540, 0x540, 0)]

/-- The numbers from 0x541. -/
def sysRangesHigh : List (Nat × Nat × Nat) := [
  (0x541, 0x541, 1), (0x544, 0x545, 0), (0x550, 0x557, 0), (0x570, 0x571, 5), (0x580, 0x586, 4), (0x590, 0x591, 0),
  (0x600, 0x600, 4), (0x610, 0x614, 4), (0x620, 0x620, 4), (0x628, 0x62D, 4), (0x64E, 0x64E, 4), (0x690, 0x690, 0),
  (0x718, 0x71C, 4), (0x730, 0x735, 4), (0x738, 0x73A, 4), (0x740, 0x741, 4), (0x744, 0x746, 4), (0x748, 0x74A, 4),
  (0x750, 0x754, 4), (0x772, 0x772, 5), (0x773, 0x773, 0), (0x774, 0x774, 4), (0x775, 0x775, 0), (0xA20, 0xA20, 0),
  (0xA40, 0xA40, 0), (0xA42, 0xA42, 0), (0xA50, 0xA57, 0), (0xA60, 0xA62, 6), (0xB68, 0xB6A, 6), (0xB70, 0xB70, 0)]

/-- A register stands behind a number on a core. -/
def sysPresent (k n : Nat) : Bool := (sysRanges ++ sysRangesHigh).any fun r => decide (r.1 ≤ n ∧ n ≤ r.2.1) && sysKind r.2.2 k

/-- Lowest level that may read a number, and that may write it; 3 is read-only (R48). -/
def sysReadLevel (n : Nat) : Nat := bitsOf n 11 10
def sysWriteLevel (n : Nat) : Nat := bitsOf n 9 8

/-! ### Fields -/

/-- Bits [hi:lo]. -/
def fieldMask (hi lo : Nat) : Nat := 2 ^ (hi + 1) - 2 ^ lo

def allBits : Nat := 2 ^ 64 - 1

/-- RW bits of a save register, by its place in the set (R78, R80, R90). -/
def rwSave (i : Nat) : Nat :=
  if i = 0 then fieldMask 63 2
  else if i = 1 then fieldMask 7 4
  else if i = 2 then fieldMask 63 62 + fieldMask 47 32 + fieldMask 7 0
  else if i = 4 ∨ i = 5 then fieldMask 63 48 + fieldMask 31 0
  else allBits

/-- RW bits of a number that U or S code writes (R11). -/
def rwLow (n : Nat) : Nat :=
  if n = 0x040 then fieldMask 7 6
  else if 0x050 ≤ n ∧ n ≤ 0x057 then rwSave (n - 0x050)
  else if n = 0x060 ∨ n = 0x061 then fieldMask 63 48 + fieldMask 31 0
  else if n = 0x070 then fieldMask 16 0
  else if n = 0x071 then fieldMask 21 16 + fieldMask 13 8 + fieldMask 7 6
  else if n = 0x074 then fieldMask 6 4 + fieldMask 1 0
  else if 0x078 ≤ n ∧ n ≤ 0x07B then fieldMask 31 0
  else if 0x080 ≤ n ∧ n ≤ 0x097 then fieldMask 27 16 + fieldMask 11 0
  else if n = 0x0E9 then fieldMask 47 16 + fieldMask 7 0
  else if n = 0x100 ∨ n = 0x101 ∨ n = 0x104 ∨ n = 0x105 then fieldMask 63 2
  else if n = 0x102 ∨ n = 0x106 then fieldMask 63 63 + fieldMask 31 0
  else if 0x110 ≤ n ∧ n ≤ 0x117 then
    (if n % 2 = 0 then fieldMask 56 16 else fieldMask 15 10 + fieldMask 9 9 + fieldMask 7 6 + fieldMask 3 0)
  else if n = 0x118 then 1
  else if 0x120 ≤ n ∧ n ≤ 0x127 then
    (if n % 2 = 0 then fieldMask 45 19 else fieldMask 15 10 + fieldMask 9 9 + fieldMask 7 6 + fieldMask 5 0)
  else if n = 0x128 then fieldMask 8 8 + fieldMask 3 0
  else if n = 0x142 then fieldMask 4 4
  else if n = 0x150 then fieldMask 15 0
  else if n = 0x151 then fieldMask 31 0
  else 0

/-- RW bits of a number from 0x500 (R11). -/
def rwHigh (n : Nat) : Nat :=
  if n = 0x510 then allBits
  else if n = 0x520 ∨ n = 0x521 ∨ n = 0xA20 then fieldMask 63 13
  else if n = 0x540 ∨ n = 0xA40 then fieldMask 63 63 + fieldMask 24 0
  else if n = 0x541 then fieldMask 13 0
  else if 0x550 ≤ n ∧ n ≤ 0x557 then rwSave (n - 0x550)
  else if n = 0x570 then fieldMask 45 12
  else if n = 0x581 ∨ n = 0x583 ∨ n = 0x584 then fieldMask 31 0
  else if n = 0x586 then fieldMask 47 0
  else if n = 0x590 then fieldMask 15 0
  else if n = 0x591 then fieldMask 63 16
  else if n = 0x600 then fieldMask 39 36 + fieldMask 27 12
  else if (0x610 ≤ n ∧ n ≤ 0x614) ∨ n = 0x620 ∨ (0x628 ≤ n ∧ n ≤ 0x62D) then fieldMask 19 0
  else if n = 0x64E then fieldMask 15 0
  else if n = 0x690 then fieldMask 63 32 + fieldMask 15 0
  else if n = 0xA42 then fieldMask 5 5
  else if 0xA50 ≤ n ∧ n ≤ 0xA57 then rwSave (n - 0xA50)
  else if 0xA60 ≤ n ∧ n ≤ 0xA62 then fieldMask 19 0
  else 0

/-- RW bits of a number. -/
def rwBits (n : Nat) : W64 := w64 (if n < 0x500 then rwLow n else rwHigh n)

/-- Bits that a write of 1 clears (R11). -/
def w1cBits (n : Nat) : W64 :=
  w64 (if n = 0x040 ∨ n = 0x071 then fieldMask 5 0
    else if n = 0x041 then fieldMask 16 16
    else if n = 0x042 then fieldMask 2 0
    else if 0x0A0 ≤ n ∧ n ≤ 0x0BF ∧ n % 4 = 0 then fieldMask 38 38 + fieldMask 21 16
    else if n = 0x0E8 then fieldMask 37 32
    else if n = 0x129 ∨ n = 0x591 then 1
    else if n = 0x582 then fieldMask 11 11 + fieldMask 9 8 + fieldMask 5 0
    else if n = 0x585 then fieldMask 4 0
    else 0)

/-- A number whose fields are WO: a write acts, and it reads 0 (R11). -/
def isWO (n : Nat) : Bool := n == 0x544 || n == 0x571 || n == 0x580

/-! ### Reading -/

/-- Detectors of a unit (R409): a die's; and the service core's, with those of the mainland cores and of what they reach, which unit 4
counts. A refused packet, Boot and Recorder gap have an entry on every ring. -/
def detectorNo (u n : Nat) : Bool :=
  n == 0x607 || n == 0x706 || n == 0x707 ||
  if u < 4 then
    decide ((0x101 ≤ n ∧ n ≤ 0x109) ∨ n = 0x110 ∨ n = 0x111 ∨ (0x201 ≤ n ∧ n ≤ 0x203) ∨ (0x301 ≤ n ∧ n ≤ 0x30B)
      ∨ (0x401 ≤ n ∧ n ≤ 0x408) ∨ (0x500 ≤ n ∧ n ≤ 0x504))
  else decide ((0x601 ≤ n ∧ n ≤ 0x60A) ∨ (0x701 ≤ n ∧ n ≤ 0x705) ∨ (0x101 ≤ n ∧ n ≤ 0x104) ∨ n = 0x109 ∨ n = 0x110
    ∨ n = 0x111 ∨ (0x201 ≤ n ∧ n ≤ 0x203) ∨ n = 0x304 ∨ n = 0x308 ∨ n = 0x309)

/-- CORE.ID (R50). -/
def State.coreId (s : State) (k : Nat) : W64 :=
  let a := (s.lcoreOf k) % 128 / 16
  w64 (b2n (isGeneral k || k == 596) * 2 ^ 31 + b2n (isCtl k) * 2 ^ 30 + s.lcoreOf k * 2 ^ 16
    + (if isCompute k then posOfKey k * 2 ^ 12 else 0) + dieOfKey k * 2 ^ 8 + a * 16 + coreInAtoll k)

/-- SSTAT of a stream unit (R159). -/
def Core.sstat (c : Core) (i : Nat) : W64 :=
  let u := c.unit i
  w64 (u.credits % 4096 * 2 ^ 52 + u.level.code * 2 ^ 46 + u.cls % 8 * 2 ^ 43 + u.state % 8 * 2 ^ 40 + b2n (c.waitcr i) * 2 ^ 39
    + b2n u.crovf * 2 ^ 38 + b2n u.fdir * 2 ^ 37 + u.fcause % 16 * 2 ^ 28 + u.flags.toNat * 2 ^ 16 + u.target % 16)

/-- SSTAT, SPOS, SFADDR or SFILL by its number (R159). -/
def Core.streamReg (c : Core) (n : Nat) : W64 :=
  let i := (n - 0x0A0) / 4
  let u := c.unit i
  match n % 4 with
  | 0 => c.sstat i
  | 1 => w64 (u.iter % 2 ^ 16 * 2 ^ 48 + u.index % 2 ^ 48)
  | 2 => u.sfaddr
  | _ => w64 u.sfill

/-- TCFG or WSTAT of a tile register (R164, R165). -/
def Core.tileReg (c : Core) (code : Nat) : W64 :=
  let t := c.tile code
  let z := isZ code
  let dead := !isW code && t.rows == 0
  w64 ((if dead then 0 else t.st) * 2 ^ 28 + b2n t.poison * 2 ^ 27 + (if z then 0 else t.fmt % 32) * 2 ^ 16
    + t.writer % 16 * 2 ^ 12 + (if isW code then 0 else t.rows % 512))

/-- MXSTAT (R165). -/
def Core.mxstat (c : Core) : W64 :=
  let reqs := fun (arr : Nat) => match c.group arr with
    | some g => g.reqs.length
    | none => 0
  let busy := fun (arr : Nat) => b2n (c.bg.any fun o => o.queues.contains arr)
  w64 (c.mxflags.toNat * 2 ^ 32 + c.cells1.cls * 2 ^ 26 + c.cells0.cls * 2 ^ 24 + reqs 1 % 16 * 2 ^ 20 + reqs 0 % 16 * 2 ^ 16
    + c.queued 1 % 16 * 2 ^ 12 + c.queued 0 % 16 * 2 ^ 8 + b2n (c.bg.any BgOp.isTmov) * 4 + busy 1 * 2 + busy 0)

/-- BSTAT (R221); a ZDRAIN's wave is one command, so DSH reads 0 (DESIGN CHOICE: notes/assumptions/13). -/
def Core.bstat (c : Core) (k : Nat) : W64 :=
  w64 (min c.atok 0xFFFFFFFF * 2 ^ 32 + b2n (gradientHolding k) * 256 + b2n c.apois * 64 + b2n c.shadow.isSome * 32
    + b2n c.transp0 * 16 + b2n c.mode1)

/-- A number 0x040 to 0x0EB. -/
def State.readU (s : State) (k n : Nat) : W64 :=
  let c := s.core k
  if n = 0x041 then (c.sr n &&& w64 (2 ^ 16)) ||| w64 c.nonEmpty
  else if 0x0A0 ≤ n ∧ n ≤ 0x0BF then c.streamReg n
  else if 0x0C0 ≤ n ∧ n ≤ 0x0E7 then c.tileReg (n - 0x0C0)
  else if n = 0x0E8 then c.mxstat
  else if n = 0x0EA then c.bstat k
  else if n = 0x0EB then c.gbpois
  else c.sr n

/-- DRANGE of an entry (R258). -/
def Atoll.drange (a : Atoll) (i : Nat) : W64 :=
  let e := a.deadr.get {} i
  if e.valid then w64 (2 ^ 63 + e.region % 2 ^ 22 * 2 ^ 24 + e.bits.length % 2 ^ 18) else 0

/-- LAGOCC (R245). -/
def Atoll.lagocc (a : Atoll) : W64 :=
  let ls := a.lag.filter fun e => e.2.valid
  let n := fun (st : Nat) => (ls.filter fun e => e.2.st == st).length
  w64 (ls.length % 2 ^ 20 * 2 ^ 40 + n 1 % 2 ^ 20 * 2 ^ 20 + n 0 % 2 ^ 20)

/-- The key of the atoll, or of the mainland cache, whose registers a core reaches. -/
def atollKeyOf (k : Nat) : Nat := (atollOfKey k).getD 36

/-- A number 0x100 to 0x318. -/
def State.readLoop (s : State) (k n : Nat) : W64 :=
  let c := s.core k
  let a := s.atoll (atollKeyOf k)
  if 0x110 ≤ n ∧ n ≤ 0x117 ∧ n % 2 = 1 then
    c.sr n ||| w64 (b2n (demoted ([0, 1, 2, 3].map c.l1win) c.l1plan ((n - 0x110) / 2)) * 256)
  else if 0x120 ≤ n ∧ n ≤ 0x127 ∧ n % 2 = 1 then
    a.sr n ||| w64 (b2n (demoted ([0, 1, 2, 3].map a.lagwin) a.lagplan ((n - 0x120) / 2)) * 256)
  else if 0x120 ≤ n ∧ n ≤ 0x129 then a.sr n
  else if n = 0x142 then c.stWord
  else if n = 0x300 then w64 (s.ctrOf k)
  else if n = 0x301 then s.coreId k
  else if 0x310 ≤ n ∧ n ≤ 0x317 then a.drange (n - 0x310)
  else if n = 0x318 then a.lagocc
  else c.sr n

/-- STESTAT of a die (R336). -/
def State.stestat (s : State) (d : Nat) : W64 :=
  let e := s.eng d
  let r := treeRec e.cfg
  w64 (e.step % 2 ^ 32 * 2 ^ 32 + e.tepoch % 2 ^ 16 * 2 ^ 16 + s.readyBits d * 2 ^ 12 + b2n r.update * 2 ^ 11 + e.state % 8 * 2 ^ 8
    + r.mode % 4 * 16 + r.head % 8)

/-- A snapshot register (R356). -/
def State.snapReg (s : State) (n : Nat) : W64 :=
  let x := s.snap
  let pair := fun (a b : Nat) => w64 (a % 2 ^ 32 * 2 ^ 32 + b % 2 ^ 32)
  if n = 0x584 then w64 (x.localCnt % 2 ^ 32)
  else if n = 0x585 then zext64 x.flags
  else if n = 0x586 then w64 (x.rxDone % 2 ^ 48)
  else if n = 0x750 then
    w64 (x.cstep % 2 ^ 32 * 2 ^ 32 + x.status % 16 * 2 ^ 28 + b2n x.local_ * 2 ^ 19 + b2n x.leads * 2 ^ 18 + x.intervalNow % 2 ^ 16)
  else if n = 0x751 then pair x.lastSec (if x.leads then x.instSec else 0xFFFFFFFF)
  else if n = 0x752 then pair x.estA x.estB
  else if n = 0x753 then pair x.cbar x.failCnt
  else w64 (x.lastLocal % 2 ^ 32)

/-- PWRSTAT of a die (R403). -/
def State.pwrstat (s : State) (d : Nat) : W64 :=
  let x := s.die d
  let gated := (List.range 8).foldl (fun n a => n + (if (s.atoll (9 * d + x.position a)).gated then 2 ^ a else 0)) 0
  let on := (List.range 9).foldl (fun n p => n + (if (s.atoll (9 * d + p)).powered then 2 ^ p else 0)) 0
  w64 (x.p1en % 256 * 2 ^ 32 + gated * 2 ^ 24 + on * 2 ^ 8)

/-- SECSTAT (R399). -/
def State.secstat (s : State) : W64 :=
  w64 (s.board.flash.vendorEntries % 65536 * 2 ^ 32 + s.board.flash.seedIdx % 1024 * 2 ^ 12 + s.board.security % 4)

/-- RECSTAT of a unit's ring (R416). -/
def Recorder.stat (q : Recorder) : W64 :=
  let newest := if q.entries.isEmpty && q.next == 0 then 0 else (q.next + 2 ^ 32 - 1) % 2 ^ 32
  w64 (newest * 2 ^ 32 + b2n q.frozen * 2 ^ 31 + b2n q.auto * 2 ^ 30 + b2n q.copying * 2 ^ 29 + q.dropped % 2 ^ 16)

/-- CMDSTAT (R365). -/
def State.cmdstat (s : State) : W64 :=
  let bits := fun (p : PUnit → Bool) => [0, 1, 2, 3, 4].foldl (fun n u => n + (if p (s.punit u) then 2 ^ u else 0)) 0
  w64 (bits (fun p => p.ready) * 2 ^ 32 + bits fun p => p.bootFault != 0)

/-- DETCNT on a core (R410). -/
def State.detcnt (s : State) (k : Nat) : W64 :=
  let n := ((s.core k).sr 0x590).toNat
  if detectorNo (unitOfKey k) n then
    let d := s.dets.get {} (detKey (unitOfKey k) n)
    w64 (d.count % 2 ^ 32 * 2 ^ 32 + s.threshOf d n * 2 ^ 16 + b2n d.overFlag)
  else 0

/-- A die-wide number (R286, R291, R336, R356, R403). -/
def State.readDie (s : State) (d n : Nat) : W64 :=
  let x := s.die d
  if n = 0x581 then w64 (x.eng.doneCnt % 2 ^ 32)
  else if n = 0x582 then x.sr n ||| w64 (b2n s.cfgMis * 2 ^ 10)
  else if (0x584 ≤ n ∧ n ≤ 0x586) ∨ (0x750 ≤ n ∧ n ≤ 0x754) then s.snapReg n
  else if n = 0x600 then x.sr n ||| w64 (x.bin % 4 * 2 ^ 42 + Config.blobBinCap s.board.blob % 4 * 2 ^ 40 + x.dramCap % 4 * 2 ^ 32)
  else if 0x718 ≤ n ∧ n ≤ 0x71C then w64 (x.ddrPromo.get 0 (n - 0x718))
  else if 0x730 ≤ n ∧ n ≤ 0x735 then w64 (x.meshPromo.get 0 (n - 0x730))
  else if 0x738 ≤ n ∧ n ≤ 0x73A then s.cwstat d (n - 0x738)
  else if n = 0x740 then s.stestat d
  else if n = 0x741 then w64 (x.eng.pseg % 2 ^ 32 * 2 ^ 32 + x.eng.rseg % 2 ^ 32)
  else if 0x744 ≤ n ∧ n ≤ 0x74A then
    let p := s.port (2 * d + (n - 0x744) / 4)
    if n % 4 = 0 then p.stat else if n % 4 = 1 then p.fec else p.link
  else if n = 0x774 then s.pwrstat d
  else x.sr n

/-- The numbers that a die holds for all its cores. -/
def isDieNo (n : Nat) : Bool :=
  decide ((0x580 ≤ n ∧ n ≤ 0x586) ∨ (0x600 ≤ n ∧ n ≤ 0x64E) ∨ (0x718 ≤ n ∧ n ≤ 0x754) ∨ n = 0x774)

/-- The value of a number as a core reads it (R11, R48). -/
def State.sysRead (s : State) (k n : Nat) : W64 :=
  let c := s.core k
  if isWO n then 0
  else if n < 0x100 then s.readU k n
  else if n < 0x320 then s.readLoop k n
  else if isDieNo n then s.readDie (dieOfKey k) n
  else if n = 0x570 then w64 s.board.cmddir
  else if n = 0x591 then s.detcnt k
  else if n = 0x772 then s.cmdstat
  else if n = 0x773 then s.secstat
  else if n = 0x775 then (s.recorder (unitOfKey k)).stat
  else if n = 0xA20 ∧ c.mfw then Config.firmwareTable k &&& rwBits n
  else if n = 0xA42 then w64 (b2n c.ieM * 32)
  else if 0xA60 ≤ n ∧ n ≤ 0xA62 then w64 ((s.punit (unitOfKey k)).limit (n - 0xA60))
  else if 0xB68 ≤ n ∧ n ≤ 0xB6A then w64 ((s.punit (unitOfKey k)).promo.get 0 (n - 0xB68))
  else c.sr n

/-! ### Writing -/

/-- LOOPn.CNT as a write leaves it (R47): ACTIVE 0 ends the level, which has COUNT 0 (R44), and ACTIVE with COUNT 0 stays inactive
(DEDUCED: notes/assumptions/125). -/
def loopCntValue (v : W64) : W64 := if !v.getLsbD 63 ∨ v.toNat % 2 ^ 32 = 0 then 0 else v

/-- An L1WIN register is written: the reserved ways are assigned anew, and a demoted window sets PINOVF (R238). -/
def Core.writeL1win (c : Core) (n : Nat) (v : W64) : Core :=
  let c := c.setSr n v
  if [0, 1, 2, 3].any fun k => demoted ([0, 1, 2, 3].map c.l1win) c.l1plan k then c.setSr memstatNo (c.sr memstatNo ||| 4) else c

/-- A LAGWIN register is written (R242, R244). -/
def Atoll.writeLagwin (a : Atoll) (n : Nat) (v : W64) : Atoll :=
  let a := a.setSr n v
  if [0, 1, 2, 3].any fun k => demoted ([0, 1, 2, 3].map a.lagwin) a.lagplan k then a.setSr 0x129 (a.sr 0x129 ||| 1) else a

/-- A number below 0x320 receives a value. VL is at most 65,536 after SRSET and SRCLR too (DESIGN CHOICE: notes/assumptions/196). -/
def State.putLow (s : State) (k n : Nat) (v : W64) : State :=
  let stored := v &&& (rwBits n ||| w1cBits n)
  if 0x0A0 ≤ n ∧ n ≤ 0x0BF then
    let i := (n - 0x0A0) / 4
    s.updCore k fun c =>
      let u : StreamUnit := { c.unit i with crovf := v.getLsbD 38, flags := BitVec.ofNat 6 (bitsOf v.toNat 21 16) }
      c.setUnit i u
  else if n = 0x0E8 then s.updCore k fun c => { c with mxflags := BitVec.ofNat 6 (bitsOf v.toNat 37 32) }
  else if n = 0x070 then s.updCore k fun c => c.setSr n (w64 (min v.toNat 65536))
  else if n = 0x102 ∨ n = 0x106 then
    s.updCore k fun c => c.setSr n (loopCntValue stored)
  else if 0x110 ≤ n ∧ n ≤ 0x117 then s.updCore k fun c => c.writeL1win n stored
  else if 0x120 ≤ n ∧ n ≤ 0x127 then s.updAtoll (atollKeyOf k) fun a => a.writeLagwin n stored
  else if n = 0x128 ∨ n = 0x129 then s.updAtoll (atollKeyOf k) fun a => a.setSr n stored
  else if n = 0x142 then s.updCore k fun c => { c with ieS := v.getLsbD 4 }
  else if n = 0x150 then ((s.updCore k fun c => { (c.setSr n stored) with staleRun := none }).purgeStale k)
  else s.updCore k fun c => c.setSr n ((c.sr n &&& ~~~(rwBits n ||| w1cBits n)) ||| stored)

/-- A die-wide number receives a value. -/
def State.putDie (s : State) (d n : Nat) (v : W64) : State :=
  if n = 0x581 then s.stepDone d v
  else if n = 0x584 then s.snapLocal (v.toNat % 2 ^ 32)
  else if n = 0x585 then s.updSnap fun x => { x with flags := v.setWidth 5 }
  else if n = 0x586 then s.snapRxDone v
  else s.updDie d fun x => x.setSr n ((x.sr n &&& ~~~(rwBits n ||| w1cBits n)) ||| (v &&& (rwBits n ||| w1cBits n)))

/-- DETCNT is written: COUNT, THRESH and OVER of the selected detector (R410). -/
def State.putDetcnt (s : State) (k : Nat) (v : W64) : State :=
  let n := ((s.core k).sr 0x590).toNat
  if detectorNo (unitOfKey k) n then
    let d : DetCount := { count := bitsOf v.toNat 63 32, thresh := some (bitsOf v.toNat 31 16), overFlag := v.getLsbD 0 }
    { s with dets := s.dets.set {} (detKey (unitOfKey k) n) d }
  else s

/-- A register receives a value, with what its write does (R53, R277, R302). GATEBASE.M with another value than the shipped
firmware's names another table from then on (R75, R85). -/
def State.sysPut (s : State) (k n : Nat) (v : W64) : State :=
  if n < 0x320 then s.putLow k n v
  else if isDieNo n then s.putDie (dieOfKey k) n v
  else if n = 0x540 ∨ n = 0xA40 then
    s.updCore k fun c => (c.setSr n (v &&& rwBits n)).dropTlbs fun e => e.m != decide (n = 0xA40)
  else if n = 0x570 then s.cmddir v
  else if n = 0x591 then s.putDetcnt k v
  else if n = 0xA20 then
    s.updCore k fun c => { c.setSr n (v &&& rwBits n) with
      mfw := c.mfw && v &&& rwBits n == Config.firmwareTable k &&& rwBits n }
  else if n = 0xA42 then s.updCore k fun c => { c with ieM := v.getLsbD 5 }
  else if 0xA60 ≤ n ∧ n ≤ 0xA62 then
    s.updPunit (unitOfKey k) fun p => { p with ageLimit := p.ageLimit.set 0x10000 (n - 0xA60) (v.toNat % 2 ^ 20) }
  else s.updCore k fun c => c.setSr n ((c.sr n &&& ~~~(rwBits n)) ||| (v &&& rwBits n))

/-- The action of a WO register (R277, R321, R365). -/
def State.sysAct (s : State) (k n : Nat) (v : W64) : State :=
  if n = 0x544 then s.tlbinv k v
  else if n = 0x571 then s.doorbell v
  else s.steReady (dieOfKey k) v

/-- The value that SRW leaves in a register: RW bits as written, each W1C bit written as 1 cleared (R50). -/
def srwValue (n : Nat) (old v : W64) : W64 := ((old &&& ~~~(rwBits n)) ||| (v &&& rwBits n)) &&& ~~~(v &&& w1cBits n)

/-- SRW of a number (R11, R48, R50); of VL, the whole value is held to 65,536 (R99). -/
def State.sysWrite (s : State) (k n : Nat) (v : W64) : State :=
  if sysWriteLevel n = 3 then s
  else if isWO n then s.sysAct k n v
  else if rwBits n ||| w1cBits n = 0 then s
  else if n = 0x070 then s.sysPut k n v
  else s.sysPut k n (srwValue n (s.sysRead k n) v)

/-- SRSET and SRCLR store into RW bits only (R50). -/
def State.sysModify (s : State) (k n : Nat) (g : W64 → W64) : State :=
  let old := s.sysRead k n
  if sysWriteLevel n = 3 ∨ rwBits n = 0 then s
  else s.sysPut k n ((old &&& ~~~(rwBits n)) ||| (g old &&& rwBits n))

/-! ### The instructions (R49) -/

/-- The checks of R49: ILLEGAL for a number with no register, then PRIVILEGE. `rd`, `wr`: the levels that the form needs. -/
def sysChecks (k word n : Nat) (rd wr : Bool) : M Unit := do
  let c ← getC k
  if !sysPresent k n || sysReadLevel n == 3 then illegal (BitVec.ofNat 32 word)
  if rd && decide (c.level.code < sysReadLevel n) then privilege (BitVec.ofNat 32 word)
  if wr && sysWriteLevel n != 3 && decide (c.level.code < sysWriteLevel n) then privilege (BitVec.ofNat 32 word)

/-- One of the four forms: 0 SRR, 1 SRW, 2 SRSET, 3 SRCLR. -/
def sysBody (k word sub : Nat) (d a : Reg) (n : Nat) : M Flow := do
  sysChecks k word n (sub != 1) (sub != 0)
  let s ← get
  let v := (s.core k).rx a
  if sub = 1 then modify fun s => s.sysWrite k n v
  else
    let old := s.sysRead k n
    if sub = 2 then modify fun s => s.sysModify k n (· ||| v)
    else if sub = 3 then modify fun s => s.sysModify k n (· &&& ~~~v)
    modC k fun c => c.wx d old
  return .next

/-- A system register instruction. -/
def sysInstr (c : CoreId) (word sub : Nat) (d a : Reg) (n : Nat) (s : State) : Host.Outcome State Fault Refusal :=
  runInstr c word false (sysBody (coreKey c) word sub d a n) s

/-- SRR d, n (R49). -/
def execSrr (c : CoreId) (d a : Reg) (n : BitVec 12) (s : State) : Host.Outcome State Fault Refusal :=
  sysInstr c (instrWord (.srr c d a n)) 0 d a n.toNat s

/-- SRW n, a (R49). -/
def execSrw (c : CoreId) (d a : Reg) (n : BitVec 12) (s : State) : Host.Outcome State Fault Refusal :=
  sysInstr c (instrWord (.srw c d a n)) 1 d a n.toNat s

/-- SRSET d, n, a (R49). -/
def execSrset (c : CoreId) (d a : Reg) (n : BitVec 12) (s : State) : Host.Outcome State Fault Refusal :=
  sysInstr c (instrWord (.srset c d a n)) 2 d a n.toNat s

/-- SRCLR d, n, a (R49). -/
def execSrclr (c : CoreId) (d a : Reg) (n : BitVec 12) (s : State) : Host.Outcome State Fault Refusal :=
  sysInstr c (instrWord (.srclr c d a n)) 3 d a n.toNat s

/-! ### The rows that name one register -/

/-- A write of LOOPn.START, END or CNT (R46, R47). -/
def execLoopRegWrite (c : CoreId) (op : SrOp) (d a : Reg) (level : Fin 2) (part : Fin 3) (s : State) :
    Host.Outcome State Fault Refusal :=
  sysInstr c (instrWord (.loopRegWrite c op d a level part)) op.sub d a (loopNo level part) s

/-- A write of CTR.CMP (R53). -/
def execCtrCmpWrite (c : CoreId) (op : SrOp) (d a : Reg) (s : State) : Host.Outcome State Fault Refusal :=
  sysInstr c (instrWord (.ctrCmpWrite c op d a)) op.sub d a cmpNo s

/-- A write of PEPOCH (R302). -/
def execPepochWrite (c : CoreId) (op : SrOp) (d a : Reg) (s : State) : Host.Outcome State Fault Refusal :=
  sysInstr c (instrWord (.pepochWrite c op d a)) op.sub d a pepochNo s

/-- A write of L1WIN.k.ADDR or CTL (R235). -/
def execL1winWrite (c : CoreId) (op : SrOp) (d a : Reg) (k : Fin 4) (ctl : Bool) (s : State) : Host.Outcome State Fault Refusal :=
  sysInstr c (instrWord (.l1winWrite c op d a k ctl)) op.sub d a (0x110 + 2 * k.val + b2n ctl) s

/-- A write of LAGWIN.k.ADDR or CTL (R242). -/
def execLagwinWrite (c : CoreId) (op : SrOp) (d a : Reg) (k : Fin 4) (ctl : Bool) (s : State) : Host.Outcome State Fault Refusal :=
  sysInstr c (instrWord (.lagwinWrite c op d a k ctl)) op.sub d a (0x120 + 2 * k.val + b2n ctl) s

/-- A write of ATP (R276, R277). -/
def execAtpWrite (c : CoreId) (op : SrOp) (d a : Reg) (s : State) : Host.Outcome State Fault Refusal :=
  sysInstr c (instrWord (.atpWrite c op d a)) op.sub d a atpNo s

/-- A write of MATP (R276, R277). -/
def execMatpWrite (c : CoreId) (op : SrOp) (d a : Reg) (s : State) : Host.Outcome State Fault Refusal :=
  sysInstr c (instrWord (.matpWrite c op d a)) op.sub d a matpNo s

/-- SRW of TLBINV with ALL 1 (R277): a write whose ALL is 0 is the other row's. -/
def execTlbinvAll (c : CoreId) (a : Reg) (s : State) : Host.Outcome State Fault Refusal :=
  if ((s.core (coreKey c)).rx a).getLsbD 61 then sysInstr c (instrWord (.tlbinvAll c a)) 1 0 a 0x544 s else .next s

/-- SRW of TLBINV with ALL 0: the page of VPN (R277). -/
def execTlbinvVpn (c : CoreId) (a : Reg) (s : State) : Host.Outcome State Fault Refusal :=
  if ((s.core (coreKey c)).rx a).getLsbD 61 then .next s else sysInstr c (instrWord (.tlbinvVpn c a)) 1 0 a 0x544 s

/-- A write of CMDDIR (R366). -/
def execCmddirWrite (c : CoreId) (op : SrOp) (d a : Reg) (s : State) : Host.Outcome State Fault Refusal :=
  sysInstr c (instrWord (.cmddirWrite c op d a)) op.sub d a 0x570 s

/-- SRW of CMDDB with RING 0 to 2 (R367): a write with RING 3 is the other row's. -/
def execCmddbCommandRing (c : CoreId) (a : Reg) (s : State) : Host.Outcome State Fault Refusal :=
  if bitsOf ((s.core (coreKey c)).rx a).toNat 5 4 = 3 then .next s
  else sysInstr c (instrWord (.cmddbCommandRing c a)) 1 0 a 0x571 s

/-- SRW of CMDDB with RING 3 (R368). -/
def execCmddbReplyRing (c : CoreId) (a : Reg) (s : State) : Host.Outcome State Fault Refusal :=
  if bitsOf ((s.core (coreKey c)).rx a).toNat 5 4 = 3 then sysInstr c (instrWord (.cmddbReplyRing c a)) 1 0 a 0x571 s
  else .next s

/-- A write of STEREADY (R321). -/
def execSteReadyWrite (c : CoreId) (op : SrOp) (d a : Reg) (s : State) : Host.Outcome State Fault Refusal :=
  sysInstr c (wSys op.sub d a 0x580) op.sub d a 0x580 s

/-- A write of STEPDONE (R326). -/
def execStepDoneWrite (c : CoreId) (op : SrOp) (d a : Reg) (s : State) : Host.Outcome State Fault Refusal :=
  sysInstr c (wSys op.sub d a 0x581) op.sub d a 0x581 s

/-- A write of SNAPLOCAL (R356). -/
def execSnapLocalWrite (c : CoreId) (op : SrOp) (d a : Reg) (s : State) : Host.Outcome State Fault Refusal :=
  sysInstr c (wSys op.sub d a 0x584) op.sub d a 0x584 s

/-- A write of SNAPRXDONE (R356). -/
def execSnapRxDoneWrite (c : CoreId) (op : SrOp) (d a : Reg) (s : State) : Host.Outcome State Fault Refusal :=
  sysInstr c (wSys op.sub d a 0x586) op.sub d a 0x586 s

/-! ### The timer (R53) -/

/-- The counter of a core moves to a value (R51). -/
def State.setCtrOf (s : State) (k v : Nat) : State :=
  if k < 576 then s.updDie (k / 144) fun d => { d with ctr := v }
  else if k < 592 then s.updBoard fun b => { b with mctr := v }
  else if k < 596 then s.updDie (k - 592) fun d => { d with ctr := v }
  else s.updBoard fun b => { b with svcCtr := v }

/-- CTR reaches CTR.CMP: time passes on the core's counter until it has (R53; DESIGN CHOICE: notes/assumptions/14). -/
def execTimerExpiry (c : CoreId) (s : State) : Host.Outcome State Fault Refusal :=
  let k := coreKey c
  let cmp := ((s.core k).sr cmpNo).toNat
  if s.corePowered k && cmp != 0 && decide (s.ctrOf k < cmp) then .next (s.setCtrOf k cmp) else .next s

end Sys2Proof.Machine
end

