-- ==== Sys2Proof/Machine/Debug.lean ====
section
/-! DEFINITION. Debug requests, their checks by security and power state, and deferral (R94, R404 to R407, R440, R441). -/

namespace Sys2Proof.Machine
open Sys2Proof

/-! ### Power columns and verdicts (R405) -/

/-- A compute die's power state: 0, 3 or 4 (R400). -/
def State.diePower (s : State) (d : Nat) : Nat :=
  if (s.die d).retain then 3 else if (s.die d).powered then 0 else 4

/-- The column of R405 for a core: the power state of the domain that holds it. -/
def State.column (s : State) (k : Nat) : Nat :=
  if k < 576 then
    if s.diePower (k / 144) ≠ 0 then s.diePower (k / 144)
    else if !(s.atoll (k / 16)).powered then 2
    else if (s.atoll (k / 16)).gated then 1 else 0
  else if k < 592 then (if s.board.mainlandOn then 0 else 4)
  else if k < 596 then s.diePower (k - 592)
  else 0

/-- Debug actions (R404). -/
inductive DebugAct where
  | scan | halt | read (level : Nat) | trace | inject
  deriving DecidableEq, Repr

/-- What R405 says of an action. -/
inductive Verdict where
  | allow | denied | wrongState | defer
  deriving DecidableEq, Repr

/-- The table of R405: security state 0 SEALED, 1 OPERATOR, 2 VENDOR; power column 0 to 4. -/
def verdict (sec : Nat) (a : DebugAct) (col : Nat) : Verdict :=
  if sec = 0 then .denied
  else match a with
    | .scan => if sec = 1 then .denied else if 3 ≤ col then .allow else .wrongState
    | .halt => if col ≤ 1 then .allow else .defer
    | .trace => if col ≤ 1 then .allow else .defer
    | .read l => if sec = 1 ∧ l = 2 then .denied else if col ≤ 1 then .allow else .wrongState
    | .inject => if col ≤ 1 then .allow else .wrongState

/-! ### Requests (R404, R441) -/

def DebugReq.act : DebugReq → DebugAct
  | .halt | .step | .run => .halt
  | .read l _ => .read l
  | .traceOn _ _ | .traceOff => .trace

/-- The probe's reply: a status of R372 and the payload. -/
def State.debugAnswer (s : State) (st : Nat) (ws : List W64) : State := s.updBoard fun b => { b with debugReply := some (st, ws) }

/-- A core stopped for debug, or halted by R84, can be read (R84, R404). -/
def Core.readable (c : Core) : Bool :=
  c.dbgHalted || (match c.run with
    | .halted _ => true
    | _ => false)

/-- The effect of an allowed request on a core, with the reply's status and payload. -/
def State.debugDo (s : State) (k : Nat) (q : DebugReq) : Nat × List W64 × State :=
  let c := s.core k
  match q with
  | .halt => (0, [], s.updCore k fun c => if c.dbgHalted then c else { c with dbgHaltReq := true })
  | .step => if c.dbgHalted then (0, [], s.updCore k fun c => { c with dbgHalted := false, dbgStep := true }) else (0x11, [], s)
  | .run => (0, [], s.updCore k fun c => { c with dbgHalted := false, dbgHaltReq := false, dbgStep := false })
  | .read l ns =>
    if ns.any fun n => !sysPresent k n || decide (l < sysReadLevel n) then (5, [], s)
    else if k ≠ 596 ∧ !c.readable then (0x11, [], s)
    else (0, ns.map (s.sysRead k), s)
  | .traceOn pa bytes =>
    if s.inUsable pa bytes then
      let s := s.updCore k fun c => { c with trace := some { pa := pa, bytes := bytes, used := 0, records := [] } }
      (0, [], if s.board.security = 1 ∧ c.level = .m then s.traceNote k .mGap c.pc else s)
    else (5, [], s)
  | .traceOff => (0, [], s.updCore k fun c => { c with trace := none })

/-- A request on a core: refused, deferred, or run. A deferred one replaces an earlier one, which replies ABORTED (R405,
R406). -/
def State.debugRequest (s : State) (k : Nat) (q : DebugReq) : State :=
  match verdict s.board.security q.act (s.column k) with
  | .denied => s.debugAnswer 0x30 []
  | .wrongState => s.debugAnswer 0x11 []
  | .defer =>
    let s := if (s.core k).dbgDeferred.isSome then s.debugAnswer 0x12 [] else s
    s.updCore k fun c => { c with dbgDeferred := some q }
  | .allow =>
    let (st, ws, s) := (s.ungate k).debugDo k q
    s.debugAnswer st ws

/-- A deferred request whose domain now allows it runs, checked again under the security state in force (R406). -/
def State.runDeferred (s : State) (k : Nat) : State :=
  match (s.core k).dbgDeferred with
  | none => s
  | some q =>
    if verdict s.board.security q.act (s.column k) == .defer then s
    else (s.updCore k fun c => { c with dbgDeferred := none }).debugRequest k q

/-- Deferred requests of every core at a position. -/
def State.runDeferredAt (s : State) (d p : Nat) : State := (coresAt d p).foldl (fun s k => s.runDeferred k) s

/-- Deferred requests of the mainland cores. -/
def State.runDeferredMainland (s : State) : State := (rangeFrom mainland0 16).foldl (fun s k => s.runDeferred k) s

/-- Deferred requests of a die's cores. -/
def State.runDeferredDie (s : State) (d : Nat) : State := (List.range 9).foldl (fun s p => s.runDeferredAt d p) s

/-- The core that a target names: bit 15 the service core, else a logical core (R441), or with a bit of [14:9] set a mainland general
core (DESIGN CHOICE: notes/assumptions/75). -/
def State.debugTarget (s : State) (t : BitVec 16) : Nat :=
  if t.getLsbD 15 then 596
  else if t.toNat < 512 then s.keyOfLcore t.toNat
  else mainland0 + Config.mainlandTarget t.toNat % 16

/-- OPC of a request, and its payload (R441). -/
def DebugReq.opc : DebugReq → Nat
  | .halt => 1
  | .step => 2
  | .run => 3
  | .read _ _ => 4
  | .traceOn _ _ => 5
  | .traceOff => 6

def DebugReq.payload : DebugReq → List W64
  | .read l ns => w64 l :: ns.map w64
  | .traceOn pa bytes => [w64 pa, w64 bytes]
  | _ => []

/-- The CRC of a request or a reply covers every byte after SYNC (R441). -/
def probeCrc (head : List Byte) (ws : List W64) : W32 :=
  BitVec.ofNat 32 (crc32c (head ++ leBytes 2 ws.length ++ ws.flatMap fun w => leBytes 8 w.toNat))

/-- The CRC that a request must end with: OPC, TARGET, LEN and the payload (R441). -/
def requestCrc (opc : Nat) (target : BitVec 16) (ws : List W64) : W32 := probeCrc (leBytes 1 opc ++ leBytes 2 target.toNat) ws

/-- The bytes of a reply: SYNC, STATUS, LEN, the payload and the CRC (R441). -/
def debugReplyBytes (r : Nat × List W64) : List Byte :=
  leBytes 1 0x5A ++ leBytes 2 r.1 ++ leBytes 2 r.2.length ++ (r.2.flatMap fun w => leBytes 8 w.toNat)
    ++ leBytes 4 (probeCrc (leBytes 2 r.1) r.2).toNat

/-- A request from the debug header, checked in the order of R370: its CRC, its target, the security state, and its level. The
service core is a target for reading M state only (R404, R405, R441). -/
def State.debug (s : State) (h : DebugHead) (q : DebugReq) : State :=
  if !s.unitUp 4 then s
  else if h.crc != requestCrc q.opc h.target q.payload then s.debugAnswer 1 []
  else if h.target.getLsbD 15 && !(q.act == .read 2) then s.debugAnswer 3 []
  else if s.board.security = 0 then s.debugAnswer 0x30 []
  else match q with
    | .read 3 _ => s.debugAnswer 5 []
    | _ => s.debugRequest (s.debugTarget h.target) q

/-- The PING state word of a unit (R378). -/
def State.stateWord (s : State) (u : Nat) : W64 :=
  if u < 4 then
    let d := s.die u
    let on := (List.range 9).foldl (fun n p => n + (match d.logicalAt p with
      | some a => if !d.isOffline a && (s.atoll (9 * u + p)).powered then 2 ^ p else 0
      | none => 0)) 0
    w64 (d.taskState % 4 + s.diePower u * 16 + s.board.security % 4 * 256 + on * 65536)
  else w64 ((if s.board.standby then 4 else 0) * 16 + s.board.security % 4 * 256)

/-- HALT (R94, R441). -/
def execDebugHalt (head : DebugHead) (s : State) : Host.Outcome State Fault Refusal := .next (s.debug head .halt)
/-- STEP: one instruction of a debug-halted core (R94, R441). -/
def execDebugStep (head : DebugHead) (s : State) : Host.Outcome State Fault Refusal := .next (s.debug head .step)
/-- RUN (R94, R441). -/
def execDebugRun (head : DebugHead) (s : State) : Host.Outcome State Fault Refusal := .next (s.debug head .run)
/-- READ (R404, R441). -/
def execDebugRead (head : DebugHead) (level : BitVec 2) (regs : List (BitVec 12)) (s : State) :
    Host.Outcome State Fault Refusal :=
  .next (s.debug head (.read level.toNat (regs.map BitVec.toNat)))
/-- TRACE_ON (R404, R441). -/
def execTraceOn (head : DebugHead) (pa bytes : Nat) (s : State) : Host.Outcome State Fault Refusal :=
  .next (s.debug head (.traceOn pa bytes))
/-- TRACE_OFF (R404, R441). -/
def execTraceOff (head : DebugHead) (s : State) : Host.Outcome State Fault Refusal := .next (s.debug head .traceOff)
/-- STATUS: the PING state word of the target's unit, in every state (R441). -/
def execDebugStatus (head : DebugHead) (s : State) : Host.Outcome State Fault Refusal :=
  .next (if !s.unitUp 4 then s
    else if head.crc != requestCrc 7 head.target [] then s.debugAnswer 1 []
    else s.debugAnswer 0 [s.stateWord (min 4 (head.target.toNat / 128))])

/-! ### The TAPs (R404, R440) -/

/-- The column of R405 for a die's pins; 4 is the mainland die, whose pins need P4. -/
def State.scanColumn (s : State) (d : Nat) : Nat := if d < 4 then s.diePower d else if s.board.mainlandOn then 0 else 4

/-- Codes of the TAP instructions as the model keeps them: the manual does not give their opcodes. -/
def scanCode : ScanInstr → Nat
  | .sample => 2 | .preload => 3 | .extest => 4

/-- Place of a die's TAP in the chain: H, then C0 to C3 (R440). -/
def tapPlace (die : Nat) : Nat := if die < 4 then die + 1 else 0

/-- Boundary scan of a compute die or of the mainland die (R404, R405): the die's DRAM contents are lost, and the chain's bits
are free. -/
def execBoundaryScan (die : Fin 5) (i : ScanInstr) (s : State) : Host.Outcome State Fault Refusal :=
  if !s.unitUp 4 then .next s
  else match verdict s.board.security .scan (s.scanColumn die) with
    | .allow =>
      let (n, s) := s.draw
      let s := if die.val < 4 then (s.dramLost die).updDie die fun d => { d with zeroed := false } else s
      .next ((s.updBoard fun b => { b with tapIr := b.tapIr.set 0 (tapPlace die) (scanCode i), tapOut := Config.scanBits n }).debugAnswer 0 [])
    | .denied => .next (s.debugAnswer 0x30 [])
    | _ => .next (s.debugAnswer 0x11 [])

/-- Bits of a number, the lowest first, as a chain shifts them out. -/
def lowBits (n w : Nat) : List Bool := (List.range n).map w.testBit

/-- The identification word of a TAP: part 0x7A10 on the mainland die, 0x7A11 on a compute die, in bits [27:12] (R440). The
chain's place 0 is H, 1 to 4 are C0 to C3. -/
def idcodeWord (tap : Nat) : Nat :=
  let rest := Config.idcodeRest tap % 2 ^ 32
  bitsOf rest 31 28 * 2 ^ 28 + (if tap = 0 then 0x7A10 else 0x7A11) * 2 ^ 12 + rest % 2 ^ 12

/-- IDCODE and BYPASS work in every state (R404, R440). -/
def execIdcodeBypass (tap : Fin 5) (i : TapInstr) (s : State) : Host.Outcome State Fault Refusal :=
  if s.board.servicePowered then
    .next (s.updBoard fun b => match i with
      | .idcode => { b with tapIr := b.tapIr.set 0 tap 0, tapOut := lowBits 32 (idcodeWord tap) }
      | .bypass => { b with tapIr := b.tapIr.set 0 tap 1, tapOut := [false] })
  else .next s

end Sys2Proof.Machine
end

