-- ==== Sys2Proof/Machine/Packets.lean ====
section
/-! DEFINITION. The opcodes of the command interface that act on cores, atolls, the strait engine, snapshots, injection, the
recorder and the meters (R316, R340, R341, R359, R378 to R388, R400 to R403, R413, R414, R418, R419). -/

namespace Sys2Proof.Machine
open Sys2Proof

/-! ### PING -/

/-- The counter of a unit (R51). -/
def State.unitCtr (s : State) (u : Nat) : Nat := if u < 4 then (s.die u).ctr else s.board.svcCtr

/-- PING's results: version, state word, CQPROMO, counter, and the parameters echoed (R378). -/
def State.pingWords (s : State) (u : Nat) (p : Packet) : List W64 :=
  [w64 (s.fwVersion u), s.stateWord u] ++ [0, 1, 2].map (fun r => w64 ((s.punit u).promo.get 0 r)) ++ [w64 (s.unitCtr u)]
    ++ p.params

/-- PING (R378). -/
def execPing (u : Fin 5) (s : State) : Host.Outcome State Fault Refusal :=
  opNow u 0x01 (fun p s => (0, s.pingWords u p, s)) s

/-! ### Images and tasks (R377, R380 to R382) -/

/-- Logical atolls of a mask. -/
def atollsIn (mask : Nat) : List Nat := (List.range 8).filter mask.testBit

/-- A logical atoll runs a task: START_TASK has started it and it is not drained. -/
def Die.atollRuns (d : Die) (a : Nat) : Bool := d.running.testBit a && !d.drained.testBit a

/-- LOAD_IMAGE's checks at its start (R378). -/
def State.loadCheck (s : State) (u : Nat) (p : Packet) : Nat :=
  if p.w 0 % 64 ≠ 0 ∨ p.w 1 < 64 ∨ p.w 0 / dieWindow ≠ u ∨ !s.inUsable (p.w 0) (p.w 1) then 5
  else if (List.range 8).any (s.die u).atollRuns then 0x11
  else 0

/-- LOAD_IMAGE reads the image (R377): status, results and state. -/
def State.loadImage (s : State) (u : Nat) (p : Packet) : Nat × List W64 × State :=
  let (bs, e, s) := s.unitRead u (p.w 0) (p.w 1)
  let f := fun (o n : Nat) => ofLe ((bs.drop o).take n)
  let crc := crc32c (bs.drop 64)
  if e != .none then (0x40, [], s)
  else if f 0 4 ≠ 0x494B544D ∨ f 4 4 ≠ crc then (0x20, [], s)
  else (0, [w64 crc], s.updDie u fun d => { d with image := some (wordsOf (bs.take 64)), taskState := 1 })

/-- LOAD_IMAGE starts: it parks until the image is read. -/
def execLoadImage (u : Fin 5) (s : State) : Host.Outcome State Fault Refusal :=
  opPark u 0x10 (fun p s => (s.loadCheck u p, p.waiting 0, s)) s

/-- A core starts a task at S (R380), and its atoll is ungated (R401). A halted core waits for a core reset (R84). -/
def State.startCore (s : State) (k : Nat) (img : List W64) (epoch arg : Nat) : State :=
  match (s.core k).run with
  | .halted _ => s
  | _ =>
    let l := s.lcoreOf k
    let s := s.ungate k
    let s := ((s.sysPut k 0x540 (img.getD 2 0)).sysPut k 0x521 (img.getD 3 0)).sysPut k 0x520 (img.getD 4 0)
    let s := s.sysPut k pepochNo (w64 epoch)
    s.updCore k fun c =>
      let c := ((c.wx 2 (img.getD 5 0 + w64 l * img.getD 6 0)).wx 10 (w64 arg)).wx 11 (w64 l)
      { c with level := .s, ieS := false, pc := img.getD 1 0 &&& ~~~(3 : W64), run := .running, wait := .none,
               taskArrived := false, taskRan := false }.leaveGap

/-- A core that START_TASK starts. -/
def Core.startable (c : Core) : Bool :=
  match c.run with
  | .halted _ => false
  | _ => true

/-- START_TASK (R378, R380). -/
def State.startTask (s : State) (d : Nat) (p : Packet) : Nat × List W64 × State :=
  let x := s.die d
  let sel := atollsIn (p.w 0 % 256)
  match x.image with
  | none => (0x11, [], s)
  | some img =>
    if sel.any fun a => x.isOffline a || x.atollRuns a then (0x11, [], s)
    else
      let ks := sel.flatMap fun a => coresAt d (x.position a)
      let n := (ks.filter fun k => (s.core k).startable).length
      let s := ks.foldl (fun s k => s.startCore k img (bitsOf (p.w 0) 31 16) (p.w 1)) s
      let s := s.updDie d fun x => { x with
        running := sel.foldl (fun n a => setBit n a true) x.running
        drained := sel.foldl (fun n a => setBit n a false) x.drained
        draining := sel.foldl (fun n a => setBit n a false) x.draining, taskState := 2 }
      (0, [w64 n], s)

def execStartTask (u : Fin 5) (s : State) : Host.Outcome State Fault Refusal := opNow u 0x11 (fun p s => s.startTask u p) s

/-- DRAIN raises its notice and parks (R381). -/
def State.drainTask (s : State) (d mask : Nat) : State :=
  let on := (atollsIn mask).filter fun a => !(s.die d).isOffline a
  let s := (on.flatMap fun a => coresAt d ((s.die d).position a)).foldl (fun s k => s.notice k 0x0100) s
  s.updDie d fun x => { x with
    draining := on.foldl (fun n a => if x.drained.testBit a then n else setBit n a true) x.draining }

def execDrain (u : Fin 5) (s : State) : Host.Outcome State Fault Refusal :=
  opPark u 0x12 (fun p s => (0, p.waiting (p.w 0 % 256), s.drainTask u (p.w 0 % 256))) s

/-- Every atoll of a list is drained, or offline (R381). -/
def Die.allDrained (d : Die) (as : List Nat) : Bool := as.all fun a => d.drained.testBit a || d.isOffline a

/-- The last selected atoll has drained: DRAIN replies, and a die whose active atolls are all drained is DRAINED (R381). -/
def execDrainComplete (u : Fin 5) (s : State) : Host.Outcome State Fault Refusal :=
  let q := s.punit u
  match (q.ring 1).parked with
  | some x =>
    if x.pkt.opc = 0x12 ∧ !x.ready ∧ (s.die u).allDrained (atollsIn x.mask) ∧ s.unitUp u ∧ !q.replyFull then
      let s := if (s.die u).allDrained (List.range 8) then s.updDie u fun d => { d with taskState := 3 } else s
      .next (s.unpark u 1 0 [w64 (s.die u).ctr])
    else .next s
  | none => .next s

/-- ABORT (R382). -/
def execAbort (u : Fin 5) (s : State) : Host.Outcome State Fault Refusal :=
  opNow u 0x13 (fun p s => (0, [], s.abortDie u (p.len == 0) (p.w 0 % 256))) s

/-! ### Atolls (R386) -/

/-- A core of an atoll is debug-halted (R407). -/
def State.debugHaltedAt (s : State) (d p : Nat) : Bool := (coresAt d p).any fun k => (s.core k).dbgHalted

/-- ATOLL_OFFLINE (R386, R407). -/
def State.offline (s : State) (d : Nat) (p : Packet) : Nat × List W64 × State :=
  let a := p.atoll
  let pos := (s.die d).position a
  let off := (p.w 0).testBit 0
  if off && s.debugHaltedAt d pos then (0x11, [], s)
  else
    let s := s.updDie d fun x => { x with
      offline := setBit x.offline a true, running := setBit x.running a false, draining := setBit x.draining a false
      drained := setBit x.drained a false }
    if (s.atoll (d * 9 + pos)).powered then
      let s := (coresAt d pos).foldl (fun s k => s.coreReset k) s
      let n := s.dirtyLines (d * 9 + pos)
      let s := (s.lagoonOut (d * 9 + pos)).updAtoll (d * 9 + pos) fun x => { x with gated := false }
      (0, [w64 n], if off then s.atollOff d pos else s)
    else (0, [0], s)

def execAtollOffline (u : Fin 5) (s : State) : Host.Outcome State Fault Refusal := opNow u 0x20 (fun p s => s.offline u p) s

/-- ATOLL_ONLINE; the self-test's outcome comes with the command (R386). A fault of the domain that it switches on replies HW_FAULT
(R426). -/
def State.online (s : State) (d : Nat) (p : Packet) (pass : Bool) : Nat × List W64 × State :=
  let a := p.atoll
  let pos := (s.die d).position a
  if s.board.failsNext.get false (12 * d + pos) then (0x40, [], s.startAtoll d pos)
  else
    let s := (s.startAtoll d pos).updDie d fun x => { x with
      selfTest := setBit x.selfTest pos pass, offline := if pass then setBit x.offline a false else x.offline }
    let s := s.runDeferredAt d pos
    if pass then (0, [w64 pos], s) else (0x40, [], s)

def execAtollOnline (u : Fin 5) (selfTestPasses : Bool) (s : State) : Host.Outcome State Fault Refusal :=
  opNow u 0x21 (fun p s => s.online u p selfTestPasses) s

/-- A logical atoll moves to another position: the old one goes dark, the map is recorded, and deferred debug requests follow
it (R386, R404). -/
def State.remap (s : State) (d a pos : Nat) : State :=
  let old := (s.die d).position a
  let s := if (s.atoll (d * 9 + old)).powered then s.atollOff d old else s
  let s := (List.range 16).foldl (fun s c =>
    let q := (s.core (computeKey d old c)).dbgDeferred
    (s.updCore (computeKey d old c) fun x => { x with dbgDeferred := none }).updCore (computeKey d pos c) fun x =>
      { x with dbgDeferred := q }) s
  let s := s.updDie d fun x => { x with atollMap := x.atollMap.set a a pos }
  s.updBoard fun b => { b with flash := { b.flash with atollMaps := b.flash.atollMaps.set a (d * 8 + a) pos } }

/-- ATOLL_SWAP_RESERVE (R386). Where boot flash does not take the map, nothing moves (R409; DESIGN CHOICE:
notes/assumptions/169). -/
def State.swapReserve (s : State) (d : Nat) (p : Packet) : Nat × List W64 × State :=
  let a := p.atoll
  let x := s.die d
  let back := (p.w 0).testBit 0
  if !x.isOffline a then (0x11, [], s)
  else if back && x.position a != 8 then (0x11, [], s)
  else if !back && ((x.logicalAt 8).isSome || (s.atoll (d * 9 + 8)).powered) then (0x14, [], s)
  else if s.board.flash.fails then (0x40, [], s.flashFault)
  else if back then (0, [w64 a], s.remap d a a)
  else (0, [8], s.remap d a 8)

def execAtollSwapReserve (u : Fin 5) (s : State) : Host.Outcome State Fault Refusal :=
  opNow u 0x22 (fun p s => s.swapReserve u p) s

/-- What a core waits for has not come yet (R401): no message, no end of its SWAIT or LBAR, no release from FENCE.TASK. -/
def Core.stillWaits (c : Core) (drained : Bool) : Bool :=
  match c.wait with
  | .none => false
  | .recv _ mbx => (c.mail mbx.toNat).isEmpty
  | .swait i thr => !c.swaitDone i.toNat thr
  | .lbar => !c.lbarDone
  | .fenceTask => drained

/-- Every core of an atoll waits or is halted, for debug too (R94), and no stream, array, TMOV or GACC work is in flight (R401): a unit
that waits for credits moves nothing, and a credit return ungates. -/
def State.atollIdle (s : State) (d p : Nat) : Bool :=
  (coresAt d p).all fun k =>
    let c := s.core k
    c.bg.isEmpty && c.gather0.isNone && c.gather1.isNone && !c.streamBusy && (c.dbgHalted || match c.run with
      | .halted _ => true
      | .inReset => false
      | .running => c.stillWaits (s.atollDrained d p))

/-- A permitted atoll gates its clocks (R401). -/
def execAtollGate (die : Fin 4) (pos : Fin 9) (s : State) : Host.Outcome State Fault Refusal :=
  let allowed := match (s.die die).logicalAt pos with
    | some a => (s.die die).p1en.testBit a
    | none => false
  if (s.die die).up && allowed && (s.atoll (die.val * 9 + pos.val)).powered && s.atollIdle die pos then
    .next (s.updAtoll (die.val * 9 + pos.val) fun a => { a with gated := true })
  else .next s

/-- A wake event ends gating (R401): an interrupt that one of the atoll's cores would take. A message arrival and a debug request
ungate in their own commands, and nothing returns credits to a gated core: every return is the core's own (R149). -/
def execAtollUngate (die : Fin 4) (pos : Fin 9) (s : State) : Host.Outcome State Fault Refusal :=
  .next (if (coresAt die pos).any s.intWakes then s.updAtoll (die.val * 9 + pos.val) fun a => { a with gated := false } else s)

/-! ### Strait engine and snapshots (R316, R319, R340, R341, R359, R379) -/

/-- TREE_CONFIG (R319). -/
def execTreeConfig (u : Fin 5) (s : State) : Host.Outcome State Fault Refusal :=
  opNow u 0x40 (fun p s =>
    let (st, s) := s.treeAccept u p.params
    (st, [], s)) s

/-- STRAIT_TRAIN starts: the port trains until the packet's completion, unless its SerDes domain is off (R314, R316). -/
def execStraitTrain (u : Fin 5) (r : TrainResult) (s : State) : Host.Outcome State Fault Refusal :=
  opPark u 0x41 (fun p s =>
    let port := p.w 0 % 8
    if port / 2 ≠ u.val then (3, p.waiting 0, s)
    else
      let x : Parked := { p.waiting 0 with train := some (port, (s.port port).state, r) }
      (0, x, s.updPort port fun q => { q with state := if q.state = 0 then 0 else 2 })) s

/-- STRAIT_TRAIN ends: OK where the port is UP, else TIMEOUT; a port that is OFF stays so (R314, R317, R378). -/
def State.trainEnd (s : State) (port old : Nat) (r : TrainResult) : Nat × List W64 × State :=
  let (ok, s) := if (s.port port).state = 0 then (false, s) else s.trainPort port old r
  let p := s.port port
  (if ok then 0 else 0x13, [p.stat, p.fec, p.link], s)

/-- The 32 entries of a relay table (R379). -/
def relayEntries (ws : List W64) : List W32 := ws.flatMap fun (w : W64) => [w.setWidth 32, (w >>> 32).setWidth 32]

/-- STRAIT_RELAY (R379). -/
def execStraitRelay (u : Fin 5) (s : State) : Host.Outcome State Fault Refusal :=
  opNow u 0x42 (fun p s => (0, [], s.updEng u fun e => { e with relay := relayEntries p.params })) s

/-- An image is being received (R348). -/
def Snap.receiving (n : Snap) : Bool := n.rxStep.isSome && !n.rxComplete && !n.rxRefused

/-- A record changes RXBASE or RXSIZE (R340). -/
def Snap.movesRx (n : Snap) (c : SnapCfg) : Bool := SnapCfg.addr n.cfg 5 != SnapCfg.addr c 5 || SnapCfg.addr n.cfg 6 != SnapCfg.addr c 6

/-- SNAP_CONFIG on a die (R340). A leader with no snapshot planned plans one (DESIGN CHOICE: notes/assumptions/16). -/
def State.snapConfig (s : State) (d : Nat) (c : SnapCfg) : Nat × State :=
  if snapMalformed c then (5, s)
  else if s.snap.receiving && s.snap.movesRx c then (0x10, s)
  else
    let s := s.updSnap fun n => n.takeCfg c
    let r := treeRec (s.eng d).cfg
    if s.isHead d && r.leads && s.snap.next.isNone then
      (0, s.setNext r (max (r.step0 + s.snap.intervalNow - 1) (s.eng d).step))
    else (0, s)

def execSnapConfig (u : Fin 5) (s : State) : Host.Outcome State Fault Refusal :=
  opNow u 0x50 (fun p s =>
    let (st, s) := s.snapConfig u p.params
    (st, [], s)) s

/-- SNAP_NOW (R341). -/
def State.snapNow (s : State) (d : Nat) : Nat × List W64 × State :=
  let r := treeRec (s.eng d).cfg
  if !(s.eng d).cfg.isEmpty && r.head % 4 ≠ d then (3, [], s)
  else if (s.eng d).cfg.isEmpty || !r.leads then (0x11, [], s)
  else
    let v := ((s.eng d).step + 2) % 2 ^ 32
    let s := (s.setNext r v).updSnap fun n => { n with next := some v, nowLocal := true }
    (0, [w64 v], s)

def execSnapNow (u : Fin 5) (s : State) : Host.Outcome State Fault Refusal := opNow u 0x51 (fun _ s => s.snapNow u) s

/-- RESTORE starts (R359): ROLE 2 waits for PUT frames, the others run. Answers the status. -/
def State.restoreStart (s : State) (d : Nat) (c : RestCfg) : Nat × State :=
  let r := treeRec (s.eng d).cfg
  if !(s.eng d).cfg.isEmpty && r.head % 4 ≠ d then (3, s)
  else if restoreMalformed c then (5, s)
  else if (s.eng d).state ≠ 1 then (0x10, s)
  else
    let q : Restore := { cfg := c }
    if RestCfg.role c = 2 then (0, ({ s with restore := some q }).drainPorts)
    else
      let (ok, n, s) :=
        if RestCfg.role c = 0 then s.scatterAnd r c
        else if RestCfg.role c = 1 then s.sendWhole r c
        else if RestCfg.bcast c then
          let (ok, s) := s.broadcast r (RestCfg.step c)
          (ok, 0, s)
        else (true, 0, s)
      let q : Restore := { q with got := n, result := some ok }
      (0, { s with restore := some q })

def execRestore (u : Fin 5) (s : State) : Host.Outcome State Fault Refusal :=
  opPark u 0x52 (fun p s =>
    let (st, s) := s.restoreStart u p.params
    (st, p.waiting 0, s)) s

/-! ### INJECT (R413, R414) -/

/-- KINDs that a detector's Inject column lists (R409). -/
def injectKinds (n : Nat) : List Nat :=
  if n = 0x101 ∨ n = 0x301 ∨ n = 0x306 ∨ n = 0x401 then [0]
  else if n = 0x102 ∨ n = 0x109 ∨ n = 0x302 ∨ n = 0x402 then [1]
  else if n = 0x106 ∨ n = 0x107 ∨ n = 0x307 ∨ n = 0x30B ∨ n = 0x403 ∨ (0x601 ≤ n ∧ n ≤ 0x606) then [2]
  else if (0x103 ≤ n ∧ n ≤ 0x105) ∨ n = 0x108 ∨ n = 0x201 ∨ n = 0x202 ∨ n = 0x305 ∨ n = 0x407 then [0, 1]
  else []

/-- LOC is in range for a detector of a unit (R409, R413). -/
def injectLoc (u n loc : Nat) : Bool :=
  if n = 0x106 then decide (loc % 32768 < 512 ∧ loc % 32768 / 128 = u)
  else if n < 0x200 then decide (loc < 512 ∧ loc / 128 = u)
  else if n < 0x300 then decide (loc < 8)
  else if n = 0x305 then decide (loc < 30)
  else if n = 0x306 ∨ n = 0x307 then decide (loc < 3)
  else if n = 0x30B ∨ n = 0x407 then loc == u
  else if n < 0x500 then decide (loc < 8 ∧ loc / 2 = u)
  else if n = 0x602 then decide (loc < 59)
  else if n = 0x603 ∨ n = 0x604 then decide (loc < 52)
  else if n = 0x605 then decide (loc < 4)
  else loc == 0

/-- A detector belongs to a unit: 0x0101 to 0x0407 to a die, 0x06xx to the service core (R413). -/
def injectUnit (u n : Nat) : Bool := if u < 4 then decide (n < 0x500) else decide (0x600 ≤ n)

/-- The address form of w1 (R414). -/
def addressForm (n : Nat) : Bool := n == 0x301 || n == 0x302

/-- Key of a core in LOC's domain, where that is an atoll. -/
def State.injectCore (s : State) (u n loc : Nat) : Option Nat :=
  if n < 0x200 then some (s.keyOfLcore (loc % 512))
  else if n < 0x300 then some (computeKey u ((s.die u).position loc) 0)
  else if n = 0x602 ∧ loc < 48 ∧ loc % 12 < 9 then some (computeKey (loc / 12) (loc % 12) 0)
  else none

/-- The column of R405 for a power domain that is no atoll. -/
def State.domainColumn (s : State) (n : Nat) : Nat :=
  let col := fun (on : Bool) => if on then 0 else 4
  if n < 48 then s.diePower (n / 12)
  else if n = 48 then col s.board.mainlandOn
  else if n = 49 then col s.board.mioOn
  else if n = 50 then 0
  else if n < 55 then s.diePower (n - 51)
  else col (s.board.nvmeOn.get false (n - 55))

/-- The power column of LOC's domain (R413): a die that takes INJECT, and the service domain, are in P0. -/
def State.injectColumn (s : State) (u n loc : Nat) : Nat :=
  match s.injectCore u n loc with
  | some k => s.column k
  | none =>
    if n = 0x602 then s.domainColumn loc
    else if n = 0x603 ∨ n = 0x604 then s.domainColumn (sensorDomain loc)
    else 0

/-- The malformed requests of R413. -/
def State.injectMalformed (s : State) (u n w : Nat) : Bool :=
  !injectUnit u n
    || (if addressForm n then
        bitsOf w 6 2 != 0 || bitsOf w 63 46 != 0 || !(injectKinds n).contains (w % 4)
          || !s.inUsable (bitsOf w 45 7 * 128) 128 || bitsOf w 45 0 / dieWindow != u
      else bitsOf w 63 18 != 0 || !(injectKinds n).contains (bitsOf w 17 16) || !injectLoc u n (w % 65536))

/-- INJECT: status and state. An injection into a causeway's next flit or check takes effect at once where the causeway is up, else
when it comes up (R413, R414). -/
def State.inject (s : State) (u n w : Nat) : Nat × State :=
  if s.injectMalformed u n w then (5, s)
  else if addressForm n then (0, s.setEcc (bitsOf w 45 7) (w % 4 + 1 + 65536))
  else
    let loc := w % 65536
    match verdict s.board.security .inject (s.injectColumn u n loc) with
    | .allow =>
      let s := match s.injectCore u n loc with
        | some k => s.ungate k
        | none => s
      let l := (s.armed.get [] u).filter fun a => a.num != n
      let s := { s with armed := s.armed.set [] u (l ++ [{ num := n, loc := loc, kind := bitsOf w 17 16 }]) }
      (0, if n = 0x306 ∨ n = 0x307 then s.causewayArmed (causewayOf u loc) else s)
    | .denied => (0x30, s)
    | _ => (0x11, s)

def execInject (u : Fin 5) (s : State) : Host.Outcome State Fault Refusal :=
  opNow u 0x60 (fun p s =>
    let (st, s) := s.inject u (p.w 0 % 65536) (p.w 1)
    (st, [], s)) s

/-! ### The recorder (R416, R418, R419) -/

/-- The entries that LOG_READ copies from an index, and the index after them (R418). -/
def Recorder.readFrom (q : Recorder) (first : Nat) : List Entry × Nat :=
  let dist := (q.next + 2 ^ 32 - first % 2 ^ 32) % 2 ^ 32
  let n := q.entries.length
  let es := if 2 ^ 31 ≤ dist then [] else (q.entries.drop (n - dist)).take 4096
  (es, match es.getLast? with
    | some e => (e.index + 1) % 2 ^ 32
    | none => q.next)

/-- LOG_READ (R418). -/
def State.logRead (s : State) (u first dst : Nat) : Nat × List W64 × State :=
  let (es, nxt) := (s.recorder u).readFrom first
  if dst % 64 ≠ 0 ∨ !s.inUsable dst (64 * es.length) then (5, [], s)
  else (0, [w64 es.length, w64 nxt], s.unitWrite u dst (es.flatMap Entry.bytes))

def execLogRead (u : Fin 5) (s : State) : Host.Outcome State Fault Refusal :=
  opNow u 0x61 (fun p s => s.logRead u (p.w 0) (p.w 1)) s

/-- A ring thaws: the gap entry, and the counts cleared (R419). -/
def State.thaw (s : State) (u : Nat) : State :=
  let n := (s.recorder u).dropped
  let s := s.updRec u fun q => { q with frozen := false, auto := false, dropped := 0 }
  let s := if n = 0 then s else s.detect u { code := 0x0707, sev := 0, loc := u, data0 := w64 n }
  s.updBoard fun b => { b with
    freezeArmed := !b.freezeTimer && [0, 1, 2, 3, 4].all fun v => !(s.recorder v).auto }

/-- LOG_FREEZE (R419). -/
def State.logFreeze (s : State) (u : Nat) (on : Bool) : Nat × List W64 × State :=
  if on then
    let s := s.updRec u fun q => { q with frozen := true }
    (0, [w64 (s.newest u)], s)
  else if (s.recorder u).copying then (0x10, [], s)
  else
    let s := s.thaw u
    (0, [w64 (s.newest u)], s)

def execLogFreeze (u : Fin 5) (s : State) : Host.Outcome State Fault Refusal :=
  opNow u 0x62 (fun p s => s.logFreeze u ((p.w 0).testBit 0)) s

/-! ### Meters and handoff (R387, R388) -/

def cap64 (n : Nat) : Nat := min n (2 ^ 64 - 1)

/-- The sixteen words of a meter record (R388). -/
def meterRecord (u : Nat) (m : Meters) : List W64 :=
  let ws := [1 + u * 65536 + m.handoffs % 2 ^ 32 * 2 ^ 32, m.active, m.vec, m.mat, m.stream, m.strait, m.rdBytes, m.wrBytes, m.txBytes,
    m.rxBytes, if u < 4 then 0 else m.energy, m.cycles, m.steps, 0, 0].map fun n => w64 (cap64 n)
  ws ++ [w64 (crc32c (ws.flatMap fun w => leBytes 8 w.toNat))]

/-- The board's meters: the sum over the dies, with the service core's own values and C0's steps (R388). -/
def State.boardMeters (s : State) : Meters :=
  let sum := fun (f : Meters → Nat) => [0, 1, 2, 3].foldl (fun n d => n + cap64 (f (s.die d).meters)) 0
  { handoffs := s.board.meters.handoffs, active := sum (·.active), vec := sum (·.vec), mat := sum (·.mat), stream := sum (·.stream),
    strait := sum (·.strait), rdBytes := sum (·.rdBytes), wrBytes := sum (·.wrBytes), txBytes := sum (·.txBytes),
    rxBytes := sum (·.rxBytes), energy := s.board.meters.energy, cycles := s.board.meters.cycles, steps := (s.die 0).meters.steps }

def State.meterWords (s : State) (u : Nat) : List W64 := meterRecord u (if u < 4 then (s.die u).meters else s.boardMeters)

/-- METER_READ (R388). -/
def execMeterRead (u : Fin 5) (s : State) : Host.Outcome State Fault Refusal :=
  opNow u 0x90 (fun _ s => (0, s.meterWords u, s)) s

/-- Meters after their record is taken: a handoff more (R387, R388). -/
def Meters.handedOff (m : Meters) : Meters := { handoffs := m.handoffs + 1 }

/-- Two byte ranges meet. -/
def rangesMeet (a n b m : Nat) : Bool := decide (a < b + m ∧ b < a + n)

/-- SCRUB is malformed (R387). -/
def State.scrubBad (s : State) (d first last : Nat) : Bool :=
  let a := d * dieWindow + first * mib2
  let n := (last + 1 - first) * mib2
  let q := s.punit d
  decide (last < first) || !decide (first * mib2 + n ≤ (s.die d).usable) || rangesMeet a n s.board.cmddir 4096
    || [0, 1, 2].any (fun r => (q.ring r).present && rangesMeet a n (q.ring r).base (256 * 2 ^ (q.ring r).log2))
    || (q.replyPresent && rangesMeet a n q.replyBase (1024 * 2 ^ q.replyLog2))

/-- Write zero over pages of a die's DRAM (R387). -/
def State.scrub (s : State) (d first last : Nat) : State :=
  let lo := d * dieWindow + first * mib2
  let hi := d * dieWindow + (last + 1) * mib2
  let out := fun (a : Nat) => decide (a < lo ∨ hi ≤ a)
  let s := { s with dram := { bytes := s.dram.bytes.filter fun e => out e.1, ecc := s.dram.ecc.filter fun e => out (e.1 * 128) } }
  s.countWr d (hi - lo)

/-- JOB_HANDOFF on a compute die (R387): the final record and the state. -/
def State.handoffDie (s : State) (d : Nat) (p : Packet) : List W64 × State :=
  let snap := s.holdsSnap d
  let s := (s.abortDie d true 0).handoffRegs d snap
  let s := if (p.w 0).testBit 0 then s.scrub d (p.w 1) (p.w 2) else s
  let ws := s.meterWords d
  (ws, s.updDie d fun x => { x with meters := x.meters.handedOff, image := none, taskState := 0 })

/-- JOB_HANDOFF (R387): it parks, and its reply carries the record. -/
def execJobHandoff (u : Fin 5) (s : State) : Host.Outcome State Fault Refusal :=
  opPark u 0xA0 (fun p s =>
    if u.val < 4 then
      if (p.w 0).testBit 0 && s.scrubBad u (p.w 1) (p.w 2) then (5, p.done 0 [], s)
      else
        let (ws, s) := s.handoffDie u p
        (0, p.done 0 ws, s)
    else
      let ws := s.meterWords u
      (0, p.done 0 ws, s.updBoard fun b => { b with meters := b.meters.handedOff })) s

end Sys2Proof.Machine
end

