-- ==== Sys2Proof/Machine/Service.lean ====
section
/-! DEFINITION. Firmware banks, measurements, attestation, unlocking, the power-state packets, and the completion of parked packets
(R373, R386, R389 to R402). -/

namespace Sys2Proof.Machine
open Sys2Proof

/-! ### Anchors, measurements and identity (R389, R390, R393, R395) -/

/-- The identity seed, the vendor root key and the operator debug key (R389). -/
def identitySeed : List Byte := (List.range 32).map Config.pufSeed
def vendorRootKey : List Byte := (List.range 60).map Config.vendorKey
def Board.operatorDebugKey (b : Board) : List Byte := (List.range 60).map (Config.blobOperatorKey b.blob)

/-- Measurement register i. -/
def Board.measure (b : Board) (i : Nat) : List Byte := b.meas.get (List.replicate 32 0) i

/-- The record that extends a measurement register (R393). -/
def measureRecord (code : BitVec 16) (comp version : Nat) (digest : List Byte) : List Byte :=
  leBytes 2 code.toNat ++ leBytes 2 (comp % 256) ++ leBytes 2 version ++ List.replicate 26 0 ++ digest

/-- Extend a measurement register: M = SHA-256(M ‖ r) (R393). The event code is free. -/
def State.extend (s : State) (i kind comp version : Nat) (digest : List Byte) : State :=
  s.updBoard fun b => { b with
    meas := b.meas.set (List.replicate 32 0) i
      (sha256 (b.measure i ++ measureRecord (Config.measureCode i kind) comp version digest)) }

/-- I and SEED of identity tree i (R395). -/
def treeId (i : Nat) : List Byte := (sha256 (identitySeed ++ [1] ++ beBytes 4 i)).take 16
def treeSeed (i : Nat) : List Byte := sha256 (identitySeed ++ [2] ++ beBytes 4 i)

/-- The 56-byte public key of identity tree i (R395). -/
def treePublic (i : Nat) : List Byte := lmsPublic 7 15 otsW4 (treeId i) (treeSeed i)

/-- A signature by leaf q of identity tree i; its randomizer of 32 bytes is free. -/
def treeSign (i q : Nat) (msg : List Byte) : List Byte := lmsSign 7 15 otsW4 (treeId i) (treeSeed i) q ((List.range 32).map (Config.lmotsRandom i q)) msg

/-- SHA-256 of the public key of identity tree 0, which a token names (R398). -/
def deviceDigest : List Byte := sha256 (treePublic 0)

/-- Words of a byte string's first 8 bytes: an entry's DATA2 (R416). -/
def digestWord (d : List Byte) : W64 := w64 (ofLe (d.take 8))

/-! ### Firmware banks (R391, R392) -/

/-- The conditions of R391 on an image of a component, as a status: 0, AUTH_FAILED for its signature, CHECK_FAILED for any other. -/
def Flash.imageStatus (f : Flash) (comp : Nat) (bs : List Byte) : Nat :=
  let len := imageField bs 12 4
  if bs.length ≠ 64 + len + hssLen then 0x20
  else if !hssVerify vendorRootKey (bs.drop (64 + len)) (bs.take (64 + len)) then 0x21
  else if imageField bs 0 4 ≠ 0x4657544D ∨ imageField bs 4 1 ≠ comp ∨ imageField bs 8 2 < f.floor.get 0 comp
      ∨ (bs.drop 16).take 32 ≠ sha256 ((bs.drop 64).take len) then 0x20
  else 0

/-- The image in a bank is valid (R391); of one as shipped VERSION alone is checked (DESIGN CHOICE: notes/assumptions/88). -/
def Flash.bankOk (f : Flash) (comp bank : Nat) : Bool :=
  if f.written comp bank then f.imageStatus comp (f.imageOf comp bank) == 0
  else decide (f.floor.get 0 comp ≤ f.versionOf comp bank)

def State.updFlash (s : State) (g : Flash → Flash) : State := s.updBoard fun b => { b with flash := g b.flash }

/-- The bank of a component that boot accepts: the active one, else the other (R392). -/
def State.bootBank (s : State) (comp die : Nat) : Option Nat :=
  let a := s.activeBank comp die
  if s.board.flash.fails then none
  else if s.board.flash.bankOk comp a then some a else if s.board.flash.bankOk comp (1 - a) then some (1 - a) else none

/-- Boot looks for a component's bank in boot flash; a read that fails is recorded (R392, R409). -/
def State.bootFind (s : State) (comp die : Nat) : Option Nat × State :=
  (s.bootBank comp die, if s.board.flash.fails then s.flashFault else s)

/-- A component runs with what a bank holds (R378, R385). -/
def State.runBank (s : State) (comp die bank : Nat) : State :=
  s.updBoard fun b => { b with runVersion := b.runVersion.set 0 (activeKey comp die) (b.flash.versionOf comp bank) }

/-- FW_STAGE (R392): the image is checked and stored in the inactive bank. -/
def State.fwStage (s : State) (p : Packet) : Nat × List W64 × State :=
  let comp := p.w 2 % 16
  let (bs, e, s) := s.unitRead 4 (p.w 0) (p.w 1)
  if e != .none then (0x40, [], s)
  else match s.board.flash.imageStatus comp bs with
    | 0 =>
      if s.board.flash.fails then (0x40, [], s.flashFault)
      else
        let bank := 1 - s.activeBank comp 0
        let s := s.updFlash fun x => { x with image := x.image.set [] (bankKey comp bank) bs }
        (0, [w64 (imageField bs 8 2)], s.updBoard fun b => { b with staged := b.staged.set 0 comp (bank + 1) })
    | st => (st, [], s)

/-- FW_STAGE starts (R378). -/
def execFwStage (u : Fin 5) (s : State) : Host.Outcome State Fault Refusal :=
  opPark u 0x30 (fun p s => (if 3 < p.w 2 % 16 then 5 else 0, p.waiting 0, s)) s

/-- The bank that FW_ACTIVATE names: the other bank for PREVIOUS, else the staged one where it is not active yet. -/
def State.activateBank (s : State) (comp die : Nat) (previous : Bool) : Option Nat :=
  let act := s.activeBank comp die
  if previous then some (1 - act)
  else if s.board.staged.get 0 comp = 1 - act + 1 then some (1 - act) else none

/-- FW_ACTIVATE starts: WRONG_STATE when nothing is staged (R378). -/
def execFwActivate (u : Fin 5) (s : State) : Host.Outcome State Fault Refusal :=
  opPark u 0x31 (fun p s =>
    let comp := p.w 0 % 16
    (if 3 < comp then 5 else if (s.activateBank comp u ((p.w 0).testBit 4)).isNone then 0x11 else 0, p.waiting 0, s)) s

/-- The controller reads its directory again with its indices kept (R386), and takes packets and replies where that gives it a reply
ring (R364): the one it serves, where a new CMDDIR waits for its
replies (R366). -/
def State.rereadDir (s : State) (u : Nat) : State :=
  let (bs, e, s) := s.unitRead u ((s.punit u).dir + 64 * u) 64
  let w := fun i => if e == .none then ofLe ((bs.drop (8 * i)).take 8) else 0
  let q := s.punit u
  let keep := fun (r : Nat) =>
    let x := dirRing (w (2 * r)) (w (2 * r + 1))
    let old := q.ring r
    { old with present := x.present, base := x.base, log2 := x.log2 }
  let rep := dirRing (w 6) (w 7)
  if q.ready then
    s.setPunit u { q with
      rings := [0, 1, 2].foldl (fun m r => m.set {} r (keep r)) [], replyPresent := rep.present, replyBase := rep.base
      replyLog2 := rep.log2, ready := rep.present }
  else s

/-- Load a die controller's firmware and start it at M (R383, R386). -/
def State.loadController (s : State) (d : Nat) (body : List Byte) : State :=
  s.updCore (592 + d) (fun c => { c with ctlBody := body, ctlMem := [] }) |>.startCtl (592 + d)

/-- DRAM that a boundary scan has lost is zeroed as at boot (R404). -/
def State.zeroAgain (s : State) (d : Nat) : State :=
  if (s.die d).zeroed then s else (s.dramLost d).updDie d fun x => { x with zeroed := x.trained }

/-- CQAGE.r.LIMIT as the configuration blob gives it (R374, R375). -/
def State.blobLimits (s : State) (u : Nat) : State :=
  s.updPunit u fun p => { p with ageLimit := [0, 1, 2].foldl (fun m r =>
    m.set 0x10000 r ((Config.blobAgeLimit s.board.blob r).getD 0x10000 % 2 ^ 20)) [] }

/-- The domain of a die at which its power-up sequence stops: die core, DDR PHY or strait SerDes (R426, R430). -/
def State.resumeStop (s : State) (d : Nat) : Option Nat := [12 * d + 9, 12 * d + 10, 12 * d + 11].find? fun n => s.board.failsNext.get false n

/-- A domain that the exit of a die from P3 switches on fails (R426). -/
def State.resumeFails (s : State) (d : Nat) : Bool :=
  (s.resumeStop d).isSome || (s.die d).activePos.any fun p => s.board.failsNext.get false (12 * d + p)

/-- Exit from P3: the causeways train, DRAM leaves self-refresh, the active atolls power up, the service core loads the controller's
firmware again, and a DRAINED die becomes LOADED. A directory read that waited is made, and deferred debug requests run (R366, R383,
R402, R404, R406). The sequence stops at a domain of the die that fails (R430). -/
def State.dieResume (s : State) (d : Nat) : State :=
  match s.resumeStop d with
  | some n => ((s.takeFail n).2.regulatorEntry (some n)).2
  | none =>
  let s := (s.dieDomains d).zeroAgain d
  let s := s.updDie d fun x => { x with retain := false, taskState := if x.taskState = 3 then 1 else x.taskState }
  let s := (s.blobLimits d).startAtolls d
  let s := match s.bootFind 0 d with
    | (none, s) => s
    | (some b, s) =>
      ((s.runBank 0 d b).updDie d fun x => { x with ctlRunning := true }).loadController d (s.board.flash.bodyOf 0 b)
  (s.tryDir d).runDeferredDie d

/-- FW_ACTIVATE (R386, R392, R393). -/
def State.fwActivate (s : State) (u : Nat) (p : Packet) : Nat × List W64 × State :=
  let comp := p.w 0 % 16
  match s.activateBank comp u ((p.w 0).testBit 4) with
  | none => (0x11, [], s)
  | some bank =>
    let f := s.board.flash
    if f.fails then (0x40, [], s.flashFault)
    else if !f.bankOk comp bank then (0x20, [], s)
    else
      let v := f.versionOf comp bank
      let dig := f.digestOf comp bank
      let s := s.updFlash fun x => { x with
        floor := x.floor.set 0 comp (max (x.floor.get 0 comp) (f.minverOf comp bank)), active := x.active.set 0 (activeKey comp u) bank }
      let s := s.extend 6 (if comp = 0 then 0 else 1) (if comp = 0 then u else comp) v dig
      let s := s.detect 4 { code := 0x0704, sev := 0, loc := comp, data0 := w64 comp, data1 := w64 v, data2 := digestWord dig }
      (0, [w64 v], if comp = 0 then ((s.runBank 0 u bank).loadController u (f.bodyOf comp bank)).rereadDir u
        else s)

/-! ### Attestation (R394, R395) -/

/-- Re-enrolment: leaf 32,767 certifies the next tree (R395). -/
def State.reenrol (s : State) (i : Nat) : State :=
  let link := treePublic (i + 1) ++ treeSign i 32767 (treePublic (i + 1))
  let s := s.updFlash fun x => { x with
    links := x.links.set [] (i + 1) link, leaf := x.leaf.set 0 i 32768, seedIdx := i + 1 }
  s.detect 4 { code := 0x0705, sev := 0, loc := i + 1, data0 := w64 i, data1 := w64 (i + 1),
               data2 := digestWord (sha256 (treePublic (i + 1))) }

/-- The first 376 bytes of a quote, which its signature covers (R394). -/
def State.quoteBody (s : State) (i q : Nat) (nonce : List W64) : List Byte :=
  leBytes 4 0x5154544D ++ leBytes 2 1 ++ leBytes 2 s.board.security ++ leBytes 4 i ++ leBytes 4 q
    ++ (nonce.take 4).flatMap (fun w => leBytes 8 w.toNat) ++ leBytes 4 s.board.flash.vendorEntries ++ List.replicate 12 0
    ++ (List.range 8).flatMap s.board.measure ++ treePublic i

/-- ATTEST writes a quote; a counter that boot flash does not advance replies HW_FAULT (R394, R409). -/
def State.attest (s : State) (p : Packet) : Nat × List W64 × State :=
  let i0 := s.board.flash.seedIdx
  let spent := s.board.flash.leaf.get 0 i0 = 32767
  if (spent && i0 == 1023) || decide (32767 < s.board.flash.leaf.get 0 i0) || !s.board.seedPresent then (0x40, [], s)
  else if s.board.flash.fails then (0x40, [], s.flashFault)
  else
    let s := if spent then s.reenrol i0 else s
    let i := s.board.flash.seedIdx
    let q := s.board.flash.leaf.get 0 i
    let s := s.updFlash fun x => { x with leaf := x.leaf.set 0 i (q + 1) }
    let body := s.quoteBody i q p.params
    let quote := body ++ treeSign i q body ++ (List.range i).flatMap fun j => s.board.flash.links.get [] (j + 1)
    (0, [w64 (3044 + 2724 * i), w64 q], s.unitWrite 4 (p.w 4 % 2 ^ 46) quote)

def execAttest (u : Fin 5) (s : State) : Host.Outcome State Fault Refusal := opNow u 0x70 (fun p s => s.attest p) s

/-! ### Unlocking (R396 to R399) -/

/-- The challenge for a value of UNLOCK (R398). -/
def challengeOf (n : Nat) : List Byte := sha256 (identitySeed ++ [3] ++ beBytes 4 n)

/-- A refused DEBUG_UNLOCK is recorded, with the digest of the token where one was read (R409: 0x0702, R416). -/
def State.unlockRefused (s : State) (st : Nat) (dig : List Byte) : Nat × List W64 × State :=
  (st, [], s.detect 4 { code := 0x0702, sev := 0, loc := 0, data0 := w64 s.board.security, data1 := w64 s.board.security,
                        data2 := digestWord dig })

/-- MODE 0: a new challenge (R398). Without an advance of UNLOCK there is none (R390, R409; DESIGN CHOICE for the status:
notes/assumptions/169). -/
def State.unlockChallenge (s : State) : Nat × List W64 × State :=
  let n := s.board.flash.unlock
  if s.board.security = 2 then s.unlockRefused 0x11 []
  else if 65536 ≤ n then s.unlockRefused 0x40 []
  else if s.board.flash.fails then s.flashFault.unlockRefused 0x40 []
  else
    let c := challengeOf (n + 1)
    (0, wordsOf c, (s.updFlash fun x => { x with unlock := n + 1 }).updBoard fun b => { b with challenge := some c })

/-- R396 allows a transition: upward, and to OPERATOR only where the blob's key is not all zero. -/
def unlockAllowed (key : List Byte) (present target : Nat) : Bool :=
  decide (present < target ∧ target ≤ 2) && (target == 2 || key.any (· != 0))

/-- The checks of R399 on a token's bytes, in order; 0 where all pass. -/
def State.tokenCheck (s : State) (tok challenge : List Byte) : Nat :=
  let f := fun (o n : Nat) => ofLe ((tok.drop o).take n)
  let target := f 6 1
  let key := s.board.operatorDebugKey
  if f 0 4 ≠ 0x4B55544D ∨ f 4 2 ≠ 1 ∨ (tok.drop 8).take 32 ≠ challenge ∨ (tok.drop 40).take 32 ≠ deviceDigest then 0x21
  else if !unlockAllowed key s.board.security target then 0x11
  else if !hssVerify (if target = 2 then vendorRootKey else key) (tok.drop 80) (tok.take 80) then 0x21
  else 0

/-- The security state changes (R393, R396, R397). -/
def State.enterSecurity (s : State) (target : Nat) (dig : List Byte) : State :=
  let old := s.board.security
  let s := if target = 2 then s.updFlash fun x => { x with vendorEntries := x.vendorEntries + 1 } else s
  let s := s.extend 5 1 0 target dig
  let s := s.updBoard fun b => { b with
    security := target, challenge := none, seedPresent := if target = 2 then false else b.seedPresent }
  s.detect 4 { code := 0x0701, sev := 0, loc := 0, data0 := w64 old, data1 := w64 target, data2 := digestWord dig }

/-- MODE 1: present a token; the challenge is used up whatever the outcome (R399). -/
def State.unlockToken (s : State) (pa n : Nat) : Nat × List W64 × State :=
  let ch := s.board.challenge
  let s := s.updBoard fun b => { b with challenge := none }
  if n ≠ 3684 ∨ !s.inUsable pa 3684 then s.unlockRefused 5 []
  else match ch with
    | none => s.unlockRefused 0x11 []
    | some c =>
      let (tok, e, s) := s.unitRead 4 pa 3684
      if e != .none then s.unlockRefused 0x40 []
      else match s.tokenCheck tok c with
        | 0 =>
          let target := (tok.getD 6 0).toNat
          if target = 2 ∧ 4096 ≤ s.board.flash.vendorEntries then s.unlockRefused 0x40 (sha256 tok)
          else if target = 2 ∧ s.board.flash.fails then s.flashFault.unlockRefused 0x40 (sha256 tok)
          else (0, [w64 target], s.enterSecurity target (sha256 tok))
        | st => s.unlockRefused st (sha256 tok)

/-- DEBUG_UNLOCK (R398, R399). -/
def execDebugUnlock (u : Fin 5) (s : State) : Host.Outcome State Fault Refusal :=
  opNow u 0x71 (fun p s => if p.w 0 % 2 = 0 then s.unlockChallenge else s.unlockToken (p.w 1) (p.w 2)) s

/-! ### Power states (R400 to R403, R407) -/

/-- A mainland core is debug-halted. -/
def State.debugHaltedMainland (s : State) : Bool := (rangeFrom mainland0 16).any fun k => (s.core k).dbgHalted

/-- A core of a die is debug-halted. -/
def State.debugHaltedDie (s : State) (d : Nat) : Bool := (List.range 9).any (s.debugHaltedAt d)

/-- POWER_STATE on a die controller: states 0 to 2 with a mask (R402, R407). -/
def State.powerCheckDie (s : State) (d st mask : Nat) : Nat :=
  let x := s.die d
  let on := fun (a : Nat) => (s.atoll (d * 9 + x.position a)).powered
  if st = 0 then (if (atollsIn mask).all on then 0 else 0x11)
  else if st = 1 then 0
  else if st = 2 then
    (if (atollsIn mask).all fun a => x.isOffline a && !s.debugHaltedAt d (x.position a) then 0 else 0x11)
  else 5

/-- POWER_STATE on the service core: state 3 or 0 with a die, or state 4 (R400, R402, R407). -/
def State.powerCheckService (s : State) (st d : Nat) : Nat :=
  let x := s.die d
  if st = 0 then 0
  else if st = 3 then
    (if x.retain then 0
    else if (x.taskState = 2 ∨ 1 < x.eng.state) ∨ s.debugHaltedDie d then 0x11 else 0)
  else if st = 4 then
    (if ([0, 1, 2, 3].all fun d => (s.die d).taskState == 0 && !s.debugHaltedDie d) ∧ !s.debugHaltedMainland then 0 else 0x11)
  else 5

/-- POWER_STATE starts; it parks until the state is reached (R402). -/
def execPowerState (u : Fin 5) (s : State) : Host.Outcome State Fault Refusal :=
  opPark u 0x80 (fun p s =>
    let w := p.w 0
    let st := if u.val < 4 then (if bitsOf w 9 8 ≠ 0 then 5 else s.powerCheckDie u (w % 8) (bitsOf w 23 16))
      else s.powerCheckService (w % 8) (bitsOf w 9 8)
    (st, p.waiting 0, s)) s

/-- The power state of a die's atolls is set (R401, R402). -/
def State.atollPower (s : State) (d st mask : Nat) : State :=
  (atollsIn mask).foldl (fun s a =>
    let p := (s.die d).position a
    if st = 2 then (if (s.atoll (d * 9 + p)).powered then s.atollOff d p else s)
    else
      let s := s.updDie d fun x => { x with p1en := setBit x.p1en a (st == 1) }
      if st = 0 then s.updAtoll (d * 9 + p) fun x => { x with gated := false } else s) s

/-- The mainland die's cores and cache, and its I/O, switch off; a trace ends, and a deferred request stays (R403, R406, R407). -/
def State.mainlandOff (s : State) : State :=
  let s := (rangeFrom mainland0 16).foldl (fun s k =>
    (s.endTrace k).updCore k fun c => ({ dbgDeferred := c.dbgDeferred } : Core)) s
  ((s.setAtoll 36 {}).dropDomains [48, 49]).updBoard fun b => { b with
    mainlandOn := false, mioOn := false, pcieUp := false, pcieD3 := false, pcieTable := [], pcieBars := [], doorbellPage := [], cmddir := 0, mctr := 0 }

/-- What a command unit keeps while the board is off, its core being powered: CQAGE and CQPROMO of the service core (R375, R403). -/
def PUnit.kept (u : PUnit) : PUnit := { promo := u.promo, ageLimit := u.ageLimit }

/-- Every domain but the service domain switches off (R402, R403, R427). -/
def State.allOff (s : State) : State :=
  let s := [0, 1, 2, 3].foldl (fun s d => s.dieOff d) s
  let s := ((s.mainlandOff.updPunit 4 PUnit.kept).dropDomains [55, 56, 57, 58]).updBoard fun b => { b with nvmeOn := [], causeway := [] }
  { s with wireMsgs := [], wireAcks := [], wireWakes := [] }

/-- Emergency off: every domain but the service domain switches off (R427). -/
def State.emergency (s : State) : State := s.allOff.updBoard fun b => { b with emergencyOff := true, standby := false }

/-- P4 is entered (R402). -/
def State.enterStandby (s : State) : State := s.allOff.updBoard fun b => { b with standby := true }

/-! ### PARKED_PACKET_COMPLETE (R373) -/

/-- The end of a parked packet that runs its effect now: status, results, and the state; none where it waits for another event. -/
def State.parkedRun (s : State) (u : Nat) (x : Parked) : Option (Nat × List W64 × State) :=
  let p := x.pkt
  if x.ready then some (x.status, x.results, s)
  else if p.opc = 0x10 then some (s.loadImage u p)
  else if p.opc = 0x30 then some (s.fwStage p)
  else if p.opc = 0x31 then
    (if p.w 0 % 16 ≠ 0 ∨ (s.punit u).current.isNone && [0, 1].all (fun r => ((s.punit u).ring r).parked.isNone) then some (s.fwActivate u p) else none)
  else if p.opc = 0x41 then
    match x.train with
    | some (port, old, r) => some (s.trainEnd port old r)
    | none => none
  else if p.opc = 0x52 then
    match s.restore with
    | some q => match q.result with
      | some ok => some (if ok then 0 else 0x20, if ok then [w64 q.got] else [], { s with restore := none })
      | none => none
    | none => none
  else if p.opc = 0x80 then
    let st := p.w 0 % 8
    let d := bitsOf (p.w 0) 9 8
    if u < 4 then some (0, [w64 st], s.atollPower u st (bitsOf (p.w 0) 23 16))
    else if st = 3 then some (0, [3], if (s.die d).up then s.dieRetain d else s)
    else if st = 0 then
      (if (s.die d).retain then
        some (if s.resumeFails d then (0x40, [], s.dieResume d) else (0, [0], s.dieResume d))
      else some (0, [0], s))
    else some (0, [4], s)
  else none

/-- What follows the reply of a POWER_STATE on the service core: P4, or emergency off where an exit from P3 stopped at a domain of
the die (R402, R426). -/
def State.powerAfter (s t : State) (u : Nat) (x : Parked) (st : Nat) : State :=
  if u = 4 ∧ x.pkt.opc = 0x80 ∧ !x.ready then
    let d := bitsOf (x.pkt.w 0) 9 8
    if x.pkt.w 0 % 8 = 4 ∧ st = 0 then t.enterStandby
    else if x.pkt.w 0 % 8 = 0 ∧ (s.die d).retain ∧ (s.resumeStop d).isSome then t.emergency
    else t
  else t

/-- A parked packet replies. In P4 the reply is written before the domains switch off (R402). -/
def execParkedPacketComplete (u : Fin 5) (ring : Fin 3) (s : State) : Host.Outcome State Fault Refusal :=
  if !s.unitUp u || (s.punit u).replyFull then .next s
  else match ((s.punit u).ring ring).parked with
    | none => .next s
    | some x => match s.parkedRun u x with
      | none => .next s
      | some (st, ws, t) => .next (s.powerAfter (t.unpark u ring st ws) u x st)

end Sys2Proof.Machine
end

