-- ==== Sys2Proof/Machine/Boot.lean ====
section
/-! DEFINITION. Power-on, boot, faults of power and temperature, resets, the automatic freeze, and the board's ports to the outside
(R383, R384, R392, R393, R419 to R442). -/

namespace Sys2Proof.Machine
open Sys2Proof

/-! ### Power-on (R422, R429, R432) -/

/-- The board right after power-on of the service domain, or with the input off: boot flash, the modules in their sockets and the lanes of
the causeways keep what they are, and so do the queue and the model's own count of free values. -/
def State.fresh (s : State) (on : Bool) : State :=
  { dies := [0, 1, 2, 3].foldl (fun m d => m.set {} d ({ dimms := (s.die d).dimms } : Die)) [], free := s.free, pending := s.pending,
    board := { flash := s.board.flash, cwLanes := s.board.cwLanes, inputOn := on, servicePowered := on } }

/-- The input rises through 44.0 V (R422). -/
def execInputPowerOn (s : State) : Host.Outcome State Fault Refusal := .next (if s.board.inputOn then s else s.fresh true)

/-- The input falls below 40.0 V: every domain switches off (R422). -/
def execInputBelow40v (s : State) : Host.Outcome State Fault Refusal := .next (s.fresh false)

/-- Cold reset: every domain is off for 100 ms, and the board starts as on a rising input (R432). -/
def execColdReset (src : ColdSource) (s : State) : Host.Outcome State Fault Refusal :=
  .next (match src with
    | .pin => if s.board.inputOn then s.fresh true else s
    | .management => if s.board.servicePowered then s.fresh true else s)

/-! ### Boot (R384, R385, R392, R393, R420) -/

/-- The crash copy is restored into the rings where it is complete and not yet loaded (R420), and boot flash can be read (R409). -/
def State.restoreCrash (s : State) : State :=
  let f := s.board.flash
  if f.crashValid && !f.crashLoaded then
    if f.fails then s.flashFault else
    let s := f.crash.zipIdx.foldl (fun s q =>
      s.setRec q.2 { q.1 with frozen := false, auto := false, copying := false, dropped := 0 }) s
    s.updFlash fun x => { x with crashLoaded := true }
  else s

/-- The boot entry in each ring (R409, R420). -/
def State.bootEntries (s : State) : State := [0, 1, 2, 3, 4].foldl (fun s u => s.detect u { code := 0x0706, sev := 0, loc := 0 }) s

/-- A fallback to the other bank is recorded and extends M4 (R392, R393). -/
def State.noteFallback (s : State) (comp die bank : Nat) : State :=
  if bank = s.activeBank comp die then s
  else
    let v := s.board.flash.versionOf comp bank
    let dig := s.board.flash.digestOf comp bank
    (s.detect 4 { code := 0x0703, sev := 0, loc := comp, data0 := w64 comp, data1 := w64 v, data2 := digestWord dig }).extend 4
      (if comp = 0 then 0 else 2) (if comp = 0 then die else comp) v dig

/-- Measure a bank into a register (R393). -/
def State.measureBank (s : State) (reg comp die bank : Nat) : State :=
  s.extend reg 0 (if comp = 0 then die else comp) (s.board.flash.versionOf comp bank) (s.board.flash.digestOf comp bank)

/-- The atoll map that boot flash retains for a die (R384, R386): where none is recorded, logical atoll k stands at position k. CORE.ID
follows this map and not the blob (R13 calls its fields `cfg`; DESIGN CHOICE: notes/assumptions/188). -/
def Flash.mapOf (f : Flash) (d : Nat) : SMap Nat :=
  (List.range 8).foldl (fun m a => m.set a a (f.atollMaps.get a (d * 8 + a))) []

/-- Code of a module's speed bin; 3 for a bin that the board does not support (R281, R286). -/
def Dimm.bin (m : Dimm) : Nat := if m.mts = 8800 then 0 else if m.mts = 9600 then 1 else if m.mts = 11200 then 2 else 3

/-- A module type that the board supports (R281). -/
def Dimm.supported (m : Dimm) : Bool := m.x4 && m.ranks == 2 && (m.gb == 64 || m.gb == 96) && m.bin != 3

/-- Two modules are identical in capacity, speed bin and organisation (R3). -/
def Dimm.same (a b : Dimm) : Bool := a.gb == b.gb && a.mts == b.mts && a.x4 == b.x4 && a.ranks == b.ranks

/-- The fault that boot finds in a die's eight sockets: 0 none, 1 empty socket, 2 unsupported module, 3 mismatch, 4 training; where
several hold, the lowest (R3, R281, R385; DESIGN CHOICE: notes/assumptions/136). -/
def dimmFaultOf (ms : List (Option Dimm)) : Nat :=
  let all := ms.filterMap id
  if all.length < 8 then 1
  else if !all.all Dimm.supported then 2
  else if !all.all (fun m => m.same (all.headD {})) then 3
  else if !all.all (·.trains) then 4
  else 0

/-- The sockets whose channels train, as bits. -/
def socketsTrained (ms : List (Option Dimm)) : Nat :=
  let f := dimmFaultOf ms
  if f = 1 ∨ f = 2 ∨ f = 3 then 0
  else ms.zipIdx.foldl (fun n m => setBit n m.2 (m.1.any (·.trains))) 0

/-- The controller checks the modules of its die and trains them (R3, R281, R385). Of a die that does not train, DDRCFG.BIN is free
(DESIGN CHOICE: notes/assumptions/137). -/
def State.trainMemory (s : State) (d : Nat) : State :=
  let x := s.die d
  let f := dimmFaultOf x.dimms
  let m := (x.dimms.headD none).getD {}
  let (n, s) := if f = 0 then (0, s) else s.draw
  s.updDie d fun x => { x with
    trained := f == 0, zeroed := f == 0, dimmFault := f, sockets := socketsTrained x.dimms
    bin := if f = 0 then min m.bin (Config.blobBinCap s.board.blob % 4) else Config.freeNat n % 4
    dramCap := if f ≠ 0 then 0 else if m.gb = 64 then 1 else 2 }

/-- The controller's part of a die's boot: the modules are checked and trained, DRAM is zeroed, the active atolls power up with
their cores held at M, but for one whose domain fails (R281, R384, R426). The self-tests of boot pass (DESIGN CHOICE:
notes/assumptions/18). -/
def State.bootController (s : State) (d : Nat) : State :=
  let s := ((s.blobLimits d).trainMemory d).updDie d fun x => { x with ctlRunning := true }
  s.startAtolls d

/-- A die's boot: its domains, its firmware and controller (R384, R392). -/
def State.bootDie (s : State) (d : Nat) : State :=
  let s := (s.updDie d fun x => ({ x.kept with atollMap := s.board.flash.mapOf d } : Die)).dieDomains d
  match s.bootFind 0 d with
  | (none, s) => s
  | (some b, s) =>
    let s := ((s.noteFallback 0 d b).measureBank 2 0 d b).runBank 0 d b
    (s.loadController d (s.board.flash.bodyOf 0 b)).bootController d

/-- The mainland die starts: the boot image is copied into die 0's DRAM and the cores are released at M (R383, R384). Their GATEBASE.M
is 0 until that image's code writes it (R75). -/
def State.bootMainland (s : State) : State :=
  let s := s.updBoard fun b => { b with
    mainlandOn := true, mioOn := true, pcieUp := true, nvmeOn := [0, 1, 2, 3].foldl (fun m i => m.set false i true) [] }
  match s.bootFind 2 0 with
  | (none, s) => s
  | (some b, s) =>
    let s := ((s.noteFallback 2 0 b).measureBank 3 2 0 b).runBank 2 0 b
    let s := s.unitWrite 4 Config.bootImageBase (s.board.flash.bodyOf 2 b)
    (rangeFrom 576 16).foldl (fun s k => s.updCore k fun c => { run := .running, pc := Config.coreResetPc, dbgDeferred := c.dbgDeferred }) s

/-- An NVMe slot's domain fails: the drive disappears, with 0x0609 (R426). -/
def State.slotFault (s : State) (slot : Nat) : State :=
  let (inj, s) := s.regulatorEntry (some (55 + slot))
  ((s.dropDomains [55 + slot]).updBoard fun b => { b with nvmeOn := b.nvmeOn.set false slot false }).detect 4
    { code := 0x0609, sev := 0, loc := slot, injected := inj }

/-- The rail of an OSFP cage fails: the strait SerDes group of its die goes off at once (R425). The manual gives the fault no other
handling (DESIGN CHOICE: notes/assumptions/168). -/
def State.osfpFault (s : State) (cage : Nat) : State :=
  let s := (s.regulatorEntry none).2.updBoard fun b => { b with osfpFailed := b.osfpFailed.set false cage true }
  if (s.die (cage / 2)).serdes then s.serdesOff (cage / 2) else s

/-- Supplies, by key, in the order in which a boot enables them, that the board cannot do without (R426, R430). -/
def sequence : List Nat :=
  [59, 60, 61, 62, 63, 64, 51, 52, 53, 54] ++ [9, 21, 33, 45, 49] ++ [10, 22, 34, 46, 11, 23, 35, 47, 48]

/-- NVMe slots and OSFP rails that fail as they are enabled (R426). -/
def State.lesserFaults (s : State) : State :=
  let s := (List.range 4).foldl (fun s i => if (s.takeFail (55 + i)).1 then (s.takeFail (55 + i)).2.slotFault i else s) s
  (List.range 8).foldl (fun s p => if (s.takeFail (65 + p)).1 then (s.takeFail (65 + p)).2.osfpFault p else s) s

/-- The boot sequence from its 110 ms step (R384, R402, R427). It stops at a supply that fails, for which R426 asks emergency off
(R430; DESIGN CHOICE for the others: notes/assumptions/168). -/
def State.boot110 (s : State) : State :=
  let s := s.updBoard fun b => { b with standby := false, emergencyOff := false, osfpFailed := [] }
  match sequence.find? fun n => s.board.failsNext.get false n with
  | some n => ((s.takeFail n).2.regulatorEntry (if n < 59 then some n else none)).2.emergency
  | none =>
    let s := [0, 1, 2, 3].foldl (fun s d => s.bootDie d) s
    let s := s.bootMainland.lesserFaults.runDeferredMainland
    [0, 1, 2, 3].foldl (fun s d => s.runDeferredDie d) s

/-- The service core's boot steps: the count of power-ons, the crash copy, its firmware, the blob, the floors and entries (R384,
R392, R393, R416, R420). -/
def State.bootService (s : State) (bank : Nat) : State :=
  let s := ((s.noteFallback 1 0 bank).measureBank 0 1 0 bank).runBank 1 0 bank
  let s := s.updBoard fun b => { b with serviceFwOk := true }
  let s := s.updCore 596 fun _ => { mfw := true, run := .running, pc := 0x3FFFFFF00000, ctlBody := s.board.flash.bodyOf 1 bank }
  let s := match s.bootFind 3 0 with
    | (some b, s) =>
      (((s.noteFallback 3 0 b).measureBank 1 3 0 b).runBank 3 0 b).updBoard fun x => { x with blob := x.flash.bodyOf 3 b }
    | (none, s) => s
  let s := s.blobLimits 4
  let s := [0, 1, 2, 3].foldl (fun s c => s.extend 4 1 c (s.board.flash.floor.get 0 c) (List.replicate 32 0)) s
  s.extend 5 0 0 s.board.flash.vendorEntries (List.replicate 32 0)

/-- The service domain reaches power-good, and the board boots: one command for the whole sequence (R384; DESIGN CHOICE:
notes/assumptions/19). With no valid service firmware the service core halts (R392). -/
def execServicePowerGood (s : State) : Host.Outcome State Fault Refusal :=
  if s.board.servicePowered && !s.board.serviceGood then
    let s := (s.updBoard fun b => { b with serviceGood := true }).updFlash fun x => { x with boots := (x.boots + 1) % 2 ^ 32 }
    let s := s.restoreCrash.bootEntries
    .next (match s.bootFind 1 0 with
      | (some b, s) => (s.bootService b).boot110
      | (none, s) => (s.updCore 596 fun c => { c with mfw := true, pc := 0x3FFFFFF00000 }).halt 596 0 0)
  else .next s

/-! ### Emergency off (R422, R426, R427, R442) -/

/-- A sample of the input voltage: an armed injection of 0x0601 makes it exceed its limit, by how much is free (R414; DESIGN CHOICE:
notes/assumptions/170). Answers the sample, and whether it was injected. -/
def State.inputSample (s : State) (mv limit : Nat) (above : Bool) : (Nat × Bool) × State :=
  let (inj, s) := s.spend 0x0601 0
  if inj then
    let (n, s) := s.draw
    ((if above then max mv (limit + 1 + Config.freeNat n) else min mv (limit - 1 - Config.freeNat n % limit), true), s)
  else ((mv, false), s)

/-- The input leaves its limit, above it or below it: 0x0601 and emergency off (R422). -/
def State.inputFault (s : State) (mv limit : Nat) (above : Bool) : State :=
  let beyond := fun (v : Nat) => if above then decide (limit < v) else decide (v < limit)
  let ((v, inj), s) := s.inputSample mv limit above
  if s.board.servicePowered && beyond v then (s.boardFatal 0x0601 0 (w64 v) (w64 limit) (inj && !beyond mv)).emergency else s

/-- Input below 46.0 V for 1 ms (R422). -/
def execInputUndervoltage (mv : Nat) (s : State) : Host.Outcome State Fault Refusal :=
  .next (s.inputFault mv 46000 false)

/-- Input above 62.0 V for 50 µs (R422). -/
def execInputOvervoltage (mv : Nat) (s : State) : Host.Outcome State Fault Refusal :=
  .next (s.inputFault mv 62000 true)

/-- A power domain is on (R425). -/
def State.domainOn (s : State) (n : Nat) : Bool :=
  if n < 48 then
    let d := s.die (n / 12)
    if n % 12 < 9 then (s.atoll (n / 12 * 9 + n % 12)).powered
    else d.up && (if n % 12 = 10 then d.phy else if n % 12 = 11 then d.serdes else true)
  else if n = 48 then s.board.mainlandOn
  else if n = 49 then s.board.mioOn
  else if n = 50 then s.board.servicePowered
  else if n < 55 then (s.die (n - 51)).dimmOn
  else s.board.nvmeOn.get false (n - 55)

/-- The rails that the boot sequence enables first are on. -/
def State.railsOn (s : State) : Bool := s.unitUp 4 && !s.board.standby && !s.board.emergencyOff

/-- A supply is on. -/
def State.supplyOn (s : State) : Supply → Bool
  | .domain n => s.domainOn n
  | .ibus => s.railsOn
  | .vin _ => s.railsOn
  | .osfp p => s.railsOn && !s.board.osfpFailed.get false p

/-- The fault of a domain that is on, handled by its kind (R426). -/
def State.regulator (s : State) (n : Nat) : State :=
  if n < 48 ∧ n % 12 < 9 then ((s.regulatorEntry (some n)).2).atollFault (n / 12) (n % 12)
  else if n = 50 then ((s.regulatorEntry (some n)).2).fresh false
  else if 55 ≤ n then s.slotFault (n - 55)
  else ((s.regulatorEntry (some n)).2).emergency

/-- The fault of a supply that is on (R425, R426). -/
def State.supplyFails (s : State) : Supply → State
  | .domain n => s.regulator n
  | .ibus => (s.regulatorEntry none).2.emergency
  | .vin _ => (s.regulatorEntry none).2.emergency
  | .osfp p => s.osfpFault p

/-- A supply's fault: now where it is on, else as it is enabled next, so that the packet or the sequence that switches it on meets it
(R426, R430; DESIGN CHOICE: notes/assumptions/168). -/
def State.supplyFault (s : State) (x : Supply) : State :=
  if s.supplyOn x then s.supplyFails x
  else if s.board.servicePowered then s.updBoard fun b => { b with failsNext := b.failsNext.set false (supplyKey x) true }
  else s

/-- A regulator leaves its limits (R426). -/
def execRegulatorFault (supply : Supply) (s : State) : Host.Outcome State Fault Refusal := .next (s.supplyFault supply)

/-- A rail is not good within 5 ms of being enabled (R426). -/
def execRailNotGoodTimeout (supply : Supply) (s : State) : Host.Outcome State Fault Refusal := .next (s.supplyFault supply)

/-- The root PLL loses lock: 0x0602 with LOC 50, then as the input falling below 40.0 V (R426). -/
def execRootPllLockLoss (s : State) : Host.Outcome State Fault Refusal := .next (if s.domainOn 50 then s.regulator 50 else s)

/-- A wake request: in P4 or emergency off the boot sequence runs from its 110 ms step, unless a sensor is above its warning limit or
a leak sensor reports (R400, R427). -/
def execWakeRequest (_src : WakeSource) (s : State) : Host.Outcome State Fault Refusal :=
  let b := s.board
  .next (if s.unitUp 4 && (b.standby || b.emergencyOff) && b.hot.isEmpty && b.leak.isEmpty then s.boot110 else s)

/-! ### Resets and watchdogs (R409, R432) -/

/-- PERST#, hot reset or link down: link, configuration space and inbound window table of the PCIe endpoint (R432). -/
def execPcieReset (s : State) : Host.Outcome State Fault Refusal :=
  .next (s.updBoard fun b => { b with pcieUp := false, pcieD3 := false, pcieTable := [], pcieBars := [] })

/-- TRST_N resets the five TAP controllers (R432). -/
def execTapReset (s : State) : Host.Outcome State Fault Refusal := .next (s.updBoard fun b => { b with tapIr := [], tapOut := [] })

/-- The service-core watchdog: FATAL, and a reset of the service core, which starts its firmware again. Its memory, rings and packets
are kept (R409, R432; DESIGN CHOICE: notes/assumptions/20). -/
def execServiceWatchdog (s : State) : Host.Outcome State Fault Refusal :=
  if s.unitUp 4 then
    let (inj, s) := s.spend 0x0606 0
    let s := s.detect 4 { code := 0x0606, sev := 4, loc := 0, injected := inj }
    .next (s.updCore 596 fun c =>
      { mfw := true, run := .running, pc := 0x3FFFFFF00000, ctlBody := c.ctlBody, ctlMem := c.ctlMem })
  else .next s

/-- The die-controller watchdog: FATAL, MCHECK on the service core (R409, R412). -/
def execDieControllerWatchdog (die : Fin 4) (s : State) : Host.Outcome State Fault Refusal :=
  if (s.die die).up && (s.die die).ctlRunning then
    let (a, s) := s.takeArmed die 0x030B die
    .next ((s.detect die { code := 0x030B, sev := 4, loc := die, injected := a.isSome }).fatalToCtl 4 0x030B a.isSome die)
  else .next s

/-! ### Samples (R423, R442) -/

/-- The energy of 1 ms at a voltage and a current: whole millijoules are counted, the rest in nanojoules is kept (R423). -/
def Meters.sampled (m : Meters) (mv ma : Nat) : Meters :=
  { m with energy := m.energy + (m.energyRest + mv * ma) / 1000000, energyRest := (m.energyRest + mv * ma) % 1000000 }

/-- The power monitor's sample of 1 ms: voltage, current and energy in millijoules (R388, R423). An armed injection of 0x0601 makes
it exceed its limit (R414). -/
def execPowerMonitorSample (mv ma : Nat) (s : State) : Host.Outcome State Fault Refusal :=
  .next (if s.board.servicePowered then
    let ((v, inj), s) := s.inputSample mv 62000 true
    let s := s.updBoard fun b => { b with lastMv := v, lastMa := ma, meters := b.meters.sampled v ma }
    if inj then (s.boardFatal 0x0601 0 (w64 v) (w64 62000) true).emergency else s
  else s)

/-- Warning and critical limits of a sensor in millidegrees; a drive's own for an NVMe slot (R442). -/
def tempLimits (n : Nat) (warn crit : Int) : Int × Int :=
  if n < 5 then (95000, 105000)
  else if n < 37 then (85000, 95000)
  else if n < 41 then (warn, crit)
  else if n < 49 then (70000, 80000)
  else if n = 49 then (45000, 50000)
  else if n = 50 then (60000, 65000)
  else (40000, 50000)

/-- A temperature sample: 0x0603 once per crossing of the warning limit, with its NOTICE; 0x0604 and emergency off above the critical
limit (R442). An armed injection makes the sample exceed its limit, by how much is free (R414; DESIGN CHOICE:
notes/assumptions/170). -/
def State.temperature (s : State) (n : Nat) (t : Int) (warn crit : Int) : State :=
  let (w, c) := tempLimits n warn crit
  let (iw, s) := s.spend 0x0603 n
  let (ic, s) := s.spend 0x0604 n
  let (f, s) := if iw || ic then s.draw else (0, s)
  let t := if ic then max t (c + 1 + Config.freeNat f) else if iw then max t (w + 1 + Config.freeNat f % max 1 (c - w).toNat) else t
  let crossed := decide (w < t) && !s.board.warned.get false n
  let s := s.updBoard fun b => { b with
    temps := b.temps.set 0 n t, hot := b.hot.set false n (decide (w < t))
    warned := if crossed then b.warned.set false n true else if t ≤ w - 5000 then b.warned.set false n false else b.warned }
  let s := if crossed then
      (s.detect 4 { code := 0x0603, sev := 0, loc := n, data0 := w64i t, data1 := w64i w, injected := iw || ic }).notice mainland0 0x0603
    else s
  if c < t then
    (s.detect 4 { code := 0x0604, sev := 4, loc := n, data0 := w64i t, data1 := w64i c, injected := iw || ic }).emergency
  else s

def execTemperatureSample (sensor : Fin 52) (milliC warn crit : Int) (s : State) : Host.Outcome State Fault Refusal :=
  .next (if s.board.servicePowered then s.temperature sensor milliC warn crit else s)

/-- A leak sensor reports: 0x0605 and emergency off (R442), and no wake while it reports (R427). The sample and the limit of its entry
are free (R416; DESIGN CHOICE: notes/assumptions/138). -/
def execLeakDetect (event : LeakEvent) (s : State) : Host.Outcome State Fault Refusal :=
  if s.board.servicePowered then
  match event with
  | .stops sensor => .next (s.updBoard fun b => { b with leak := b.leak.set false sensor false })
  | .reports sensor =>
    let (inj, s) := s.spend 0x0605 sensor
    let s := s.updBoard fun b => { b with leak := b.leak.set false sensor true }
    let (a, s) := s.draw
    let (b, s) := s.draw
    .next ((s.detect 4 { code := 0x0605, sev := 4, loc := sensor, data0 := w64 (Config.freeNat a), data1 := w64 (Config.freeNat b),
                         injected := inj }).emergency)
  else .next s

/-! ### The automatic freeze and the crash copy (R419, R420) -/

/-- 1 ms after a FATAL entry every ring freezes, with AUTO, and the crash copy starts. -/
def execRecorderAutoFreeze (s : State) : Host.Outcome State Fault Refusal :=
  if s.board.freezeTimer then
    let s := [0, 1, 2, 3, 4].foldl (fun s u => s.updRec u fun q => { q with frozen := true, auto := true, copying := true }) s
    let s := s.updFlash fun x => { x with crash := [], crashValid := false }
    .next (s.updBoard fun b => { b with freezeTimer := false })
  else .next s

/-- The crash copy is complete, unless boot flash failed (R409, R420). -/
def execCrashCopyComplete (s : State) : Host.Outcome State Fault Refusal :=
  if (s.recorder 4).copying then
    let s := [0, 1, 2, 3, 4].foldl (fun s u => s.updRec u fun q => { q with copying := false }) s
    if s.board.flash.fails then .next s.flashFault else
    let copy := [0, 1, 2, 3, 4].map s.recorder
    .next (s.updFlash fun x => { x with crash := copy, crashValid := true, crashLoaded := false })
  else .next s

/-! ### The management header (R438) -/

/-- The hottest sensor's last sample. -/
def Board.hottest (b : Board) : Int := (rangeFrom 1 51).foldl (fun t n => max t (b.temps.get 0 n)) (b.temps.get 0 0)

/-- The sixteen bytes of Block Read 0x10 (R438). -/
def State.smbusBytes (s : State) : List Byte :=
  let b := s.board
  leBytes 4 b.lastMv ++ leBytes 4 b.lastMa ++ leBytes 4 (b.hottest % 2 ^ 32).toNat
    ++ leBytes 1 (if b.standby || b.emergencyOff then 4 else 0) ++ leBytes 1 b.security
    ++ leBytes 1 (b2n b.emergencyOff + b2n (!b.hot.isEmpty) * 2 + b2n (!b.leak.isEmpty) * 4) ++ [0]

/-- SMBus Packet Error Check: CRC-8 with polynomial x⁸ + x² + x + 1 (PRESUMED: notes/assumptions/171). -/
def smbusPec (bs : List Byte) : Byte :=
  bs.foldl (fun (c : Byte) b => (List.range 8).foldl (fun (c : Byte) _ => if c.getLsbD 7 then (c <<< 1) ^^^ 0x07 else c <<< 1) (c ^^^ b)) 0

/-- What the target at address 0x2C answers to a command code: the count, the 16 bytes and the PEC over the whole transfer, to Block
Read 0x10; no acknowledgement to any other (R438). -/
def State.smbusAnswer (s : State) (code : Byte) : Option (List Byte) :=
  if code = 0x10 then
    let body := 16 :: s.smbusBytes
    some (body ++ [smbusPec ([0x58, code, 0x59] ++ body)])
  else none

/-- SMBUS_BLOCK_READ: the command that the target serves (R438). -/
def execSmbusBlockRead (s : State) : Host.Outcome State Fault Refusal :=
  .next (if s.board.servicePowered then s.updBoard fun b => { b with smbusReply := (s.smbusAnswer 0x10).getD [] } else s)

/-- Levels of the open-drain pins: FAULT_N is low during emergency off, SMB_ALERT_N while a temperature warning, a leak or emergency
off holds (R427, R438). -/
def Board.faultN (b : Board) : Bool := !b.emergencyOff
def Board.smbAlertN (b : Board) : Bool := b.hot.isEmpty && b.leak.isEmpty && !b.emergencyOff

/-- What CONSOLE_TX has sent: the service console's text, which the manual does not give (DESIGN CHOICE: notes/assumptions/172). -/
def Board.consoleTx (b : Board) : List Byte := if b.servicePowered then Config.consoleText b.console else []

/-- Console input: accepted in OPERATOR and VENDOR, ignored in SEALED (R438). -/
def execConsoleRx (b : Byte) (s : State) : Host.Outcome State Fault Refusal :=
  .next (if s.board.servicePowered && s.board.security != 0 then s.updBoard fun x => { x with console := x.console ++ [b] } else s)

/-! ### PCIe and NVMe (R435, R436) -/

def pcieWindow : Nat := 64 * 2 ^ 30

/-- Where an offset of BAR0 leads: the table's page, or none (R435). A table entry holds a page number with 1 added. -/
def Board.inbound (b : Board) (off : Nat) : Option Nat :=
  match b.pcieTable.get 0 (off / mib2) with
  | 0 => none
  | p + 1 => some (p * mib2 + off % mib2)

/-- Pieces of a transfer that lie in one page of the window; of no bytes there is none. -/
def inboundPieces (off n : Nat) : List (Nat × Nat) :=
  if n = 0 then [] else (rangeFrom (off / mib2) ((off + n + mib2 - 1) / mib2 - off / mib2)).map fun g =>
    let lo := max off (g * mib2)
    let hi := min (off + n) (g * mib2 + mib2)
    (lo, hi - lo)

/-- The first address of a transfer that lies beyond the 46-bit physical space (R267). -/
def State.inboundBeyond (s : State) (off n : Nat) : Option Nat :=
  ((inboundPieces off n).filterMap fun x => (s.board.inbound x.1).map fun pa => (pa, x.2)).findSome? fun x =>
    if 2 ^ 46 < x.1 + x.2 then some (x.1 + x.2 - 1) else none

/-- Bytes read through the inbound window; a page that the table does not map answers no bytes. -/
def State.inboundRead (s : State) (off n : Nat) : List Byte × State :=
  (inboundPieces off n).foldl (fun (a : List Byte × State) x =>
    match a.2.board.inbound x.1 with
    | none => a
    | some pa =>
      let (bs, _, s) := a.2.agentRead 4 false mainlandPlace pa x.2 0 1
      (a.1 ++ bs, s)) ([], s)

/-- Bytes written through the inbound window. -/
def State.inboundWrite (s : State) (off : Nat) (bytes : List Byte) : State :=
  (inboundPieces off bytes.length).foldl (fun s x =>
    match s.board.inbound x.1 with
    | none => s
    | some pa => s.physWrite mainlandPlace pa ((bytes.drop (x.1 - off)).take x.2) 0 1) s

/-- The capabilities that R435 lists as present, by their numbers, the conventional ones first: PCI Express, Power Management, MSI-X;
Advanced Error Reporting, Device Serial Number, Physical Layer 16.0, 32.0 and 64.0 GT/s, Lane Margining, Data Link Feature, Flit
Logging. The numbers and the layout of the words are those of PCI Express (PRESUMED: notes/assumptions/173). -/
def pcieCaps : List Nat := [0x10, 0x01, 0x11, 0x0001, 0x0003, 0x0026, 0x002A, 0x0031, 0x0027, 0x0025, 0x0032]

/-- Where a capability stands; the place of each but the first extended one is free, within a range of its own so that no two meet
(DESIGN CHOICE: notes/assumptions/173). -/
def pcieCapAt (i : Nat) : Nat :=
  if i < 3 then 0x40 + 0x40 * i + Config.pcieCapPlace i % ([2, 15, 14].getD i 1) * 4
  else if i = 3 then 0x100 else 0x180 + 0x200 * (i - 4) + Config.pcieCapPlace i % 96 * 4

/-- A capability's first word: its number, and the place of the next; those that R435 lists as absent are in no list. -/
def pcieCapHead (i w : Nat) : Nat :=
  let id := pcieCaps.getD i 0
  if i < 3 then
    let next := if i = 2 then 0 else pcieCapAt (i + 1)
    -- MSI-X has 64 vectors; Power Management has neither D1 nor D2; PCI Express is version 2, an endpoint's, with flit mode
    let rest := if id = 0x11 then bitsOf w 31 27 * 2 ^ 11 + 63 else if id = 0x01 then bitsOf w 31 27 * 2 ^ 11 + bitsOf w 24 16
      else 2 ^ 15 + bitsOf w 29 25 * 2 ^ 9 + 2
    id + next * 2 ^ 8 + rest * 2 ^ 16
  else id + bitsOf w 19 16 * 2 ^ 16 + (if i + 1 < pcieCaps.length then pcieCapAt (i + 1) else 0) * 2 ^ 20

/-- Where Power Management's control and status word stands. -/
def pciePmcsrAt : Nat := pcieCapAt 1 + 4

/-- Word of PCIe configuration space (R435): class code 0x12_0000 above the revision, one function, BAR0 64 GiB and prefetchable, BAR2
1 MiB, both of 64 bits, the capabilities, a link of 64 GT/s and 16 lanes, which also trains at each lower rate, without ASPM and TPH,
the power state, which resets nothing when it changes, and the serial number. The rest is free. -/
def Board.pcieConfigWord (b : Board) (off : Nat) : Nat :=
  let w := (Config.pcieConfig off).toNat
  if off = 0x08 then 0x12000000 + w % 256
  else if off = 0x0C then bitsOf w 31 24 * 2 ^ 24 + bitsOf w 15 0
  else if off = 0x10 then 0xC
  else if off = 0x04 then bitsOf w 31 21 * 2 ^ 21 + 2 ^ 20 + bitsOf w 19 0
  else if off = 0x14 then b.pcieBars.get 0 off / 16 * 16
  else if off = 0x18 then b.pcieBars.get 0 off / 2 ^ 20 * 2 ^ 20 + 4
  else if off = 0x1C then b.pcieBars.get 0 off
  else if off = 0x20 ∨ off = 0x24 then 0
  else if off = 0x34 then pcieCapAt 0
  else match (List.range pcieCaps.length).find? fun i => pcieCapAt i == off with
    | some i => pcieCapHead i w
    | none =>
      if off = pcieCapAt 0 + 0x0C then bitsOf w 31 12 * 2 ^ 12 + 16 * 16 + 6
      else if off = pcieCapAt 0 + 0x24 then bitsOf w 31 14 * 2 ^ 14 + bitsOf w 11 0
      else if off = pcieCapAt 0 + 0x2C then bitsOf w 31 8 * 2 ^ 8 + 0x7E
      else if off = pciePmcsrAt then bitsOf w 31 4 * 2 ^ 4 + 8 + bitsOf w 2 2 * 4 + (if b.pcieD3 then 3 else 0)
      else if off = pcieCapAt 4 + 4 then ofLe (deviceDigest.take 4)
      else if off = pcieCapAt 4 + 8 then ofLe ((deviceDigest.drop 4).take 4)
      else w

/-- Write of a configuration word: the BARs keep it, and the power state follows its two bits where they name D0 or D3hot; another word
keeps what it reads as (R435; DESIGN CHOICE: notes/assumptions/173). -/
def Board.pcieConfigWrite (b : Board) (off : Nat) (v : W32) : Board :=
  if off = 0x14 ∨ off = 0x18 ∨ off = 0x1C then { b with pcieBars := b.pcieBars.set 0 off v.toNat }
  else if off = pciePmcsrAt ∧ v.toNat % 4 = 3 then { b with pcieD3 := true }
  else if off = pciePmcsrAt ∧ v.toNat % 4 = 0 then { b with pcieD3 := false }
  else b

/-- A request of the front-end server. One that arrives shows the link trained; D3hot stops inbound transfers and nothing else
(R435; DESIGN CHOICE: notes/assumptions/21). -/
def execPcieInboundRequest (r : PcieRequest) (s : State) : Host.Outcome State Fault Refusal :=
  if !s.board.mioOn then .next s
  else
    let up : State := s.updBoard fun b => { b with pcieUp := true }
    let d3 := s.board.pcieD3
    match r with
    | .linkError c port => .next (s.detect 4 { code := 0x0608, sev := if c then 1 else 4, loc := port.toNat })
    | .read off len =>
      if d3 || decide (pcieWindow < off + len) then .next up
      else match s.inboundBeyond off len with
        | some pa => .fault (.outsideAddressSpace pa)
        | none =>
          let (bs, s) := up.inboundRead off len
          .next (s.updBoard fun b => { b with lastReply := bs })
    | .write off bytes =>
      if d3 || decide (pcieWindow < off + bytes.length) then .next up
      else match s.inboundBeyond off bytes.length with
        | some pa => .fault (.outsideAddressSpace pa)
        | none => .next (up.inboundWrite off bytes)
    | .doorbell off bytes =>
      if d3 || decide (2 ^ 20 < off + bytes.length) then .next up
      else .next (up.updBoard fun b => { b with doorbellPage := writeBytes b.doorbellPage off bytes })
    | .configRead off => .next (up.updBoard fun b => { b with lastReply := leBytes 4 (b.pcieConfigWord off) })
    | .configWrite off v => .next (up.updBoard fun b => b.pcieConfigWrite off v)
    | .enterD3hot => .next (up.updBoard fun b => { b with pcieD3 := true })
    | .enterD0 => .next (up.updBoard fun b => { b with pcieD3 := false })

/-- DDR class of a drive's transfer: SNAPSHOT for one of a snapshot, else PAGE (R284). -/
def nvmeClass (snapshot : Bool) : Nat := if snapshot then 3 else 4

/-- A drive moves data at BOARD scope, in mesh class BULK, or reports an error (R284, R289, R409, R436). -/
def execNvmePathTransfer (t : NvmeTransfer) (s : State) : Host.Outcome State Fault Refusal :=
  let on := fun (i : Fin 4) => s.board.mioOn && s.board.nvmeOn.get false i
  match t with
  | .toDram slot pa bytes snapshot =>
    if !on slot then .next s
    else if 2 ^ 46 < pa + bytes.length then .fault (.outsideAddressSpace (pa + bytes.length - 1))
    else .next (s.physWrite mainlandPlace pa bytes (nvmeClass snapshot) 5)
  | .fromDram slot pa len snapshot =>
    if !on slot then .next s
    else if 2 ^ 46 < pa + len then .fault (.outsideAddressSpace (pa + len - 1))
    else
      let (bs, _, s) := s.agentRead 4 false mainlandPlace pa len (nvmeClass snapshot) 5
      .next (s.updBoard fun b => { b with lastReply := bs })
  | .errorStatus slot => .next (if on slot then s.detect 4 { code := 0x0609, sev := 0, loc := slot } else s)
  | .criticalWarning slot => .next (if on slot then s.detect 4 { code := 0x0609, sev := 4, loc := slot } else s)

end Sys2Proof.Machine
end

