-- ==== Sys2Proof/Machine/Traffic.lean ====
section
/-! DEFINITION. Packets on their way through a die's routers: grants of an output, the next hop, and flit errors (R288, R290, R293,
R409). -/

namespace Sys2Proof.Machine
open Sys2Proof

/-- An armed error of a flit at a stop: corrected and counted, or FATAL for the die (R409, R414). -/
def State.flitError (s : State) (die stop : Nat) : State :=
  match s.takeArmed die 0x0305 stop with
  | (none, s) => s
  | (some 0, s) => s.detect die { code := 0x0305, sev := 1, loc := stop, injected := true }
  | (some _, s) =>
    let s := s.detect die { code := 0x0305, sev := 4, loc := stop, injected := true }
    (s.updDie die fun d => { d with failed := true }).fatalToCtl die 0x0305 true

/-- A packet that leaves an output goes on to the next arbiter of its route, but over no causeway that is down. The access that it
stands for had its effect, or its error response, when it was made (R293; DESIGN CHOICE: notes/assumptions/5, 177). -/
def State.forward (s : State) (die stop out cls : Nat) (rest : List Nat) : State :=
  match if out = 4 then gatewayAt die (stop % 6, stop / 6) else none with
  | some cw => if s.board.causeway.get false cw then s.postAt cls rest else s
  | none => s.postAt cls rest

/-- The next input that a response-plane output serves, round robin after the last one (R290). -/
def RespPort.next (p : RespPort) : Option Nat :=
  ((rangeFrom (p.last + 1) (4 - p.last)) ++ List.range (p.last + 1)).find? fun i => !(p.waiting.get [] i).isEmpty

/-- The response plane at an output: one packet of the next waiting input (R290). -/
def State.respGrant (s : State) (die stop out : Nat) : State :=
  let key := stop * 5 + out
  let p := (s.die die).resp.get {} key
  match p.next with
  | none => s
  | some i =>
    let q := p.waiting.get [] i
    let s := s.updDie die fun d => { d with resp := d.resp.set {} key { waiting := p.waiting.set [] i q.tail, last := i } }
    (s.forward die stop out 0 (q.headD [])).flitError die stop

/-- The request plane at an output: up to BURST packets of the class chosen move to the next arbiter of their routes (R290). -/
def State.reqGrant (s : State) (die stop out : Nat) : State :=
  let d := s.die die
  let key := stop * 5 + out
  match (d.mesh.get {} key).grant d.meshLimit d.meshWeight [0, 1] [2, 3, 4, 5] d.meshBurst with
  | none => s
  | some g =>
    let promo := if g.promoted then d.meshPromo.set 0 g.cls (satAdd (d.meshPromo.get 0 g.cls) 1 0xFFFFFFFF)
      else d.meshPromo
    let s := s.setDie die { d with mesh := d.mesh.set {} key g.arb, meshPromo := promo }
    (g.granted.foldl (fun s r => s.forward die stop out g.cls r) s).flitError die stop

/-- A router output can start a grant: both of its planes do, the request plane by class and the response plane by input (R290;
DESIGN CHOICE: notes/assumptions/126). -/
def execMeshGrant (die : Fin 4) (stop : Fin 30) (out : Fin 5) (s : State) : Host.Outcome State Fault Refusal :=
  .next ((s.reqGrant die stop out).respGrant die stop out)

end Sys2Proof.Machine
end

