-- ==== Sys2Proof/Machine/Dispatch.lean ====
section
/-! DEFINITION. The effect of every command on everything but the queue: one arm for each row of the opcode table. -/

namespace Sys2Proof.Machine
open Sys2Proof

/-- The effect of a command on the state apart from the queue. -/
def exec (i : Instr) (s : State) : Host.Outcome State Fault Refusal :=
  match i with
  | .add c d a b => Sys2Proof.Machine.execAdd c d a b s
  | .sub c d a b => Sys2Proof.Machine.execSub c d a b s
  | .and c d a b => Sys2Proof.Machine.execAnd c d a b s
  | .or c d a b => Sys2Proof.Machine.execOr c d a b s
  | .xor c d a b => Sys2Proof.Machine.execXor c d a b s
  | .sll c d a b => Sys2Proof.Machine.execSll c d a b s
  | .srl c d a b => Sys2Proof.Machine.execSrl c d a b s
  | .sra c d a b => Sys2Proof.Machine.execSra c d a b s
  | .slt c d a b => Sys2Proof.Machine.execSlt c d a b s
  | .sltu c d a b => Sys2Proof.Machine.execSltu c d a b s
  | .min c d a b => Sys2Proof.Machine.execMin c d a b s
  | .max c d a b => Sys2Proof.Machine.execMax c d a b s
  | .minu c d a b => Sys2Proof.Machine.execMinu c d a b s
  | .maxu c d a b => Sys2Proof.Machine.execMaxu c d a b s
  | .clz c d a b => Sys2Proof.Machine.execClz c d a b s
  | .popc c d a b => Sys2Proof.Machine.execPopc c d a b s
  | .addw c d a b => Sys2Proof.Machine.execAddw c d a b s
  | .mul c d a b => Sys2Proof.Machine.execMul c d a b s
  | .mulh c d a b => Sys2Proof.Machine.execMulh c d a b s
  | .mulhu c d a b => Sys2Proof.Machine.execMulhu c d a b s
  | .div c d a b => Sys2Proof.Machine.execDiv c d a b s
  | .divu c d a b => Sys2Proof.Machine.execDivu c d a b s
  | .rem c d a b => Sys2Proof.Machine.execRem c d a b s
  | .remu c d a b => Sys2Proof.Machine.execRemu c d a b s
  | .addi c d a imm => Sys2Proof.Machine.execAddi c d a imm s
  | .andi c d a imm => Sys2Proof.Machine.execAndi c d a imm s
  | .ori c d a imm => Sys2Proof.Machine.execOri c d a imm s
  | .xori c d a imm => Sys2Proof.Machine.execXori c d a imm s
  | .slti c d a imm => Sys2Proof.Machine.execSlti c d a imm s
  | .slli c d a hi sh => Sys2Proof.Machine.execSlli c d a hi sh s
  | .srli c d a hi sh => Sys2Proof.Machine.execSrli c d a hi sh s
  | .srai c d a hi sh => Sys2Proof.Machine.execSrai c d a hi sh s
  | .liz c d a imm => Sys2Proof.Machine.execLiz c d a imm s
  | .lik c d a imm => Sys2Proof.Machine.execLik c d a imm s
  | .fadd c d a b => Sys2Proof.Machine.execFadd c d a b s
  | .fsub c d a b => Sys2Proof.Machine.execFsub c d a b s
  | .fmul c d a b => Sys2Proof.Machine.execFmul c d a b s
  | .fdiv c d a b => Sys2Proof.Machine.execFdiv c d a b s
  | .fsqrt c d a b => Sys2Proof.Machine.execFsqrt c d a b s
  | .fmin c d a b => Sys2Proof.Machine.execFmin c d a b s
  | .fmax c d a b => Sys2Proof.Machine.execFmax c d a b s
  | .fma c d a b => Sys2Proof.Machine.execFma c d a b s
  | .fcvtW c d a b => Sys2Proof.Machine.execFcvtW c d a b s
  | .fcvtF c d a b => Sys2Proof.Machine.execFcvtF c d a b s
  | .fmvX c d a b => Sys2Proof.Machine.execFmvX c d a b s
  | .fmvF c d a b => Sys2Proof.Machine.execFmvF c d a b s
  | .feq c d a b => Sys2Proof.Machine.execFeq c d a b s
  | .flt c d a b => Sys2Proof.Machine.execFlt c d a b s
  | .lb c d a imm => Sys2Proof.Machine.execLb c d a imm s
  | .lbu c d a imm => Sys2Proof.Machine.execLbu c d a imm s
  | .lh c d a imm => Sys2Proof.Machine.execLh c d a imm s
  | .lhu c d a imm => Sys2Proof.Machine.execLhu c d a imm s
  | .lw c d a imm => Sys2Proof.Machine.execLw c d a imm s
  | .lwu c d a imm => Sys2Proof.Machine.execLwu c d a imm s
  | .ld c d a imm => Sys2Proof.Machine.execLd c d a imm s
  | .flw c d a imm => Sys2Proof.Machine.execFlw c d a imm s
  | .sb c r a imm => Sys2Proof.Machine.execSb c r a imm s
  | .sh c r a imm => Sys2Proof.Machine.execSh c r a imm s
  | .sw c r a imm => Sys2Proof.Machine.execSw c r a imm s
  | .sd c r a imm => Sys2Proof.Machine.execSd c r a imm s
  | .fsw c r a imm => Sys2Proof.Machine.execFsw c r a imm s
  | .beq c a b off => Sys2Proof.Machine.execBeq c a b off s
  | .bne c a b off => Sys2Proof.Machine.execBne c a b off s
  | .blt c a b off => Sys2Proof.Machine.execBlt c a b off s
  | .bge c a b off => Sys2Proof.Machine.execBge c a b off s
  | .bltu c a b off => Sys2Proof.Machine.execBltu c a b off s
  | .bgeu c a b off => Sys2Proof.Machine.execBgeu c a b off s
  | .jmp c off => Sys2Proof.Machine.execJmp c off s
  | .call c off => Sys2Proof.Machine.execCall c off s
  | .jr c d a imm => Sys2Proof.Machine.execJr c d a imm s
  | .loop c a n => Sys2Proof.Machine.execLoop c a n s
  | .loopi c count n => Sys2Proof.Machine.execLoopi c count n s
  | .srr c d a n => Sys2Proof.Machine.execSrr c d a n s
  | .srw c d a n => Sys2Proof.Machine.execSrw c d a n s
  | .srset c d a n => Sys2Proof.Machine.execSrset c d a n s
  | .srclr c d a n => Sys2Proof.Machine.execSrclr c d a n s
  | .loopRegWrite c op d a level part => Sys2Proof.Machine.execLoopRegWrite c op d a level part s
  | .ctrCmpWrite c op d a => Sys2Proof.Machine.execCtrCmpWrite c op d a s
  | .timerExpiry c => Sys2Proof.Machine.execTimerExpiry c s
  | .send c a b len => Sys2Proof.Machine.execSend c a b len s
  | .recv c d mbx => Sys2Proof.Machine.execRecv c d mbx s
  | .recvComplete c => Sys2Proof.Machine.execRecvComplete c s
  | .recvNb c d mbx => Sys2Proof.Machine.execRecvNb c d mbx s
  | .messageLaunch c => Sys2Proof.Machine.execMessageLaunch c s
  | .messageArrival ix => Sys2Proof.Machine.execMessageArrival ix s
  | .ackArrival ix => Sys2Proof.Machine.execAckArrival ix s
  | .wakeArrival ix => Sys2Proof.Machine.execWakeArrival ix s
  | .refuseRetryTimeout c ix => Sys2Proof.Machine.execRefuseRetryTimeout c ix s
  | .reservationLapse c mbx => Sys2Proof.Machine.execReservationLapse c mbx s
  | .pepochWrite c op d a => Sys2Proof.Machine.execPepochWrite c op d a s
  | .gate c k => Sys2Proof.Machine.execGate c k s
  | .cret c => Sys2Proof.Machine.execCret c s
  | .sret c => Sys2Proof.Machine.execSret c s
  | .mret c => Sys2Proof.Machine.execMret c s
  | .takeInterrupt c => Sys2Proof.Machine.execTakeInterrupt c s
  | .vadd c v => Sys2Proof.Machine.execVadd c v s
  | .vsub c v => Sys2Proof.Machine.execVsub c v s
  | .vmul c v => Sys2Proof.Machine.execVmul c v s
  | .vdiv c v => Sys2Proof.Machine.execVdiv c v s
  | .vfma c v => Sys2Proof.Machine.execVfma c v s
  | .vfms c v => Sys2Proof.Machine.execVfms c v s
  | .vmin c v => Sys2Proof.Machine.execVmin c v s
  | .vmax c v => Sys2Proof.Machine.execVmax c v s
  | .vaddF c v => Sys2Proof.Machine.execVaddF c v s
  | .vsubF c v => Sys2Proof.Machine.execVsubF c v s
  | .vmulF c v => Sys2Proof.Machine.execVmulF c v s
  | .vfmaF c v => Sys2Proof.Machine.execVfmaF c v s
  | .vmov c v => Sys2Proof.Machine.execVmov c v s
  | .vneg c v => Sys2Proof.Machine.execVneg c v s
  | .vabs c v => Sys2Proof.Machine.execVabs c v s
  | .vsqrt c v => Sys2Proof.Machine.execVsqrt c v s
  | .vrsqrt c v => Sys2Proof.Machine.execVrsqrt c v s
  | .vrecip c v => Sys2Proof.Machine.execVrecip c v s
  | .vexp c v => Sys2Proof.Machine.execVexp c v s
  | .vlog c v => Sys2Proof.Machine.execVlog c v s
  | .vtanh c v => Sys2Proof.Machine.execVtanh c v s
  | .vsigm c v => Sys2Proof.Machine.execVsigm c v s
  | .vgelu c v => Sys2Proof.Machine.execVgelu c v s
  | .vsilu c v => Sys2Proof.Machine.execVsilu c v s
  | .vand c v => Sys2Proof.Machine.execVand c v s
  | .vor c v => Sys2Proof.Machine.execVor c v s
  | .vxor c v => Sys2Proof.Machine.execVxor c v s
  | .vshl c v => Sys2Proof.Machine.execVshl c v s
  | .vsra c v => Sys2Proof.Machine.execVsra c v s
  | .vsel c v => Sys2Proof.Machine.execVsel c v s
  | .vfill c v => Sys2Proof.Machine.execVfill c v s
  | .vcmpEq c v => Sys2Proof.Machine.execVcmpEq c v s
  | .vcmpNe c v => Sys2Proof.Machine.execVcmpNe c v s
  | .vcmpLt c v => Sys2Proof.Machine.execVcmpLt c v s
  | .vcmpLe c v => Sys2Proof.Machine.execVcmpLe c v s
  | .vcmpGt c v => Sys2Proof.Machine.execVcmpGt c v s
  | .vcmpGe c v => Sys2Proof.Machine.execVcmpGe c v s
  | .vcmpUn c v => Sys2Proof.Machine.execVcmpUn c v s
  | .mand c v => Sys2Proof.Machine.execMand c v s
  | .mor c v => Sys2Proof.Machine.execMor c v s
  | .mxor c v => Sys2Proof.Machine.execMxor c v s
  | .mnot c v => Sys2Proof.Machine.execMnot c v s
  | .vwmul c v => Sys2Proof.Machine.execVwmul c v s
  | .vwfma c v => Sys2Proof.Machine.execVwfma c v s
  | .vdot4 c v => Sys2Proof.Machine.execVdot4 c v s
  | .vcvt c v src => Sys2Proof.Machine.execVcvt c v src s
  | .red c v => Sys2Proof.Machine.execRed c v s
  | .rclr c acc op => Sys2Proof.Machine.execRclr c acc op s
  | .rget c f acc => Sys2Proof.Machine.execRget c f acc s
  | .rput c f acc => Sys2Proof.Machine.execRput c f acc s
  | .setvl c d a => Sys2Proof.Machine.execSetvl c d a s
  | .setvli c d imm => Sys2Proof.Machine.execSetvli c d imm s
  | .padd c k imm => Sys2Proof.Machine.execPadd c k imm s
  | .mt5Vadd c v => Sys2Proof.Machine.execMt5Vadd c v s
  | .mt5Vsub c v => Sys2Proof.Machine.execMt5Vsub c v s
  | .mt5Vmul c v => Sys2Proof.Machine.execMt5Vmul c v s
  | .mt5Vfma c v => Sys2Proof.Machine.execMt5Vfma c v s
  | .mt5Vmin c v => Sys2Proof.Machine.execMt5Vmin c v s
  | .mt5Vmax c v => Sys2Proof.Machine.execMt5Vmax c v s
  | .mt5Vmov c v => Sys2Proof.Machine.execMt5Vmov c v s
  | .mt5Vneg c v => Sys2Proof.Machine.execMt5Vneg c v s
  | .mt5Vabs c v => Sys2Proof.Machine.execMt5Vabs c v s
  | .mt5Vdiv c v => Sys2Proof.Machine.execMt5Vdiv c v s
  | .mt5Vsqrt c v => Sys2Proof.Machine.execMt5Vsqrt c v s
  | .mt5Vrecip c v => Sys2Proof.Machine.execMt5Vrecip c v s
  | .mt5Vrsqrt c v => Sys2Proof.Machine.execMt5Vrsqrt c v s
  | .mt5Vexp c v => Sys2Proof.Machine.execMt5Vexp c v s
  | .mt5Rsum c v => Sys2Proof.Machine.execMt5Rsum c v s
  | .mt5Rmax c v => Sys2Proof.Machine.execMt5Rmax c v s
  | .dld c k a => Sys2Proof.Machine.execDld c k a s
  | .dst c k a => Sys2Proof.Machine.execDst c k a s
  | .dbase c k a => Sys2Proof.Machine.execDbase c k a s
  | .daddb c k a => Sys2Proof.Machine.execDaddb c k a s
  | .sgo c k ds dd a => Sys2Proof.Machine.execSgo c k ds dd a s
  | .swait c k a => Sys2Proof.Machine.execSwait c k a s
  | .swaitComplete c => Sys2Proof.Machine.execSwaitComplete c s
  | .scred c k a => Sys2Proof.Machine.execScred c k a s
  | .sresume c k => Sys2Proof.Machine.execSresume c k s
  | .sstop c k => Sys2Proof.Machine.execSstop c k s
  | .scancel c k => Sys2Proof.Machine.execScancel c k s
  | .lbar c => Sys2Proof.Machine.execLbar c s
  | .lbarComplete c => Sys2Proof.Machine.execLbarComplete c s
  | .streamGranule c => Sys2Proof.Machine.execStreamGranule c s
  | .tld c tile dn tfmt stop => Sys2Proof.Machine.execTld c tile dn tfmt stop s
  | .tst c tile dn stop => Sys2Proof.Machine.execTst c tile dn stop s
  | .trel c tile => Sys2Proof.Machine.execTrel c tile s
  | .tileReleaseComplete c tile => Sys2Proof.Machine.execTileReleaseComplete c tile s
  | .tcfg c a b => Sys2Proof.Machine.execTcfg c a b s
  | .tmov c tile pk dir tfmt ofmt => Sys2Proof.Machine.execTmov c tile pk dir tfmt ofmt s
  | .tmovRun c => Sys2Proof.Machine.execTmovRun c s
  | .mmf c m keep => Sys2Proof.Machine.execMmf c m keep s
  | .arrayPass c arr => Sys2Proof.Machine.execArrayPass c arr s
  | .mmgather c m nw1 => Sys2Proof.Machine.execMmgather c m nw1 s
  | .gatherTimeout c arr => Sys2Proof.Machine.execGatherTimeout c arr s
  | .mmflush c arr => Sys2Proof.Machine.execMmflush c arr s
  | .mmbwd c m => Sys2Proof.Machine.execMmbwd c m s
  | .mmbwdRun c => Sys2Proof.Machine.execMmbwdRun c s
  | .zdrain c z roff acc => Sys2Proof.Machine.execZdrain c z roff acc s
  | .zdrainWave c => Sys2Proof.Machine.execZdrainWave c s
  | .gaccAdd c k a => Sys2Proof.Machine.execGaccAdd c k a s
  | .gaccPut c k a => Sys2Proof.Machine.execGaccPut c k a s
  | .gaccGet c k a => Sys2Proof.Machine.execGaccGet c k a s
  | .gaccRun c => Sys2Proof.Machine.execGaccRun c s
  | .fenceCore c => Sys2Proof.Machine.execFenceCore c s
  | .fenceAtollRel c => Sys2Proof.Machine.execFenceAtollRel c s
  | .fenceAtoll c => Sys2Proof.Machine.execFenceAtoll c s
  | .fenceDieRel c => Sys2Proof.Machine.execFenceDieRel c s
  | .fenceDie c => Sys2Proof.Machine.execFenceDie c s
  | .fenceBoardRel c => Sys2Proof.Machine.execFenceBoardRel c s
  | .fenceBoard c => Sys2Proof.Machine.execFenceBoard c s
  | .fenceTask c => Sys2Proof.Machine.execFenceTask c s
  | .atollTaskPart die pos => Sys2Proof.Machine.execAtollTaskPart die pos s
  | .ifence c => Sys2Proof.Machine.execIfence c s
  | .dead c a b => Sys2Proof.Machine.execDead c a b s
  | .cwb c scope a b => Sys2Proof.Machine.execCwb c scope a b s
  | .cinv c scope a b => Sys2Proof.Machine.execCinv c scope a b s
  | .l1winWrite c op d a k ctl => Sys2Proof.Machine.execL1winWrite c op d a k ctl s
  | .lagwinWrite c op d a k ctl => Sys2Proof.Machine.execLagwinWrite c op d a k ctl s
  | .atpWrite c op d a => Sys2Proof.Machine.execAtpWrite c op d a s
  | .matpWrite c op d a => Sys2Proof.Machine.execMatpWrite c op d a s
  | .tlbinvAll c a => Sys2Proof.Machine.execTlbinvAll c a s
  | .tlbinvVpn c a => Sys2Proof.Machine.execTlbinvVpn c a s
  | .ddrGrantBurst die ch => Sys2Proof.Machine.execDdrGrantBurst die ch s
  | .ddrAgeLimit die ch cls => Sys2Proof.Machine.execDdrAgeLimit die ch cls s
  | .patrolScrub die line => Sys2Proof.Machine.execPatrolScrub die line s
  | .meshGrant die stop out => Sys2Proof.Machine.execMeshGrant die stop out s
  | .meshAgeLimit die stop out cls => Sys2Proof.Machine.execMeshAgeLimit die stop out cls s
  | .causewayDown cw => Sys2Proof.Machine.execCausewayDown cw s
  | .causewayFlitReplay cw => Sys2Proof.Machine.execCausewayFlitReplay cw s
  | .cmddirWrite c op d a => Sys2Proof.Machine.execCmddirWrite c op d a s
  | .cmddbCommandRing c a => Sys2Proof.Machine.execCmddbCommandRing c a s
  | .cmddbReplyRing c a => Sys2Proof.Machine.execCmddbReplyRing c a s
  | .unitStartPacket u => Sys2Proof.Machine.execUnitStartPacket u s
  | .cqAgeLimit u ring => Sys2Proof.Machine.execCqAgeLimit u ring s
  | .parkedPacketComplete u ring => Sys2Proof.Machine.execParkedPacketComplete u ring s
  | .ping u => Sys2Proof.Machine.execPing u s
  | .loadImage u => Sys2Proof.Machine.execLoadImage u s
  | .startTask u => Sys2Proof.Machine.execStartTask u s
  | .drain u => Sys2Proof.Machine.execDrain u s
  | .drainComplete u => Sys2Proof.Machine.execDrainComplete u s
  | .abort u => Sys2Proof.Machine.execAbort u s
  | .atollOffline u => Sys2Proof.Machine.execAtollOffline u s
  | .atollOnline u selfTestPasses => Sys2Proof.Machine.execAtollOnline u selfTestPasses s
  | .atollSwapReserve u => Sys2Proof.Machine.execAtollSwapReserve u s
  | .fwStage u => Sys2Proof.Machine.execFwStage u s
  | .fwActivate u => Sys2Proof.Machine.execFwActivate u s
  | .treeConfig u => Sys2Proof.Machine.execTreeConfig u s
  | .straitTrain u r => Sys2Proof.Machine.execStraitTrain u r s
  | .straitRelay u => Sys2Proof.Machine.execStraitRelay u s
  | .snapConfig u => Sys2Proof.Machine.execSnapConfig u s
  | .snapNow u => Sys2Proof.Machine.execSnapNow u s
  | .restore u => Sys2Proof.Machine.execRestore u s
  | .inject u => Sys2Proof.Machine.execInject u s
  | .logRead u => Sys2Proof.Machine.execLogRead u s
  | .logFreeze u => Sys2Proof.Machine.execLogFreeze u s
  | .attest u => Sys2Proof.Machine.execAttest u s
  | .debugUnlock u => Sys2Proof.Machine.execDebugUnlock u s
  | .powerState u => Sys2Proof.Machine.execPowerState u s
  | .meterRead u => Sys2Proof.Machine.execMeterRead u s
  | .jobHandoff u => Sys2Proof.Machine.execJobHandoff u s
  | .atollGate die pos => Sys2Proof.Machine.execAtollGate die pos s
  | .atollUngate die pos => Sys2Proof.Machine.execAtollUngate die pos s
  | .steReadyWrite c op d a => Sys2Proof.Machine.execSteReadyWrite c op d a s
  | .stepDoneWrite c op d a => Sys2Proof.Machine.execStepDoneWrite c op d a s
  | .snapLocalWrite c op d a => Sys2Proof.Machine.execSnapLocalWrite c op d a s
  | .snapRxDoneWrite c op d a => Sys2Proof.Machine.execSnapRxDoneWrite c op d a s
  | .dieStageAdd die seg grp => Sys2Proof.Machine.execDieStageAdd die seg grp s
  | .nodeGroupAdd seg grp => Sys2Proof.Machine.execNodeGroupAdd seg grp s
  | .stepEnd => Sys2Proof.Machine.execStepEnd s
  | .frameSend port => Sys2Proof.Machine.execFrameSend port s
  | .frameReceive port f r => Sys2Proof.Machine.execFrameReceive port f r s
  | .controlCodeword port k => Sys2Proof.Machine.execControlCodeword port k s
  | .portControlSilence port => Sys2Proof.Machine.execPortControlSilence port s
  | .portLaneLockLoss port => Sys2Proof.Machine.execPortLaneLockLoss port s
  | .inputPowerOn => Sys2Proof.Machine.execInputPowerOn s
  | .servicePowerGood => Sys2Proof.Machine.execServicePowerGood s
  | .inputUndervoltage mv => Sys2Proof.Machine.execInputUndervoltage mv s
  | .inputOvervoltage mv => Sys2Proof.Machine.execInputOvervoltage mv s
  | .inputBelow40v => Sys2Proof.Machine.execInputBelow40v s
  | .regulatorFault supply => Sys2Proof.Machine.execRegulatorFault supply s
  | .railNotGoodTimeout supply => Sys2Proof.Machine.execRailNotGoodTimeout supply s
  | .rootPllLockLoss => Sys2Proof.Machine.execRootPllLockLoss s
  | .wakeRequest src => Sys2Proof.Machine.execWakeRequest src s
  | .coldReset src => Sys2Proof.Machine.execColdReset src s
  | .pcieReset => Sys2Proof.Machine.execPcieReset s
  | .tapReset => Sys2Proof.Machine.execTapReset s
  | .serviceWatchdog => Sys2Proof.Machine.execServiceWatchdog s
  | .dieControllerWatchdog die => Sys2Proof.Machine.execDieControllerWatchdog die s
  | .powerMonitorSample mv ma => Sys2Proof.Machine.execPowerMonitorSample mv ma s
  | .temperatureSample sensor milliC warn crit => Sys2Proof.Machine.execTemperatureSample sensor milliC warn crit s
  | .leakDetect event => Sys2Proof.Machine.execLeakDetect event s
  | .recorderAutoFreeze => Sys2Proof.Machine.execRecorderAutoFreeze s
  | .crashCopyComplete => Sys2Proof.Machine.execCrashCopyComplete s
  | .debugHalt head => Sys2Proof.Machine.execDebugHalt head s
  | .debugStep head => Sys2Proof.Machine.execDebugStep head s
  | .debugRun head => Sys2Proof.Machine.execDebugRun head s
  | .debugRead head level regs => Sys2Proof.Machine.execDebugRead head level regs s
  | .traceOn head pa bytes => Sys2Proof.Machine.execTraceOn head pa bytes s
  | .traceOff head => Sys2Proof.Machine.execTraceOff head s
  | .debugStatus head => Sys2Proof.Machine.execDebugStatus head s
  | .boundaryScan die ix => Sys2Proof.Machine.execBoundaryScan die ix s
  | .smbusBlockRead => Sys2Proof.Machine.execSmbusBlockRead s
  | .reservedOpcode c w => Sys2Proof.Machine.execReservedOpcode c w s
  | .instructionFetchFault c => Sys2Proof.Machine.execInstructionFetchFault c s
  | .cseqOutOfSequence port cseq => Sys2Proof.Machine.execCseqOutOfSequence port cseq s
  | .pcieInboundRequest r => Sys2Proof.Machine.execPcieInboundRequest r s
  | .nvmePathTransfer t => Sys2Proof.Machine.execNvmePathTransfer t s
  | .idcodeBypass tap ix => Sys2Proof.Machine.execIdcodeBypass tap ix s
  | .consoleRx b => Sys2Proof.Machine.execConsoleRx b s

end Sys2Proof.Machine
end

