-- ==== Sys2Proof/Safety.lean ====
section
/-! DEFINITION. What claims speak of: a step that answers a next state, a core that is ready to run an instruction, and the
canonical form of every sparse part. -/

namespace Sys2Proof.Machine
open Sys2Proof

/-- The step answers a next state. -/
def Runs (s : State) : Prop := ∃ t, step s = .next t

/-- The command answers a next state. -/
def Completes (i : Instr) (s : State) : Prop := ∃ t, exec i s = .next t

/-- No event is ready at a core's boundary (R77), no parity error is armed (R414), and no single step is asked for (R94). -/
def State.calm (s : State) (k : Nat) : Bool :=
  (s.takeArmed (unitOfKey k) 0x0109 (s.locOf k)).1.isNone && !(s.core k).parity && (s.core k).mchk.isEmpty
    && !(s.core k).haltDue && (s.core k).vtrapDue.isNone && !(s.core k).dbgStep
    && (s.pendingInts k).all fun e => !(s.core k).mayTake e

/-- A core that runs the instruction it is given: it issues, waits for nothing, and no event is ready. -/
def State.ready (s : State) (c : CoreId) : Bool :=
  s.issuing (coreKey c) && (s.core (coreKey c)).wait == .none && s.calm (coreKey c)

/-- The end of an instruction at `pc` that goes on to the next one: the loop test of R42. -/
def State.retire (s : State) (k : Nat) (pc : W64) : State := s.updCore k fun c => c.loopStep pc

/-- A taken branch or jump from `pc` to `a` (R44), with the record of a running trace (R404). -/
def State.goTo (s : State) (k : Nat) (pc a : W64) : State := (s.updCore k fun c => c.jumpFrom pc a).traceNote k .branch a

/-- The event that an instruction raises at `pc` is taken (R75, R78, R83). -/
def State.takes (s : State) (k : Nat) (e : Event) (pc : W64) : Host.Outcome State Fault Refusal :=
  finish ((do discard (raise k e pc) : M Unit).run s)

/-- Every sparse part of DRAM is in canonical form. -/
def Dram.wf (m : Dram) : Bool := SMap.wf (fun _ => 0) m.bytes && SMap.wf (fun _ => 0) m.ecc

end Sys2Proof.Machine
end

