-- ==== Sys2Proof/Certificates/Slice0/Obligations.lean ====
section
/-! DEFINITION. The statements for the provers. The first part names what the statements speak of; every value that a rule gives
is written here from the rule's own words. -/

open Sys2Proof Sys2Proof.Machine

namespace Sys2Proof.Claims

/-- An outcome of a command. -/
abbrev Out := Host.Outcome State Fault Refusal

/-- The PC of a core. -/
def pcOf (s : State) (c : CoreId) : W64 := (s.core (coreKey c)).pc

/-- ILLEGAL and PRIVILEGE as an instruction word raises them (R76). -/
def ill (w : Nat) : Event := { code := 0x01, addr := (BitVec.ofNat 32 w).setWidth 64 }
def priv (w : Nat) : Event := { code := 0x02, addr := (BitVec.ofNat 32 w).setWidth 64 }

/-- The number of leading zeros of a word, counted from the top. -/
def leadingZeros (a : W64) : Nat := ((List.range 64).takeWhile fun i => !a.getLsbD (63 - i)).length
/-- The number of one bits of a word. -/
def oneBits (a : W64) : Nat := ((List.range 64).filter fun i => a.getLsbD i).length

/-- Core, destination and value of an integer ALU, multiply or divide instruction, from the table of R30. CLZ and POPC have
none where b is not x0. -/
def aluValue : Instr → Option (CoreId × Reg × (Core → W64))
  | .add c d a b => some (c, d, fun x => x.rx a + x.rx b)
  | .sub c d a b => some (c, d, fun x => x.rx a - x.rx b)
  | .and c d a b => some (c, d, fun x => x.rx a &&& x.rx b)
  | .or c d a b => some (c, d, fun x => x.rx a ||| x.rx b)
  | .xor c d a b => some (c, d, fun x => x.rx a ^^^ x.rx b)
  | .sll c d a b => some (c, d, fun x => x.rx a <<< ((x.rx b).toNat % 64))
  | .srl c d a b => some (c, d, fun x => x.rx a >>> ((x.rx b).toNat % 64))
  | .sra c d a b => some (c, d, fun x => (x.rx a).sshiftRight ((x.rx b).toNat % 64))
  | .slt c d a b => some (c, d, fun x => if (x.rx a).toInt < (x.rx b).toInt then 1 else 0)
  | .sltu c d a b => some (c, d, fun x => if (x.rx a).toNat < (x.rx b).toNat then 1 else 0)
  | .min c d a b => some (c, d, fun x => BitVec.ofInt 64 (min (x.rx a).toInt (x.rx b).toInt))
  | .max c d a b => some (c, d, fun x => BitVec.ofInt 64 (max (x.rx a).toInt (x.rx b).toInt))
  | .minu c d a b => some (c, d, fun x => BitVec.ofNat 64 (min (x.rx a).toNat (x.rx b).toNat))
  | .maxu c d a b => some (c, d, fun x => BitVec.ofNat 64 (max (x.rx a).toNat (x.rx b).toNat))
  | .clz c d a b => if b = 0 then some (c, d, fun x => BitVec.ofNat 64 (leadingZeros (x.rx a))) else none
  | .popc c d a b => if b = 0 then some (c, d, fun x => BitVec.ofNat 64 (oneBits (x.rx a))) else none
  | .addw c d a b => some (c, d, fun x => ((x.rx a + x.rx b).setWidth 32).signExtend 64)
  | .mul c d a b => some (c, d, fun x => BitVec.ofNat 64 ((x.rx a).toNat * (x.rx b).toNat))
  | .mulh c d a b => some (c, d, fun x => BitVec.ofInt 64 ((x.rx a).toInt * (x.rx b).toInt / 2 ^ 64))
  | .mulhu c d a b => some (c, d, fun x => BitVec.ofNat 64 ((x.rx a).toNat * (x.rx b).toNat / 2 ^ 64))
  | .div c d a b => some (c, d, fun x => (x.rx a).sdiv (x.rx b))
  | .divu c d a b => some (c, d, fun x => x.rx a / x.rx b)
  | .rem c d a b => some (c, d, fun x => (x.rx a).srem (x.rx b))
  | .remu c d a b => some (c, d, fun x => x.rx a % x.rx b)
  | _ => none

/-- The instructions with an immediate: majors 0x02 to 0x06, the shift-immediate major of R31, and LIZ and LIK of R32. -/
def immValue : Instr → Option (CoreId × Reg × (Core → W64))
  | .addi c d a imm => some (c, d, fun x => x.rx a + imm.signExtend 64)
  | .andi c d a imm => some (c, d, fun x => x.rx a &&& imm.setWidth 64)
  | .ori c d a imm => some (c, d, fun x => x.rx a ||| imm.setWidth 64)
  | .xori c d a imm => some (c, d, fun x => x.rx a ^^^ imm.setWidth 64)
  | .slti c d a imm => some (c, d, fun x => if (x.rx a).toInt < imm.toInt then 1 else 0)
  | .slli c d a hi sh => if hi = 0 then some (c, d, fun x => x.rx a <<< sh.toNat) else none
  | .srli c d a hi sh => if hi = 0 then some (c, d, fun x => x.rx a >>> sh.toNat) else none
  | .srai c d a hi sh => if hi = 0 then some (c, d, fun x => (x.rx a).sshiftRight sh.toNat) else none
  | .liz c d a imm => if a.toNat < 4 then some (c, d, fun _ => imm.setWidth 64 <<< (16 * a.toNat)) else none
  | .lik c d a imm =>
    if a.toNat < 4 then
      some (c, d, fun x => (x.rx d &&& ~~~(0xFFFF#64 <<< (16 * a.toNat))) ||| imm.setWidth 64 <<< (16 * a.toNat))
    else none
  | _ => none

/-- A scalar FP32 result in the present rounding mode, from exact values of FP32 registers. -/
def fpRes (x : Core) (v : FV × Flags) : Nat × Flags := fpEnc x.frm v
/-- The FP32 value in an f register. -/
def fpReg (x : Core) (r : Reg) : FV := fpDec (x.rf r).toNat

/-- What a scalar FP32 instruction writes: an f or an x register, its bits, and the flags it ORs into FFLAGS (R36, R37). -/
def fpValue : Instr → Option (CoreId × Sum Reg Reg × (Core → Nat × Flags))
  | .fadd c d a b => some (c, .inl d, fun x => fpRes x (fvAdd x.frm (fpReg x a) (fpReg x b)))
  | .fsub c d a b => some (c, .inl d, fun x => fpRes x (fvAdd x.frm (fpReg x a) (fpReg x b).negate))
  | .fmul c d a b => some (c, .inl d, fun x => fpRes x (fvMul (fpReg x a) (fpReg x b)))
  | .fdiv c d a b => some (c, .inl d, fun x => fpRes x (fvDiv (fpReg x a) (fpReg x b)))
  | .fsqrt c d a b => if b = 0 then some (c, .inl d, fun x => fpRes x (fvSqrt (fpReg x a))) else none
  | .fmin c d a b => some (c, .inl d, fun x => fpRes x (fvMin (fpReg x a) (fpReg x b), 0))
  | .fmax c d a b => some (c, .inl d, fun x => fpRes x (fvMax (fpReg x a) (fpReg x b), 0))
  | .fma c d a b => some (c, .inl d, fun x => fpRes x (fvFma x.frm (fpReg x d) (fpReg x a) (fpReg x b)))
  | .fcvtW c d a _ => some (c, .inr d, fun x => encodeInt 64 x.frm (fpReg x a))
  | .fcvtF c d a _ => some (c, .inl d, fun x => fmtFp32.encode x.frm (.ofInt (x.rx a).toInt))
  | .fmvX c d a _ => some (c, .inr d, fun x => (((x.rf a).signExtend 64).toNat, 0))
  | .fmvF c d a _ => some (c, .inl d, fun x => ((x.rx a).toNat % 2 ^ 32, 0))
  | .feq c d a b => some (c, .inr d, fun x =>
      (if (fpReg x a).isNan ∨ (fpReg x b).isNan then 0 else if fvCmp (fpReg x a) (fpReg x b) = 0 then 1 else 0, 0))
  | .flt c d a b => some (c, .inr d, fun x =>
      if (fpReg x a).isNan ∨ (fpReg x b).isNan then (0, flNV)
      else (if fvCmp (fpReg x a) (fpReg x b) = -1 then 1 else 0, 0))
  | _ => none

/-- The core after a scalar FP32 result. -/
def fpWrite (x : Core) (d : Sum Reg Reg) (v : Nat × Flags) : Core :=
  (match d with
    | .inl d => x.wf d (BitVec.ofNat 32 v.1)
    | .inr d => x.wx d (BitVec.ofNat 64 v.1)).setSr fflagsNo (x.sr fflagsNo ||| v.2.setWidth 64)

/-- Core, base register, offset, size and destination of a load: an x register and whether it sign-extends, or an f register. -/
def loadForm : Instr → Option (CoreId × Reg × BitVec 16 × Nat × Sum (Reg × Bool) Reg)
  | .lb c d a imm => some (c, a, imm, 1, .inl (d, true))
  | .lbu c d a imm => some (c, a, imm, 1, .inl (d, false))
  | .lh c d a imm => some (c, a, imm, 2, .inl (d, true))
  | .lhu c d a imm => some (c, a, imm, 2, .inl (d, false))
  | .lw c d a imm => some (c, a, imm, 4, .inl (d, true))
  | .lwu c d a imm => some (c, a, imm, 4, .inl (d, false))
  | .ld c d a imm => some (c, a, imm, 8, .inl (d, false))
  | .flw c d a imm => some (c, a, imm, 4, .inr d)
  | _ => none

/-- Core, base register, offset, size and source value of a store. -/
def storeForm : Instr → Option (CoreId × Reg × BitVec 16 × Nat × (Core → Nat))
  | .sb c r a imm => some (c, a, imm, 1, fun x => (x.rx r).toNat)
  | .sh c r a imm => some (c, a, imm, 2, fun x => (x.rx r).toNat)
  | .sw c r a imm => some (c, a, imm, 4, fun x => (x.rx r).toNat)
  | .sd c r a imm => some (c, a, imm, 8, fun x => (x.rx r).toNat)
  | .fsw c r a imm => some (c, a, imm, 4, fun x => (x.rf r).toNat)
  | _ => none

/-- What a load of `n` bytes writes: the loaded number sign- or zero-extended, or its 32 bits in an f register. -/
def loadWrite (x : Core) (n : Nat) (d : Sum (Reg × Bool) Reg) (v : Nat) : Core :=
  match d with
  | .inl (d, sx) => x.wx d (if sx && decide (2 ^ (8 * n - 1) ≤ v) then BitVec.ofInt 64 ((v : Int) - 2 ^ (8 * n)) else BitVec.ofNat 64 v)
  | .inr d => x.wf d (BitVec.ofNat 32 v)

/-- The address that a load or store computes (R33). -/
def addrOf (s : State) (c : CoreId) (a : Reg) (imm : BitVec 16) : W64 := (s.core (coreKey c)).rx a + imm.signExtend 64

/-- The conditional branches: core, whether it is taken, and the offset. -/
def branchForm : Instr → Option (CoreId × BitVec 16 × (Core → Bool))
  | .beq c a b off => some (c, off, fun x => decide (x.rx a = x.rx b))
  | .bne c a b off => some (c, off, fun x => decide (x.rx a ≠ x.rx b))
  | .blt c a b off => some (c, off, fun x => decide ((x.rx a).toInt < (x.rx b).toInt))
  | .bge c a b off => some (c, off, fun x => decide ((x.rx b).toInt ≤ (x.rx a).toInt))
  | .bltu c a b off => some (c, off, fun x => decide ((x.rx a).toNat < (x.rx b).toNat))
  | .bgeu c a b off => some (c, off, fun x => decide ((x.rx b).toNat ≤ (x.rx a).toNat))
  | _ => none

/-- PC + 4 × a signed offset (R27). -/
def pcPlus {n : Nat} (pc : W64) (off : BitVec n) : W64 := BitVec.ofInt 64 ((pc.toNat : Int) + 4 * off.toInt)

end Sys2Proof.Claims

open Sys2Proof.Claims

/-! ### The block -/

/-- A step runs the command at the front of the queue, with the queue's rest. -/
def Obligations.StepRunsTheFrontCommand : Prop :=
  ∀ (s : State) (i : Instr), step { s with pending := i :: s.pending } = exec i s

/-- With no command waiting, a step is one cycle of ACLK: each powered die's counter, the mainland counter while the mainland is
on, and, in every other cycle, the service counter go up by one modulo 2^64; no core, no memory and no queue changes. This reading of
an empty queue is the model's choice (notes/assumptions/1). TIMER_EXPIRY moves the core's counter up to CTR.CMP, so that TIMER is
pending there; that it moves no further is the model's choice (notes/assumptions/14). -/
def Obligations.CountersCount : Prop :=
  (∀ s : State, s.pending = [] → ∃ t, step s = .next t
      ∧ (∀ d < 4, (t.die d).ctr = if (s.die d).powered then ((s.die d).ctr + 1) % 2 ^ 64 else (s.die d).ctr)
      ∧ t.board.mctr = (if s.board.mainlandOn then (s.board.mctr + 1) % 2 ^ 64 else s.board.mctr)
      ∧ t.board.svcCtr = (if s.board.servicePowered && s.board.phase then (s.board.svcCtr + 1) % 2 ^ 64 else s.board.svcCtr)
      ∧ t.cores = s.cores ∧ t.dram = s.dram ∧ t.atolls = s.atolls ∧ t.ports = s.ports ∧ t.pending = [])
    ∧ (∀ (s : State) (c : CoreId), s.corePowered (coreKey c) = true → ((s.core (coreKey c)).sr 0x510).toNat ≠ 0 →
      s.ctrOf (coreKey c) < ((s.core (coreKey c)).sr 0x510).toNat →
      ∃ t, exec (.timerExpiry c) s = .next t ∧ t.ctrOf (coreKey c) = ((s.core (coreKey c)).sr 0x510).toNat
        ∧ t.timerPending (coreKey c) = true ∧ t.cores = s.cores ∧ t.dram = s.dram)

/-- The reset values that rules of the manual give: every core at M with its interrupts disabled and in reset, GCFG 0x1000_001F
(R165), LAGCFG with CMPEN 1 and PFDEPTH 8 (R245), MESHCFG (R291) and STARB (R336), every other stored register of a core 0. No
command waits, and memory lists nothing. That registers with no reset value in the manual read 0 is the model's choice
(notes/assumptions/33). -/
def Obligations.ResetRegisterValues : Prop :=
  (∀ k, (State.reset.core k).level = .m ∧ (State.reset.core k).ieS = false ∧ (State.reset.core k).ieM = false
      ∧ (State.reset.core k).run = .inReset)
    ∧ (∀ k, (State.reset.core k).sr 0x0E9 = 0x1000001F)
    ∧ (∀ k n, n ≠ 0x0E9 → (State.reset.core k).sr n = 0)
    ∧ (∀ a, (State.reset.atoll a).sr 0x128 = 0x108)
    ∧ (∀ k r, (State.reset.core k).rx r = 0)
    ∧ (∀ d, (State.reset.die d).sr 0x620 = 0x42448 ∧ (State.reset.die d).sr 0x64E = 0x2248)
    ∧ State.reset.pending = [] ∧ State.reset.dram.bytes = [] ∧ State.reset.dram.wf = true

/-- Every step keeps DRAM in its canonical form: the listed addresses strictly rising, no entry equal to what an unlisted one
reads as. -/
def Obligations.EveryStepKeepsDramCanonical : Prop :=
  ∀ s t : State, s.dram.wf = true → step s = .next t → t.dram.wf = true

/-- No command changes the queue of waiting commands: a step only takes the front one off. -/
def Obligations.NoCommandTouchesTheQueue : Prop :=
  ∀ s t : State, step s = .next t → t.pending = s.pending.tail

/-- The last physical address of what a command of the PCIe window or of a drive names: of a drive's bytes, or of the window's bytes
that lie in one page of 2 MiB, where the table maps the page (R435, R436). -/
def Sys2Proof.Claims.lastAddress (s : State) : Instr → Nat → Prop
  | .nvmePathTransfer (.toDram _ pa bytes _), a => a = pa + bytes.length - 1
  | .nvmePathTransfer (.fromDram _ pa n _), a => a = pa + n - 1
  | .pcieInboundRequest (.read off n), a => ∃ o page, off ≤ o ∧ o < off + n ∧ (o + 1 = off + n ∨ (o + 1) % (2 * 2 ^ 20) = 0)
      ∧ s.board.pcieTable.get 0 (o / (2 * 2 ^ 20)) = page + 1 ∧ a = page * (2 * 2 ^ 20) + o % (2 * 2 ^ 20)
  | .pcieInboundRequest (.write off bytes), a => ∃ o page, off ≤ o ∧ o < off + bytes.length
      ∧ (o + 1 = off + bytes.length ∨ (o + 1) % (2 * 2 ^ 20) = 0)
      ∧ s.board.pcieTable.get 0 (o / (2 * 2 ^ 20)) = page + 1 ∧ a = page * (2 * 2 ^ 20) + o % (2 * 2 ^ 20)
  | _, _ => False

/-- Only the two commands that carry a physical address of their own can end a run with a fault, and only where the last address that
the command names, which the fault reports, lies beyond the 46-bit space of R267. That such a transfer ends the run is the model's
choice (notes/assumptions/110). -/
def Obligations.OnlyOutsideAddressesFault : Prop :=
  ∀ (i : Instr) (s : State) (f : Fault), exec i s = .fault f → ∃ pa, f = .outsideAddressSpace pa ∧ 2 ^ 46 ≤ pa ∧ lastAddress s i pa

/-! ### Integer instructions (R30 to R32) -/

/-- Each integer ALU, multiply and divide instruction, and each one with an immediate, writes its table value into x[d], nothing
where d is x0, and goes on. -/
def Obligations.IntegerResults : Prop :=
  ∀ (i : Instr) (s : State) (c : CoreId) (d : Reg) (v : Core → W64),
    (aluValue i = some (c, d, v) ∨ immValue i = some (c, d, v)) → s.ready c = true →
    exec i s = .next ((s.updCore (coreKey c) fun x => x.wx d (v x)).retire (coreKey c) (pcOf s c))

/-- Integer division never traps and sets no flag. Its corners: a zero divisor gives a quotient of 0 and a remainder equal to a in all four forms; −2^63 by −1 gives
−2^63 and 0; and a form with a nonzero high immediate of major 0x07, or of its kind 0b11, raises ILLEGAL. -/
def Obligations.DivisionCornersAndShiftForms : Prop :=
  ∀ (s : State) (c : CoreId) (d a b : Reg), s.ready c = true →
    let x := s.core (coreKey c)
    let done := fun v => Host.Outcome.next ((s.updCore (coreKey c) fun x => x.wx d v).retire (coreKey c) (pcOf s c))
    ((∃ v, exec (.div c d a b) s = done v) ∧ (∃ v, exec (.divu c d a b) s = done v) ∧ (∃ v, exec (.rem c d a b) s = done v)
        ∧ ∃ v, exec (.remu c d a b) s = done v)
      ∧ (x.rx b = 0 → exec (.div c d a b) s = done 0 ∧ exec (.divu c d a b) s = done 0
        ∧ exec (.rem c d a b) s = done (x.rx a) ∧ exec (.remu c d a b) s = done (x.rx a))
      ∧ (x.rx a = 0x8000000000000000 → x.rx b = 0xFFFFFFFFFFFFFFFF →
          exec (.div c d a b) s = done 0x8000000000000000 ∧ exec (.rem c d a b) s = done 0)
      ∧ (∀ sh, exec (.slli c d a 0 sh) s = done (x.rx a <<< sh.toNat) ∧ exec (.srli c d a 0 sh) s = done (x.rx a >>> sh.toNat)
          ∧ exec (.srai c d a 0 sh) s = done ((x.rx a).sshiftRight sh.toNat))
      ∧ (∀ hi sh, hi ≠ 0 →
          exec (.slli c d a hi sh) s = s.takes (coreKey c) (ill (instrWord (.slli c d a hi sh))) (pcOf s c)
          ∧ exec (.srli c d a hi sh) s = s.takes (coreKey c) (ill (instrWord (.srli c d a hi sh))) (pcOf s c)
          ∧ exec (.srai c d a hi sh) s = s.takes (coreKey c) (ill (instrWord (.srai c d a hi sh))) (pcOf s c))
      ∧ ∀ w : W32, bitsOf w.toNat 31 26 = 0x07 → bitsOf w.toNat 7 6 = 3 →
          exec (.reservedOpcode c w) s = s.takes (coreKey c) (ill w.toNat) (pcOf s c)

/-! ### Scalar FP32 (R36, R37) -/

/-- Each scalar FP32 instruction writes its result, ORs its flags into FFLAGS, never traps on a flag, and goes on. -/
def Obligations.ScalarFpResults : Prop :=
  ∀ (i : Instr) (s : State) (c : CoreId) (d : Sum Reg Reg) (v : Core → Nat × Flags), fpValue i = some (c, d, v) →
    s.ready c = true →
    exec i s = .next ((s.updCore (coreKey c) fun x => fpWrite x d (v x)).retire (coreKey c) (pcOf s c))

/-- What the integer, immediate and scalar FP32 instructions leave alone: every x and f register but the destination, every system
register but FFLAGS and the loop registers, the level and the enables of their core; every other core; and every byte of memory. -/
def Obligations.RegisterInstructionFrame : Prop :=
  ∀ (i : Instr) (s t : State) (c : CoreId) (dx df : Option Reg),
    ((∃ d v, (aluValue i = some (c, d, v) ∨ immValue i = some (c, d, v)) ∧ dx = some d ∧ df = none)
      ∨ (∃ d v, fpValue i = some (c, .inr d, v) ∧ dx = some d ∧ df = none)
      ∨ ∃ d v, fpValue i = some (c, .inl d, v) ∧ dx = none ∧ df = some d) →
    s.ready c = true → exec i s = .next t →
    (∀ r, dx ≠ some r → (t.core (coreKey c)).rx r = (s.core (coreKey c)).rx r)
      ∧ (∀ r, df ≠ some r → (t.core (coreKey c)).rf r = (s.core (coreKey c)).rf r)
      ∧ (∀ n, n ≠ fflagsNo → n ≠ 0x102 → n ≠ 0x106 → (t.core (coreKey c)).sr n = (s.core (coreKey c)).sr n)
      ∧ (t.core (coreKey c)).level = (s.core (coreKey c)).level
      ∧ (t.core (coreKey c)).ieS = (s.core (coreKey c)).ieS ∧ (t.core (coreKey c)).ieM = (s.core (coreKey c)).ieM
      ∧ (∀ j, j ≠ coreKey c → t.core j = s.core j)
      ∧ (t.core (coreKey c)).l1 = (s.core (coreKey c)).l1 ∧ t.atolls = s.atolls ∧ t.dram = s.dram

/-! ### Loads and stores (R33, R34) -/

/-- A load of an aligned address whose memory operation answers writes the extended value and goes on; a store to an aligned
address whose memory operation answers goes on; a misaligned address raises MISALIGN with the size and the address, and touches
no memory. -/
def Obligations.LoadAndStoreResults : Prop :=
  (∀ (i : Instr) (s : State) (c : CoreId) (a : Reg) (imm : BitVec 16) (n : Nat) (d : Sum (Reg × Bool) Reg),
      loadForm i = some (c, a, imm, n, d) → s.ready c = true →
      (∀ v t, (scalarLoad (coreKey c) (addrOf s c a imm) n).run s = .ok v t → v < 2 ^ (8 * n) →
          exec i s = .next ((t.updCore (coreKey c) fun x => loadWrite x n d v).retire (coreKey c) (pcOf s c)))
        ∧ ((addrOf s c a imm).toNat % n ≠ 0 →
            exec i s = s.takes (coreKey c) { code := 0x03, detail := n, addr := addrOf s c a imm } (pcOf s c)))
    ∧ (∀ (i : Instr) (s : State) (c : CoreId) (a : Reg) (imm : BitVec 16) (n : Nat) (v : Core → Nat),
      storeForm i = some (c, a, imm, n, v) → s.ready c = true →
      (∀ t, (scalarStore (coreKey c) (addrOf s c a imm) n (v (s.core (coreKey c)))).run s = .ok () t →
          exec i s = .next (t.retire (coreKey c) (pcOf s c)))
        ∧ ((addrOf s c a imm).toNat % n ≠ 0 →
            exec i s = s.takes (coreKey c) { code := 0x03, detail := n, addr := addrOf s c a imm } (pcOf s c)))


/-- Core k has the line of a DRAM address in its L1, sound and unmarked, and translation at M is off (R265, R276). -/
def Sys2Proof.Claims.l1Hit (s : State) (k : Nat) (va : W64) (key : Nat) : Prop :=
  (s.core k).level = .m ∧ ((s.core k).sr matpNo).getLsbD 63 = false ∧ va.toNat < 2 ^ 46
    ∧ (∃ d, s.region va.toNat = .dram d) ∧ (s.core k).l1Find (va.toNat / 128) = some key
    ∧ ((s.core k).l1Line key).err = 0 ∧ ((s.core k).l1Line key).poison = 0

/-- The byte that a core's L1 holds for a physical address, if it holds the line. -/
def Sys2Proof.Claims.l1Byte (s : State) (k a : Nat) : Option Byte :=
  ((s.core k).l1Find (a / 128)).map fun key => BitVec.ofNat 8 (lineGet ((s.core k).l1Line key).data (a % 128) 1)

/-- An access changes nothing but core k's L1, in which it may move the order of use. -/
def Sys2Proof.Claims.onlyL1 (s t : State) (k : Nat) : Prop :=
  t = { s with cores := t.cores } ∧ (∀ j, j ≠ k → t.core j = s.core j)
    ∧ t.core k = { s.core k with l1 := (t.core k).l1, l1clock := (t.core k).l1clock }

/-- An access at M with its translation off that hits in L1 completes: a load gives the line's bytes and changes no byte that the L1
holds; a store changes the bytes stored and no others, and a load of the same bytes then gives what was stored. Neither changes
anything outside the core's L1: no register, no other core, no lagoon, no DRAM, no port and nothing of the board. -/
def Obligations.L1HitReadsBackStores : Prop :=
  ∀ (s : State) (k : Nat) (va : W64) (n v key : Nat), l1Hit s k va key → (n = 1 ∨ n = 2 ∨ n = 4 ∨ n = 8) → va.toNat % n = 0 →
    (s.armedErr (unitOfKey k) [0x0101, 0x0102] (s.locOf k)) = (0, s) →
    (∃ u, (scalarLoad k va n).run s = .ok (lineGet ((s.core k).l1Line key).data (va.toNat % 128) n) u
        ∧ onlyL1 s u k ∧ ∀ a, l1Byte u k a = l1Byte s k a)
      ∧ ∃ t, (scalarStore k va n v).run s = .ok () t ∧ onlyL1 s t k
        ∧ (∃ u, (scalarLoad k va n).run t = .ok (v % 2 ^ (8 * n)) u ∧ onlyL1 t u k)
        ∧ ∀ a, (a < va.toNat ∨ va.toNat + n ≤ a) → l1Byte t k a = l1Byte s k a

/-! ### Control flow (R27, R28, R35, R41 to R44) -/

/-- A conditional branch goes to PC + 4 × off16 when its condition holds and else to the next instruction; JMP and CALL go to
PC + 4 × off26, CALL with PC + 4 in x1. Each of them raises ILLEGAL where it is the last instruction of an active loop body. A taken transfer from within an active body to a target outside it ends
that level, with ACTIVE and COUNT 0, and from within the outer body both levels; any other leaves the loop registers alone. -/
def Obligations.BranchAndJumpResults : Prop :=
  (∀ (i : Instr) (s : State) (c : CoreId) (off : BitVec 16) (p : Core → Bool), branchForm i = some (c, off, p) →
      s.ready c = true → (s.core (coreKey c)).atLoopEnd = false →
      exec i s = .next (if p (s.core (coreKey c)) then s.goTo (coreKey c) (pcOf s c) (pcPlus (pcOf s c) off)
        else s.retire (coreKey c) (pcOf s c)))
    ∧ (∀ (s : State) (c : CoreId) (off : BitVec 26), s.ready c = true → (s.core (coreKey c)).atLoopEnd = false →
      exec (.jmp c off) s = .next (s.goTo (coreKey c) (pcOf s c) (pcPlus (pcOf s c) off))
      ∧ exec (.call c off) s = .next ((s.updCore (coreKey c) fun x => x.wx 1 (pcOf s c + 4)).goTo (coreKey c) (pcOf s c)
          (pcPlus (pcOf s c) off)))
    ∧ (∀ (i : Instr) (s : State) (c : CoreId) (off : BitVec 16) (p : Core → Bool), branchForm i = some (c, off, p) →
      s.ready c = true → (s.core (coreKey c)).atLoopEnd = true →
      exec i s = s.takes (coreKey c) (ill (instrWord i)) (pcOf s c))
    ∧ (∀ (s : State) (c : CoreId) (off : BitVec 26), s.ready c = true → (s.core (coreKey c)).atLoopEnd = true →
      exec (.jmp c off) s = s.takes (coreKey c) (ill (instrWord (.jmp c off))) (pcOf s c)
      ∧ exec (.call c off) s = s.takes (coreKey c) (ill (instrWord (.call c off))) (pcOf s c))
    ∧ ∀ (x : Core) (e t : W64),
      let leaves := fun lv => x.loopActive lv = true ∧ ((x.sr (loopNo lv 0)).toNat ≤ e.toNat ∧ e.toNat ≤ (x.sr (loopNo lv 1)).toNat)
        ∧ ¬ ((x.sr (loopNo lv 0)).toNat ≤ t.toNat ∧ t.toNat ≤ (x.sr (loopNo lv 1)).toNat)
      (x.jumpFrom e t).pc = t
        ∧ (leaves 0 → ∀ lv < 2, (x.jumpFrom e t).loopActive lv = false ∧ (x.jumpFrom e t).loopCount lv = 0)
        ∧ (¬ leaves 0 → leaves 1 → (x.jumpFrom e t).loopActive 1 = false ∧ (x.jumpFrom e t).loopCount 1 = 0
            ∧ (x.jumpFrom e t).sr (loopNo 0 2) = x.sr (loopNo 0 2))
        ∧ (¬ leaves 0 → ¬ leaves 1 → ∀ n, (x.jumpFrom e t).sr n = x.sr n)

/-- JR writes PC + 4 into x[d] and goes to x[a] + imm; a target whose bits [1:0] are not zero raises MISALIGN on the JR itself:
the event is taken with the JR's PC to save, and x[d] is not written. -/
def Obligations.JrResults : Prop :=
  ∀ (s : State) (c : CoreId) (d a : Reg) (imm : BitVec 16), s.ready c = true → (s.core (coreKey c)).atLoopEnd = false →
    let t := (s.core (coreKey c)).rx a + imm.signExtend 64
    (t.toNat % 4 = 0 →
        exec (.jr c d a imm) s
          = .next ((s.updCore (coreKey c) fun x => x.wx d (pcOf s c + 4)).goTo (coreKey c) (pcOf s c) t))
      ∧ (t.toNat % 4 ≠ 0 →
        exec (.jr c d a imm) s = s.takes (coreKey c) { code := 0x03, detail := 4, addr := t } (pcOf s c)
        ∧ ∀ (u : State) (lv : Level) (g : Gate),
          (findGate (coreKey c) 0x03 3 (s.core (coreKey c)).level).run s = .ok (.gate lv g) u → (u.core (coreKey c)).busy lv = false →
          (lv = .m → (u.core (coreKey c)).mfw = false) → (u.core (coreKey c)).trace = none →
          ∃ r, exec (.jr c d a imm) s = .next r ∧ (r.core (coreKey c)).sr (saveBase lv) = pcOf s c &&& 0xFFFFFFFFFFFFFFFC
            ∧ (d ≠ 2 → (r.core (coreKey c)).rx d = (u.core (coreKey c)).rx d))

/-- The instructions besides branches, JMP and CALL that must not end an active body: JR, LOOP, LOOPI and major 0x2F. -/
def Sys2Proof.Claims.notAtEnd : Instr → Option CoreId
  | .jr c _ _ _ => some c
  | .loop c _ _ => some c
  | .loopi c _ _ => some c
  | .gate c _ => some c
  | .cret c => some c
  | .sret c => some c
  | .mret c => some c
  | _ => none

/-- LOOP and LOOPI with a nonzero count and length start level 0 over the n instructions that follow where level 0 is not active, and
level 1 where it is and level 1 is not and the body ends inside level 0's; a third level, or an inner body that ends beyond the
outer's END, raises ILLEGAL. A count of 0 goes on after the body, a length of 0 to the next instruction, and both leave the loop
registers alone. JR, LOOP, LOOPI, GATE and the returns raise ILLEGAL as the last instruction of an active body. At the end of
the inner level's body the loop test takes one from a count above 1 and goes to START; with a count of 1 or less the level ends;
elsewhere the PC goes up by 4. -/
def Obligations.LoopsRepeatTheirBody : Prop :=
  (∀ (s : State) (c : CoreId) (a : Reg) (m : BitVec 14) (n : BitVec 12), s.ready c = true →
      (s.core (coreKey c)).atLoopEnd = false →
      let outer := (s.core (coreKey c)).loopActive 0
      let inner := (s.core (coreKey c)).loopActive 1
      let end0 := ((s.core (coreKey c)).sr 0x101).toNat
      let last := pcOf s c + BitVec.ofNat 64 (4 * n.toNat)
      let go := fun p => Host.Outcome.next (s.updCore (coreKey c) fun x => { x with pc := p })
      let start := fun first count => Host.Outcome.next (s.updCore (coreKey c) fun x =>
        { ((x.setSr first (pcOf s c + 4)).setSr (first + 1) last).setSr (first + 2) (BitVec.ofNat 64 (2 ^ 63 + count)) with
          pc := pcOf s c + 4 })
      let bad := fun i => s.takes (coreKey c) (ill (instrWord i)) (pcOf s c)
      let cnt := ((s.core (coreKey c)).rx a).toNat % 2 ^ 32
      (n = 0 → exec (.loop c a n) s = go (pcOf s c + 4) ∧ exec (.loopi c m n) s = go (pcOf s c + 4))
        ∧ (n ≠ 0 → cnt = 0 → exec (.loop c a n) s = go (last + 4))
        ∧ (n ≠ 0 → m = 0 → exec (.loopi c m n) s = go (last + 4))
        ∧ (n ≠ 0 → cnt ≠ 0 →
            (outer = false → exec (.loop c a n) s = start 0x100 cnt)
            ∧ (outer = true → inner = false → last.toNat ≤ end0 → exec (.loop c a n) s = start 0x104 cnt)
            ∧ (outer = true → (inner = true ∨ end0 < last.toNat) → exec (.loop c a n) s = bad (.loop c a n)))
        ∧ (n ≠ 0 → m ≠ 0 →
            (outer = false → exec (.loopi c m n) s = start 0x100 m.toNat)
            ∧ (outer = true → inner = false → last.toNat ≤ end0 → exec (.loopi c m n) s = start 0x104 m.toNat)
            ∧ (outer = true → (inner = true ∨ end0 < last.toNat) → exec (.loopi c m n) s = bad (.loopi c m n))))
    ∧ (∀ (i : Instr) (s : State) (c : CoreId), notAtEnd i = some c → s.ready c = true → (s.core (coreKey c)).atLoopEnd = true →
      exec i s = s.takes (coreKey c) (ill (instrWord i)) (pcOf s c))
    ∧ (∀ (x : Core) (e : W64),
      let at_ := fun lv => x.loopActive lv = true ∧ x.sr (loopNo lv 1) = e
      ((¬ at_ 0 ∧ ¬ at_ 1) → x.loopStep e = { x with pc := e + 4 })
        ∧ (∀ lv < 2, at_ lv → (lv = 0 → ¬ at_ 1) → 1 < x.loopCount lv →
            (x.loopStep e).pc = x.sr (loopNo lv 0) ∧ (x.loopStep e).loopCount lv = x.loopCount lv - 1
            ∧ (x.loopStep e).loopActive lv = true)
        ∧ (∀ lv < 2, at_ lv → x.loopCount lv ≤ 1 → (lv = 1 → ¬ at_ 0) → (lv = 0 → ¬ at_ 1) →
            (x.loopStep e).pc = e + 4 ∧ (x.loopStep e).loopActive lv = false))

/-! ### System registers (R11, R48 to R50) -/

/-- The number and form that a system register instruction names: 0 SRR, 1 SRW, 2 SRSET, 3 SRCLR. -/
def Sys2Proof.Claims.sysForm : Instr → Option (CoreId × Nat × Reg × Reg × Nat)
  | .srr c d a n => some (c, 0, d, a, n.toNat)
  | .srw c d a n => some (c, 1, d, a, n.toNat)
  | .srset c d a n => some (c, 2, d, a, n.toNat)
  | .srclr c d a n => some (c, 3, d, a, n.toNat)
  | .loopRegWrite c op d a lv part => some (c, op.sub, d, a, 0x100 + 4 * lv.val + part.val)
  | .ctrCmpWrite c op d a => some (c, op.sub, d, a, 0x510)
  | .pepochWrite c op d a => some (c, op.sub, d, a, 0x150)
  | .l1winWrite c op d a k ctl => some (c, op.sub, d, a, 0x110 + 2 * k.val + if ctl then 1 else 0)
  | .lagwinWrite c op d a k ctl => some (c, op.sub, d, a, 0x120 + 2 * k.val + if ctl then 1 else 0)
  | .atpWrite c op d a => some (c, op.sub, d, a, 0x540)
  | .matpWrite c op d a => some (c, op.sub, d, a, 0xA40)
  | .cmddirWrite c op d a => some (c, op.sub, d, a, 0x570)
  | .steReadyWrite c op d a => some (c, op.sub, d, a, 0x580)
  | .stepDoneWrite c op d a => some (c, op.sub, d, a, 0x581)
  | .snapLocalWrite c op d a => some (c, op.sub, d, a, 0x584)
  | .snapRxDoneWrite c op d a => some (c, op.sub, d, a, 0x586)
  | _ => none

/-- A system register instruction whose core has the register and whose level may use the form reads the old value, except for SRW,
stores what its form says, writes the old value into x[d], except for SRW, and goes on. A number with no register raises ILLEGAL;
a form that its level may not use raises PRIVILEGE. -/
def Obligations.SystemRegisterInstructions : Prop :=
  (∀ (i : Instr) (s : State) (c : CoreId) (sub : Nat) (d a : Reg) (n : Nat), sysForm i = some (c, sub, d, a, n) →
      s.ready c = true → sysPresent (coreKey c) n = true → sysReadLevel n ≠ 3 →
      (sub ≠ 1 → sysReadLevel n ≤ (s.core (coreKey c)).level.code) →
      (sub ≠ 0 → sysWriteLevel n = 3 ∨ sysWriteLevel n ≤ (s.core (coreKey c)).level.code) →
      let k := coreKey c
      let v := (s.core k).rx a
      let old := s.sysRead k n
      exec i s = .next (State.retire
        (if sub = 0 then s.updCore k fun x => x.wx d old
         else if sub = 1 then s.sysWrite k n v
         else if sub = 2 then (s.sysModify k n fun o => o ||| v).updCore k fun x => x.wx d old
         else (s.sysModify k n fun o => o &&& ~~~v).updCore k fun x => x.wx d old) k (pcOf s c)))
    ∧ (∀ (i : Instr) (s : State) (c : CoreId) (sub : Nat) (d a : Reg) (n : Nat), sysForm i = some (c, sub, d, a, n) →
      s.ready c = true →
      let k := coreKey c
      ((sysPresent k n = false ∨ sysReadLevel n = 3) → exec i s = s.takes k (ill (wSys sub d a n)) (pcOf s c))
        ∧ (sysPresent k n = true → sysReadLevel n ≠ 3 →
            ((sub ≠ 1 ∧ (s.core k).level.code < sysReadLevel n)
              ∨ (sub ≠ 0 ∧ sysWriteLevel n ≠ 3 ∧ (s.core k).level.code < sysWriteLevel n)) →
            exec i s = s.takes k (priv (wSys sub d a n)) (pcOf s c)))

/-- What a write leaves in FFLAGS, a pointer register and CTR.CMP: RW bits take the value, a 1 written to a
W1C bit clears it, and every other bit keeps its value; SRSET and SRCLR change RW bits only. -/
def Obligations.SystemWriteAccessTypes : Prop :=
  ∀ (s : State) (k : Nat) (v : W64),
    ((s.sysWrite k 0x040 v).core k).sr 0x040
        = (((s.core k).sr 0x040 &&& ~~~(0xC0#64)) ||| (v &&& 0xC0)) &&& ~~~(v &&& 0x3F)
      ∧ ((s.sysModify k 0x040 fun o => o ||| v).core k).sr 0x040 = (s.core k).sr 0x040 ||| (v &&& 0xC0)
      ∧ ((s.sysModify k 0x040 fun o => o &&& ~~~v).core k).sr 0x040 = (s.core k).sr 0x040 &&& ~~~(v &&& 0xC0)
      ∧ ((s.sysWrite k 0x510 v).core k).sr 0x510 = v
      ∧ ((s.sysWrite k 0x080 v).core k).sr 0x080 = ((s.core k).sr 0x080 &&& ~~~(0x0FFF0FFF#64)) ||| (v &&& 0x0FFF0FFF)

/-- A compute core that a TLBINV of core k reaches: itself, its atoll's cores, or its die's (R277). -/
def Sys2Proof.Claims.tlbinvReaches (k j : Nat) (v : W64) : Prop :=
  let scope := v.toNat / 2 ^ 62
  if scope = 0 then j = k else if scope = 1 then j / 16 = k / 16 else j / 144 = k / 144

/-- SRW of TLBINV and SRW of CMDDB, in the row that its value names, act and go on. TLBINV of a compute core drops, from the TLBs of
every compute core in its scope, every leaf, of any size and of either translation, whose page holds its address, or with ALL 1 every
ATP leaf and no other; it keeps every TLB outside its scope. A doorbell of a command ring moves the ring's tail to INDEX where that leaves no more than 2^S packets
unreplied, and else leaves it; one of the reply ring moves the reply head to an INDEX between it and the next slot. A write of ATP
drops the ATP leaves and a write of MATP the MATP leaves of the core. -/
def Obligations.ActionRegisterWrites : Prop :=
  (∀ (s : State) (c : CoreId) (a : Reg), s.ready c = true →
      let k := coreKey c
      let v := (s.core k).rx a
      (sysPresent k 0x544 = true → 1 ≤ (s.core k).level.code →
          (v.getLsbD 61 = true → exec (.tlbinvAll c a) s = .next ((s.tlbinv k v).retire k (pcOf s c)))
          ∧ (v.getLsbD 61 = false → exec (.tlbinvVpn c a) s = .next ((s.tlbinv k v).retire k (pcOf s c))))
        ∧ (sysPresent k 0x571 = true → 1 ≤ (s.core k).level.code →
          (v.toNat / 16 % 4 ≠ 3 → exec (.cmddbCommandRing c a) s = .next ((s.doorbell v).retire k (pcOf s c)))
          ∧ (v.toNat / 16 % 4 = 3 → exec (.cmddbReplyRing c a) s = .next ((s.doorbell v).retire k (pcOf s c)))))
    ∧ (∀ (s : State) (k j : Nat) (v : W64) (e : TlbEntry) (t : TlbSel), k < 576 → j < 576 →
        (tlbinvReaches k j v → (e ∈ ((s.tlbinv k v).core j).tlb t ↔ e ∈ (s.core j).tlb t
          ∧ (if v.getLsbD 61 then e.m = true else v.toNat / 2 ^ 16 % 2 ^ 41 * 2 ^ 16 / 2 ^ e.log2 ≠ e.vpn)))
        ∧ (¬ tlbinvReaches k j v → (s.tlbinv k v).core j = s.core j))
    ∧ (∀ (s : State) (v : W64),
        let u := v.toNat % 16
        let r := v.toNat / 16 % 4
        let i := v.toNat / 2 ^ 32 % 65536
        let p := s.punit u
        let x := p.ring r
        let q := (s.doorbell v).punit u
        u ≤ 4 → p.ready = true →
        (r < 3 → x.present = true → (x.tail + 65536 - x.replied) % 65536 + (i + 65536 - x.tail) % 65536 ≤ 2 ^ x.log2 →
            (q.ring r).tail = i)
          ∧ (r < 3 → x.tail ≠ i → 2 ^ x.log2 < (x.tail + 65536 - x.replied) % 65536 + (i + 65536 - x.tail) % 65536 →
            (q.ring r).tail = x.tail)
          ∧ (r = 3 → p.replyHead < 65536 → (i + 65536 - p.replyHead) % 65536 ≤ (p.replyNext + 65536 - p.replyHead) % 65536 →
            q.replyHead = i ∧ q.rings = p.rings))
    ∧ (∀ (s : State) (k : Nat) (v : W64) (e : TlbEntry) (t : TlbSel),
        (e ∈ ((s.sysWrite k 0x540 v).core k).tlb t ↔ e ∈ (s.core k).tlb t ∧ e.m = true)
        ∧ (e ∈ ((s.sysWrite k 0xA40 v).core k).tlb t ↔ e ∈ (s.core k).tlb t ∧ e.m = false))


/-! ### Messages (R54 to R58, R299, R300, R303) -/

/-- The message that SEND builds from its destination word (R55 to R57). -/
def Sys2Proof.Claims.sentMessage (s : State) (c : CoreId) (a b : Reg) (len : BitVec 4) : Msg :=
  let x := s.core (coreKey c)
  let d := (x.rx a).toNat
  { tag := BitVec.ofNat 16 (d / 2 ^ 48), epoch := (x.sr 0x150).setWidth 16, src := s.lcoreOf (coreKey c), mbx := d / 2 ^ 9 % 16,
    dst := d % 2 ^ 9, payload := (List.range len.toNat).map fun i => x.rx (BitVec.ofNat 5 (b.toNat + i)), engine := none }

/-- SEND on a compute core puts its message at the end of the outbound queue and goes on; with eight messages there it stalls; off
the compute cores, with LEN above 8 or registers beyond x31 it raises ILLEGAL; mailboxes 14 and 15 below M raise PRIVILEGE. -/
def Obligations.SendQueuesMessage : Prop :=
  ∀ (s : State) (c : CoreId) (a b : Reg) (len : BitVec 4), s.ready c = true →
    let k := coreKey c
    let x := s.core k
    let w := instrWord (.send c a b len)
    let fits := isCompute k = true ∧ len.toNat ≤ 8 ∧ b.toNat + len.toNat ≤ 32
    let may := (x.rx a).toNat / 2 ^ 9 % 16 < 14 ∨ x.level = .m
    (fits → may → x.outq.length < 8 →
        exec (.send c a b len) s
          = .next ((s.updCore k fun y => { y with outq := y.outq ++ [{ msg := sentMessage s c a b len }] }).retire k (pcOf s c)))
      ∧ (fits → may → 8 ≤ x.outq.length → exec (.send c a b len) s = .next s)
      ∧ (¬ fits → exec (.send c a b len) s = s.takes k (ill w) (pcOf s c))
      ∧ (fits → ¬ may → exec (.send c a b len) s = s.takes k (priv w) (pcOf s c))

/-- The header word of R56. -/
def Sys2Proof.Claims.headerWord (g : Msg) : W64 :=
  BitVec.ofNat 64 (g.tag.toNat * 2 ^ 48 + g.epoch.toNat * 2 ^ 32 + 2 ^ 24 + g.payload.length * 2 ^ 20 + g.src)

/-- What a receiving core holds after it has taken the oldest message `g` of a mailbox: the header in x[d], the payload in the
registers after it, every other x register as before, the rest of the messages in the mailbox. -/
def Sys2Proof.Claims.received (s t : State) (c : CoreId) (d : Reg) (m : Nat) (g : Msg) (rest : List Msg) : Prop :=
  let k := coreKey c
  (t.core k).rx d = headerWord g
    ∧ (∀ i < g.payload.length, (t.core k).rx (BitVec.ofNat 5 (d.toNat + 1 + i)) = g.payload.getD i 0)
    ∧ (∀ r : Reg, (r.toNat < d.toNat ∨ d.toNat + g.payload.length < r.toNat) → (t.core k).rx r = (s.core k).rx r)
    ∧ (t.core k).mail m = rest ∧ (t.core k).wait = .none ∧ (t.core k).f = (s.core k).f ∧ t.dram = s.dram

/-- RECV and RECV.NB with a message present receive the oldest one; RECV with none waits at its PC, RECV.NB writes 0 into x[d];
a waiting RECV whose mailbox has a message receives it. That a core holds the wait and that RECV_COMPLETE finishes it is the model's
choice (notes/assumptions/101). Off the compute cores, and with d 0 or above 23, both raise ILLEGAL; else, below the mailbox's level,
which is S for mailboxes 12 and 13 and M for 14 and 15, both raise PRIVILEGE. -/
def Obligations.ReceiveOldestMessage : Prop :=
  (∀ (s : State) (c : CoreId) (d : Reg) (mbx : BitVec 4), isCompute (coreKey c) = true → d ≠ 0 → d.toNat ≤ 23 →
    mbxLevel mbx.toNat ≤ (s.core (coreKey c)).level.code →
    let k := coreKey c
    (s.ready c = true →
        (∀ g rest, (s.core k).mail mbx.toNat = g :: rest → g.payload.length ≤ 8 → g.src < 512 →
            (∃ t, exec (.recv c d mbx) s = .next t ∧ received s t c d mbx.toNat g rest)
            ∧ ∃ t, exec (.recvNb c d mbx) s = .next t ∧ received s t c d mbx.toNat g rest)
        ∧ ((s.core k).mail mbx.toNat = [] →
            exec (.recv c d mbx) s = .next (s.updCore k fun x => { x with wait := .recv d mbx })
            ∧ exec (.recvNb c d mbx) s = .next ((s.updCore k fun x => x.wx d 0).retire k (pcOf s c))))
      ∧ (∀ g rest, (s.core k).wait = .recv d mbx → (s.core k).mail mbx.toNat = g :: rest → g.payload.length ≤ 8 → g.src < 512 →
          (s.updCore k fun x => { x with wait := .none }).ready c = true →
          ∃ t, exec (.recvComplete c) s = .next t ∧ received s t c d mbx.toNat g rest))
    ∧ ∀ (s : State) (c : CoreId) (d : Reg) (mbx : BitVec 4), s.ready c = true →
      let k := coreKey c
      let fits := isCompute k = true ∧ d ≠ 0 ∧ d.toNat ≤ 23
      let below := (12 ≤ mbx.toNat ∧ (s.core k).level = .u) ∨ (14 ≤ mbx.toNat ∧ (s.core k).level = .s)
      (¬ fits → exec (.recv c d mbx) s = s.takes k (ill (instrWord (.recv c d mbx))) (pcOf s c)
          ∧ exec (.recvNb c d mbx) s = s.takes k (ill (instrWord (.recvNb c d mbx))) (pcOf s c))
        ∧ (fits → below → exec (.recv c d mbx) s = s.takes k (priv (instrWord (.recv c d mbx))) (pcOf s c)
          ∧ exec (.recvNb c d mbx) s = s.takes k (priv (instrWord (.recvNb c d mbx))) (pcOf s c))

/-- Every causeway between two dies is up. -/
def Sys2Proof.Claims.linked (s : State) (a b : Nat) : Prop := ((crossings a b).all fun cw => s.board.causeway.get false cw) = true

/-- An outbound queue whose oldest message is queued launches it: it stays in the queue, in flight, and is on the wire. An acceptance
that comes back to a core whose oldest message is in flight frees the queue's entry; a discard frees it and sets MBX.STAT bit 16; a
refusal marks it refused; a WAKE, or the time after a refusal for a full wait list, makes a refused message ready again; a reservation
that lapses, with nothing in the wait list, is given up. -/
def Obligations.OutboundQueueProtocol : Prop :=
  (∀ (s : State) (c : CoreId) (e : OutMsg) (rest : List OutMsg), isCompute (coreKey c) = true → s.corePowered (coreKey c) = true →
      (s.core (coreKey c)).outq = e :: rest → e.st = .queued →
      ∃ t, exec (.messageLaunch c) s = .next t ∧ t.wireMsgs = s.wireMsgs ++ [e.msg]
        ∧ (t.core (coreKey c)).outq = { e with st := .inFlight } :: rest
        ∧ (∀ j, j ≠ coreKey c → t.core j = s.core j) ∧ t.dram = s.dram)
    ∧ ((∀ (s : State) (i : Nat) (g : Msg) (ans : Answer) (st : OutState) (rest : List OutMsg),
        s.wireAcks[i]? = some { msg := g, ans := ans } → g.engine = none → linked s (g.dst / 128) (s.srcDie g) →
        let k := s.keyOfLcore g.src
        (s.core k).outq = { msg := g, st := .inFlight } :: rest →
        (ans = .accept → ∃ t, exec (.ackArrival i) s = .next t ∧ (t.core k).outq = rest ∧ t.wireAcks = s.wireAcks.eraseIdx i)
        ∧ (ans = .discard → ∃ t, exec (.ackArrival i) s = .next t ∧ (t.core k).outq = rest
            ∧ ((t.core k).sr 0x041).getLsbD 16 = true)
        ∧ (ans = .refuse → st = .refused → ∃ t, exec (.ackArrival i) s = .next t
            ∧ (t.core k).outq = { msg := g, st := st } :: rest)
        ∧ (ans = .refuseFull → st = .refusedFull → ∃ t, exec (.ackArrival i) s = .next t
            ∧ (t.core k).outq = { msg := g, st := st } :: rest))
      ∧ (∀ (s : State) (i : Nat) (w : Wake) (e : OutMsg) (rest : List OutMsg), s.wireWakes[i]? = some w → w.engine = none →
        linked s (w.dst / 128) (w.sender / 128) →
        let k := s.keyOfLcore w.sender
        (s.core k).outq = e :: rest → e.msg.dst = w.dst → e.msg.mbx = w.mbx → (e.st = .refused ∨ e.st = .refusedFull) →
        ∃ t, exec (.wakeArrival i) s = .next t ∧ (t.core k).outq = { e with st := .queued } :: rest
          ∧ t.wireWakes = s.wireWakes.eraseIdx i)
      ∧ (∀ (s : State) (c : CoreId) (i : Nat) (e : OutMsg), isCompute (coreKey c) = true →
        let k := s.keyOfLcore (s.lcoreOf (coreKey c))
        (s.core k).outq[i]? = some e → e.st = .refusedFull →
        ∃ t, exec (.refuseRetryTimeout c i) s = .next t
          ∧ (t.core k).outq = (s.core k).outq.set i { e with st := .queued })
      ∧ ∀ (s : State) (c : CoreId) (mbx : BitVec 4) (w : Waiter) (rest : List Waiter),
        (s.core (coreKey c)).reserved = w :: rest → w.mbx = mbx.toNat → (s.core (coreKey c)).waitlist = [] →
        ∃ t, exec (.reservationLapse c mbx) s = .next t ∧ (t.core (coreKey c)).reserved = rest)

/-- A message that arrives at a core that serves its destination: with an equal epoch and an open place it is appended and
accepted; with another epoch and a mailbox below 14 it is dropped, counted in STALEMSG and accepted; with its mailbox full it is
refused and its sender waits in the list. -/
def Obligations.ArrivalDelivers : Prop :=
  ∀ (s : State) (i : Nat) (g : Msg), s.wireMsgs[i]? = some g → s.discards g.dst = false →
    linked s (s.srcDie g) (g.dst / 128) →
    let k := s.keyOfLcore g.dst
    let x := s.core k
    let me : Waiter := { sender := g.src, engine := g.engine, mbx := g.mbx }
    ((14 ≤ g.mbx ∨ g.epoch = (x.sr 0x150).setWidth 16) → x.reserved = [] → x.waitlist = [] → (x.mail g.mbx).length < 4 →
        ∃ t, exec (.messageArrival i) s = .next t ∧ (t.core k).mail g.mbx = x.mail g.mbx ++ [g]
          ∧ t.wireMsgs = s.wireMsgs.eraseIdx i ∧ t.wireAcks = s.wireAcks ++ [{ msg := g, ans := .accept }])
      ∧ (g.mbx < 14 → g.epoch ≠ (x.sr 0x150).setWidth 16 → x.reserved = [] →
        ∃ t, exec (.messageArrival i) s = .next t ∧ (∀ m, (t.core k).mail m = x.mail m)
          ∧ ((t.core k).sr 0x151).toNat % 2 ^ 32 = min ((x.sr 0x151).toNat % 2 ^ 32 + 1) 0xFFFFFFFF
          ∧ t.wireAcks = s.wireAcks ++ [{ msg := g, ans := .accept }])
      ∧ ((14 ≤ g.mbx ∨ g.epoch = (x.sr 0x150).setWidth 16) → x.reserved = [] → x.waitlist.length < 16 → (x.mail g.mbx).length = 4 →
        ∃ t, exec (.messageArrival i) s = .next t ∧ (∀ m, (t.core k).mail m = x.mail m)
          ∧ (t.core k).waitlist = x.waitlist ++ [me] ∧ t.wireAcks = s.wireAcks ++ [{ msg := g, ans := .refuse }])

/-! ### Events, entry and return (R72 to R83) -/

/-- What entry at level t through a gate writes: the save set, both loop levels ended, VPOS and TPOS saved and cleared under
AUTOSAVE, x2 from the gate unless KEEPSP, the level, and the PC at the handler. -/
def Obligations.EntryWritesSaveSet : Prop :=
  ∀ (x : Core) (t : Level) (g : Gate) (e : Event) (pc : W64),
    let b := saveBase t
    let y := x.enter t g e pc
    y.sr b = pc &&& 0xFFFFFFFFFFFFFFFC
      ∧ y.sr (b + 1) = BitVec.ofNat 64 (64 * x.level.code + (if x.ieM then 32 else 0) + (if x.ieS then 16 else 0))
      ∧ y.sr (b + 2) = BitVec.ofNat 64 (2 ^ 63 + (if g.keepsp then 0 else 2 ^ 62) + e.detail % 2 ^ 16 * 2 ^ 32 + e.code % 256)
      ∧ y.sr (b + 3) = e.addr
      ∧ y.sr (b + 6) = BitVec.ofNat 64 (x.loopCount 1 * 2 ^ 32 + x.loopCount 0)
      ∧ y.sr 0x102 = 0 ∧ y.sr 0x106 = 0
      ∧ (g.autosave = true → y.sr (b + 4) = x.sr 0x060 ∧ y.sr (b + 5) = x.sr 0x061 ∧ y.sr 0x060 = 0 ∧ y.sr 0x061 = 0)
      ∧ (g.autosave = false → y.sr (b + 4) = 0 ∧ y.sr (b + 5) = 0 ∧ y.sr 0x060 = x.sr 0x060 ∧ y.sr 0x061 = x.sr 0x061)
      ∧ (g.keepsp = false → y.sr (b + 7) = x.rx 2 ∧ y.rx 2 = g.sp) ∧ (g.keepsp = true → y.rx 2 = x.rx 2)
      ∧ (∀ r, r ≠ 2 → y.rx r = x.rx r) ∧ (∀ r, y.rf r = x.rf r)
      ∧ y.level = t ∧ y.pc = g.handler &&& 0xFFFFFFFFFFFFFFFC
      ∧ y.ieS = (if g.mask = true ∧ t = .s then false else x.ieS) ∧ y.ieM = (if g.mask = true ∧ t = .m then false else x.ieM)

/-- What the boundary does with an exception or a gate call that its lookup cannot enter. A lookup that fails at M, or for GATEBAD,
halts the core with cause GATEBAD; one that fails below M raises GATEBAD at M with the entry's address and the cause. A handling level
whose save set is busy raises DOUBLE at M, with that level in DETAIL; where the level is M or M's set is busy too, the core halts, with
cause MCHECK for a machine check and else DOUBLE. The shipped firmware halts a core on GATEBAD and DOUBLE. A halted core keeps its
registers. -/
def Sys2Proof.Claims.escalates (s u : State) (k : Nat) (e : Event) (pc : W64) : Prop :=
  let find := fun (code : Nat) (l : Level) (s : State) => (findGate k code 3 l).run s
  let first := find e.code ((s.core k).level.max (lowestLevel e.code)) s
  let halts := fun (v : State) (cause code : Nat) =>
    s.takes k e pc = .next (v.stopCore k cause code (v.core k).pc e.injected)
  let enters := fun (v : State) (g : Gate) (e' : Event) =>
    s.takes k e pc = .next ((v.updCore k fun c => c.enter .m g e' pc).traceNote k .entry (BitVec.ofNat 64 e'.code))
  (∀ t a, first = .ok (.bad t a) u →
      let e' := { e with code := 0x10, detail := e.code, addr := a }
      ((t = .m ∨ e.code = 0x10) → halts u 0x10 e.code)
        ∧ (t ≠ .m → e.code ≠ 0x10 → ∀ v,
          (∀ a', find 0x10 .m u = .ok (.bad .m a') v → halts v 0x10 0x10)
          ∧ ∀ g, find 0x10 .m u = .ok (.gate .m g) v → (v.core k).busy .m = false → (v.core k).mfw = false → enters v g e'))
    ∧ ∀ t g, first = .ok (.gate t g) u → isInterrupt e.code = false →
      let e' := { e with code := 0x11, detail := e.code + 256 * t.code }
      ((u.core k).busy t = true → (t = .m ∨ (u.core k).busy .m = true) → halts u (if e.code = 0x12 then 0x12 else 0x11) e.code)
        ∧ ((u.core k).busy t = true → t ≠ .m → (u.core k).busy .m = false → ∀ v,
          (∀ a', find 0x11 .m u = .ok (.bad .m a') v → halts v 0x10 0x11)
          ∧ ∀ g', find 0x11 .m u = .ok (.gate .m g') v → (v.core k).busy .m = false → (v.core k).mfw = false → enters v g' e')
        ∧ (t = .m → (u.core k).busy .m = false → (u.core k).mfw = true → (e.code = 0x10 ∨ e.code = 0x11) →
          ∃ r, s.takes k e pc = .next r ∧ (r.core k).run = .halted e.code)

/-- An event whose lookup finds a gate of a level with a free save set enters there. The shipped M firmware, where it serves M, runs on
at once (R412) and is left out. A reserved word raises ILLEGAL with the word as its address, and an instruction fetch that meets a
fault raises it, each in such a handler. An event whose lookup fails raises GATEBAD at M, and one whose save set is busy raises DOUBLE
at M; where M cannot take these, the core halts with cause GATEBAD, or DOUBLE, or MCHECK for a machine check, and the shipped firmware
halts it on GATEBAD and DOUBLE with that cause. A halted core keeps its registers. -/
def Obligations.EventsEnterTheirGate : Prop :=
  (∀ (s u : State) (k : Nat) (e : Event) (pc : W64) (t : Level) (g : Gate),
      (findGate k e.code 3 ((s.core k).level.max (lowestLevel e.code))).run s = .ok (.gate t g) u → (u.core k).busy t = false →
      (t = .m → (u.core k).mfw = false) →
      s.takes k e pc = .next ((u.updCore k fun c => (c.noteMcheck e).enter t g e pc).traceNote k .entry (BitVec.ofNat 64 e.code)))
    ∧ (∀ (s u : State) (c : CoreId) (w : W32) (t : Level) (g : Gate), s.ready c = true → reservedWord w = true →
      (findGate (coreKey c) 0x01 3 (s.core (coreKey c)).level).run s = .ok (.gate t g) u → (u.core (coreKey c)).busy t = false →
      (t = .m → (u.core (coreKey c)).mfw = false) →
      exec (.reservedOpcode c w) s
        = .next ((u.updCore (coreKey c) fun x => x.enter t g { code := 0x01, addr := w.setWidth 64 } (pcOf s c)).traceNote (coreKey c)
            .entry 1))
    ∧ (∀ (s v u : State) (c : CoreId) (e : Event) (t : Level) (g : Gate), s.ready c = true →
      (fetch (coreKey c)).run s = .error (.exc e) v → e.code ≠ 0x12 → (v.core (coreKey c)).mchk = [] →
      (findGate (coreKey c) e.code 3 ((v.core (coreKey c)).level.max (lowestLevel e.code))).run v = .ok (.gate t g) u →
      (u.core (coreKey c)).busy t = false → (t = .m → (u.core (coreKey c)).mfw = false) →
      exec (.instructionFetchFault c) s
        = .next ((u.updCore (coreKey c) fun x => x.enter t g e (pcOf s c)).traceNote (coreKey c) .entry (BitVec.ofNat 64 e.code)))
    ∧ (∀ (s u : State) (k : Nat) (e : Event) (pc : W64), escalates s u k e pc)
    ∧ ∀ (s : State) (k cause code : Nat) (pc : W64) (injected : Bool), (s.core k).trace = none →
      ((s.stopCore k cause code pc injected).core k).run = .halted cause
        ∧ (∀ r, ((s.stopCore k cause code pc injected).core k).rx r = (s.core k).rx r)
        ∧ (∀ n, ((s.stopCore k cause code pc injected).core k).sr n = (s.core k).sr n)
        ∧ ((s.stopCore k cause code pc injected).core k).pc = (s.core k).pc

/-- GATE k, where its gate is found and its save set free, enters the handler with PC + 4 to return to. At a boundary where TIMER
is the only pending interrupt and the level is U, TAKE_INTERRUPT enters its handler with the next instruction to return to; where the
save set of its handling level is busy, it is passed over and stays pending. Either way a parity error that is armed is stored with a
register that this writes (R414; when is the model's choice: notes/assumptions/191). -/
def Obligations.GateCallsAndInterruptsEnter : Prop :=
  (∀ (s u : State) (c : CoreId) (n : BitVec 7) (t : Level) (g : Gate), s.ready c = true →
      (s.core (coreKey c)).atLoopEnd = false →
      (findGate (coreKey c) (0x80 + n.toNat) 3 (s.core (coreKey c)).level).run s = .ok (.gate t g) u →
      (u.core (coreKey c)).busy t = false → (t = .m → (u.core (coreKey c)).mfw = false) →
      exec (.gate c n) s
        = .next ((u.updCore (coreKey c) fun x => x.enter t g { code := 0x80 + n.toNat } (pcOf s c + 4)).traceNote (coreKey c) .entry
            (BitVec.ofNat 64 (0x80 + n.toNat))))
    ∧ (∀ (s u : State) (c : CoreId) (t : Level) (g : Gate),
      let k := coreKey c
      s.issuing k = true → (s.parityHalt k) = (false, s) → (s.core k).mchk = [] → (s.core k).dbgHaltReq = false →
      (s.core k).vtrapDue = none → (s.core k).level = .u → s.pendingInts k = [{ code := 0x20 }] →
      (findGate k 0x20 3 .s).run s = .ok (.gate t g) u → (u.core k).busy t = false → (t = .m → (u.core k).mfw = false) →
      exec (.takeInterrupt c) s
        = .next (((u.updCore k fun x => x.enter t g { code := 0x20 } (s.core k).pc).traceNote k .entry 0x20).storeParity k s))
    ∧ (∀ (s u : State) (c : CoreId) (t : Level) (g : Gate),
      let k := coreKey c
      s.issuing k = true → (s.parityHalt k) = (false, s) → (s.core k).mchk = [] → (s.core k).dbgHaltReq = false →
      (s.core k).vtrapDue = none → (s.core k).level = .u → s.pendingInts k = [{ code := 0x20 }] →
      (findGate k 0x20 3 .s).run s = .ok (.gate t g) u → (u.core k).busy t = true →
      exec (.takeInterrupt c) s = .next (u.storeParity k s))

/-- A core at U takes any pending interrupt, a core at S one of S only with its enable and one of M always, a core at M one of M only
with its enable and none of S. Where none may be taken, each stays pending and nothing changes. -/
def Obligations.InterruptLevelRule : Prop :=
  (∀ (x : Core) (e : Event), isInterrupt e.code = true →
    (x.mayTake e = true ↔
      ((lowestLevel e.code).code > x.level.code)
      ∨ (lowestLevel e.code = .s ∧ x.level = .s ∧ x.ieS = true) ∨ (lowestLevel e.code = .m ∧ x.level = .m ∧ x.ieM = true)))
    ∧ ∀ (s : State) (c : CoreId), s.issuing (coreKey c) = true → s.parityHalt (coreKey c) = (false, s) →
      (s.core (coreKey c)).mchk = [] → (s.core (coreKey c)).dbgHaltReq = false → (s.core (coreKey c)).vtrapDue = none →
      (∀ e ∈ s.pendingInts (coreKey c), (s.core (coreKey c)).mayTake e = false) → exec (.takeInterrupt c) s = .next s

/-- The return instructions with their levels. -/
def Sys2Proof.Claims.returnForm : Instr → Option (CoreId × Level)
  | .cret c => some (c, .u)
  | .sret c => some (c, .s)
  | .mret c => some (c, .m)
  | _ => none

/-- A return at its own level with a saved level not above it goes to SAVE.PC at the saved level, with the enables, loop counts,
positions and x2 that R79 names restored and BUSY cleared; below its level it raises PRIVILEGE; above it, or with a saved level
above it, ILLEGAL. -/
def Obligations.ReturnsRestore : Prop :=
  ∀ (i : Instr) (s : State) (c : CoreId) (lv : Level), returnForm i = some (c, lv) → s.ready c = true →
    (s.core (coreKey c)).atLoopEnd = false →
    let k := coreKey c
    let x := s.core k
    let b := saveBase lv
    let saved := bitsOf (x.sr (b + 1)).toNat 7 6
    (x.level.code < lv.code → exec i s = s.takes k (priv (instrWord i)) (pcOf s c))
      ∧ (lv.code < x.level.code → exec i s = s.takes k (ill (instrWord i)) (pcOf s c))
      ∧ (x.level = lv → lv.code < saved → exec i s = s.takes k (ill (instrWord i)) (pcOf s c))
      ∧ (x.level = lv → saved ≤ lv.code →
          ∃ t, exec i s = .next t ∧ (t.core k).pc = x.sr b ∧ (t.core k).level.code = saved
            ∧ (t.core k).ieS = (if lv = .u then x.ieS else (x.sr (b + 1)).getLsbD 4)
            ∧ (t.core k).ieM = (if lv = .m then (x.sr (b + 1)).getLsbD 5 else x.ieM)
            ∧ (t.core k).sr 0x060 = x.sr (b + 4) ∧ (t.core k).sr 0x061 = x.sr (b + 5)
            ∧ (t.core k).loopCount 0 = (x.sr (b + 6)).toNat % 2 ^ 32 ∧ (t.core k).loopCount 1 = (x.sr (b + 6)).toNat / 2 ^ 32
            ∧ ((t.core k).loopActive 0 = true ↔ (x.sr (b + 6)).toNat % 2 ^ 32 ≠ 0)
            ∧ ((t.core k).loopActive 1 = true ↔ (x.sr (b + 6)).toNat / 2 ^ 32 ≠ 0)
            ∧ (t.core k).rx 2 = (if (x.sr (b + 2)).getLsbD 62 then x.sr (b + 7) else x.rx 2)
            ∧ (t.core k).busy lv = false
            ∧ (∀ r, r ≠ 2 → (t.core k).rx r = x.rx r)
            ∧ (x.trace = none → (∀ j, j ≠ k → t.core j = s.core j) ∧ t.dram = s.dram))

/-! ### The vector engine and reduction unit (R29, R95 to R123) -/

namespace Sys2Proof.Claims

/-- A VL-form or compat-form vector instruction: its core, operand fields that are read or written, masks that it names, element
count, stop, and whether its fields are legal with pointers as operands and no tap. -/
structure VecRow where
  core : CoreId
  ops : List (BitVec 5)
  masks : List (BitVec 3)
  count : Core → Nat
  stop : Option Nat
  legal : Bool

/-- A mask field that is 0 names no mask (R101). -/
def maskOf (m : BitVec 3) : List (BitVec 3) := if m = 0 then [] else [m]

/-- An element-wise instruction: whether it reads A and B through operand fields, whether B names f[B], and its legal types. -/
def ewRow (c : CoreId) (v : VArgs) (a b fB : Bool) (ty : Bool) : VecRow :=
  { core := c, ops := [v.dD] ++ (if a then [v.dA] else []) ++ (if b then [v.dB] else []), masks := maskOf v.mask,
    count := fun x => (x.sr 0x070).toNat, stop := v.stop,
    legal := !v.native && !v.tap && ty && (a || v.dA == 0) && (b || fB || v.dB == 0) }

def cmpRow (c : CoreId) (v : CmpArgs) : VecRow :=
  { core := c, ops := [v.dA, v.dB], masks := v.md :: maskOf v.mask, count := fun x => (x.sr 0x070).toNat, stop := v.stop,
    legal := !v.native }

def logicRow (c : CoreId) (v : CmpArgs) (two : Bool) : VecRow :=
  { core := c, ops := [], masks := [v.md, v.dA.setWidth 3] ++ (if two then [v.dB.setWidth 3] else []),
    count := fun x => (x.sr 0x070).toNat, stop := v.stop,
    legal := !v.native && v.mask == 0 && v.ty == 0 && decide (v.dA.toNat < 8 ∧ v.dB.toNat < 8) && (two || v.dB == 0) }

def wideRow (c : CoreId) (v : WideArgs) (ops : List (BitVec 5)) (ok : Bool) : VecRow :=
  { core := c, ops := ops, masks := maskOf v.mask, count := fun x => (x.sr 0x070).toNat, stop := v.stop, legal := !v.native && ok }

def mt5Row (c : CoreId) (v : CompatArgs) (ops : List (BitVec 4)) (ok : Bool) : VecRow :=
  { core := c, ops := ops.map fun f => f.setWidth 5, masks := [], count := fun _ => v.count.toNat, stop := v.stop, legal := ok }

/-- Types F (R111). -/
def tyF (v : VArgs) : Bool := v.ty != 3

/-- The resumable vector instructions on pointers. -/
def vecRow : Instr → Option VecRow
  | .vadd c v => some (ewRow c v true true false true)
  | .vsub c v => some (ewRow c v true true false true)
  | .vmul c v => some (ewRow c v true true false true)
  | .vdiv c v => some (ewRow c v true true false (tyF v))
  | .vfma c v => some (ewRow c v true true false (tyF v))
  | .vfms c v => some (ewRow c v true true false (tyF v))
  | .vmin c v => some (ewRow c v true true false true)
  | .vmax c v => some (ewRow c v true true false true)
  | .vaddF c v => some (ewRow c v true false true true)
  | .vsubF c v => some (ewRow c v true false true true)
  | .vmulF c v => some (ewRow c v true false true true)
  | .vfmaF c v => some (ewRow c v true false true (tyF v))
  | .vmov c v => some (ewRow c v true false false true)
  | .vneg c v => some (ewRow c v true false false true)
  | .vabs c v => some (ewRow c v true false false true)
  | .vsqrt c v => some (ewRow c v true false false (tyF v))
  | .vrsqrt c v => some (ewRow c v true false false (tyF v))
  | .vrecip c v => some (ewRow c v true false false (tyF v))
  | .vexp c v => some (ewRow c v true false false (tyF v))
  | .vlog c v => some (ewRow c v true false false (tyF v))
  | .vtanh c v => some (ewRow c v true false false (tyF v))
  | .vsigm c v => some (ewRow c v true false false (tyF v))
  | .vgelu c v => some (ewRow c v true false false (tyF v))
  | .vsilu c v => some (ewRow c v true false false (tyF v))
  | .vand c v => some (ewRow c v true true false true)
  | .vor c v => some (ewRow c v true true false true)
  | .vxor c v => some (ewRow c v true true false true)
  | .vshl c v => some (ewRow c v true true false (v.ty == 3))
  | .vsra c v => some (ewRow c v true true false (v.ty == 3))
  | .vsel c v => some (ewRow c v true true false (v.mask != 0))
  | .vfill c v => some (ewRow c v false false true true)
  | .vcmpEq c v => some (cmpRow c v)
  | .vcmpNe c v => some (cmpRow c v)
  | .vcmpLt c v => some (cmpRow c v)
  | .vcmpLe c v => some (cmpRow c v)
  | .vcmpGt c v => some (cmpRow c v)
  | .vcmpGe c v => some (cmpRow c v)
  | .vcmpUn c v => some (cmpRow c v)
  | .mand c v => some (logicRow c v true)
  | .mor c v => some (logicRow c v true)
  | .mxor c v => some (logicRow c v true)
  | .mnot c v => some (logicRow c v false)
  | .vwmul c v => some (wideRow c v [v.dD, v.dA, v.dB] (v.ty == 1 || v.ty == 2))
  | .vwfma c v => some (wideRow c v [v.dD, v.dA, v.dB] (v.ty == 1 || v.ty == 2))
  | .vdot4 c v => some (wideRow c v [v.dD, v.dA, v.dB] true)
  | .vcvt c v src => some (wideRow c v [v.dD, v.dA] (decide (src.toNat < 6 ∧ v.dB.toNat < 6) && v.ty == 0))
  | .red c v => some { core := c, ops := [v.dA], masks := maskOf v.mask, count := fun x => (x.sr 0x070).toNat, stop := v.stop,
                       legal := !v.native && v.ty != 3 && decide (v.op.toNat < 6) && !(v.op == 2 && v.acc.getLsbD 0) }
  | .mt5Vadd c v => some (mt5Row c v [v.dD, v.dA, v.dB] true)
  | .mt5Vsub c v => some (mt5Row c v [v.dD, v.dA, v.dB] true)
  | .mt5Vmul c v => some (mt5Row c v [v.dD, v.dA, v.dB] true)
  | .mt5Vfma c v => some (mt5Row c v [v.dD, v.dA, v.dB] true)
  | .mt5Vmin c v => some (mt5Row c v [v.dD, v.dA, v.dB] true)
  | .mt5Vmax c v => some (mt5Row c v [v.dD, v.dA, v.dB] true)
  | .mt5Vdiv c v => some (mt5Row c v [v.dD, v.dA, v.dB] true)
  | .mt5Vmov c v => some (mt5Row c v [v.dD, v.dA] (v.dB == 0))
  | .mt5Vneg c v => some (mt5Row c v [v.dD, v.dA] (v.dB == 0))
  | .mt5Vabs c v => some (mt5Row c v [v.dD, v.dA] (v.dB == 0))
  | .mt5Vsqrt c v => some (mt5Row c v [v.dD, v.dA] (v.dB == 0))
  | .mt5Vrecip c v => some (mt5Row c v [v.dD, v.dA] (v.dB == 0))
  | .mt5Vrsqrt c v => some (mt5Row c v [v.dD, v.dA] (v.dB == 0))
  | .mt5Vexp c v => some (mt5Row c v [v.dD, v.dA] (v.dB == 0))
  | .mt5Rsum c v => some (mt5Row c v [v.dA] (v.dD == 0 && v.dB == 0))
  | .mt5Rmax c v => some (mt5Row c v [v.dA] (v.dD == 0 && v.dB == 0))
  | _ => none

/-- What lets a pointer-form instruction run through: no saved position, no enabled flag trap, a sound operand cache with no armed
error, no background work that could share rows, and no stop. -/
def vecReady (s : State) (r : VecRow) : Prop :=
  let k := coreKey r.core
  let x := s.core k
  s.ready r.core = true ∧ hasVector k = true ∧ r.legal = true ∧ r.stop = none ∧ (∀ f ∈ r.ops, f.toNat < 16)
    ∧ (x.sr 0x060).getLsbD 63 = false ∧ x.sr 0x071 &&& 0x3F00 = 0 ∧ x.ocBad = [] ∧ x.bg = []
    ∧ (∀ a ∈ s.armed.get [] (unitOfKey k), a.num ≠ 0x0104)

/-- A number of `n` bytes in the operand cache at element `e` of the row a pointer names. -/
def ocElem (x : Core) (row n e : Nat) : Nat := ofLe (x.ocBytes ((row * 64 + e * n) % ocSize) n)

/-- A floating result rounded to a format, with its flags. -/
def rounded (fmt : Nat) (rm : RMode) (v : FV × Flags) : Nat × Flags :=
  (((fmtOf fmt).encode rm v.1).1, v.2 ||| ((fmtOf fmt).encode rm v.1).2)

/-- The lane of R111's table: format (5 is INT32), rounding mode, f[B], and the elements of a, b and d. -/
def laneTable : Instr → Option (CoreId × VArgs × (Nat → RMode → Nat → Nat → Nat → Nat → Nat × Flags))
  | .vadd c v => some (c, v, fun f rm _ a b _ =>
      if f = 5 then ((a + b) % 2 ^ 32, 0) else rounded f rm (fvAdd rm ((fmtOf f).decode a) ((fmtOf f).decode b)))
  | .vsub c v => some (c, v, fun f rm _ a b _ =>
      if f = 5 then ((a + 2 ^ 32 - b) % 2 ^ 32, 0) else rounded f rm (fvAdd rm ((fmtOf f).decode a) ((fmtOf f).decode b).negate))
  | .vmul c v => some (c, v, fun f rm _ a b _ =>
      if f = 5 then (a * b % 2 ^ 32, 0) else rounded f rm (fvMul ((fmtOf f).decode a) ((fmtOf f).decode b)))
  | .vdiv c v => some (c, v, fun f rm _ a b _ => rounded f rm (fvDiv ((fmtOf f).decode a) ((fmtOf f).decode b)))
  | .vfma c v => some (c, v, fun f rm _ a b d =>
      rounded f rm (fvFma rm ((fmtOf f).decode d) ((fmtOf f).decode a) ((fmtOf f).decode b)))
  | .vaddF c v => some (c, v, fun f rm fb a _ _ =>
      if f = 5 then ((a + fb) % 2 ^ 32, 0) else rounded f rm (fvAdd rm ((fmtOf f).decode a) (fpDec fb)))
  | .vmov c v => some (c, v, fun _ _ _ a _ _ => (a, 0))
  | .vneg c v => some (c, v, fun f _ _ a _ _ =>
      if f = 5 then ((2 ^ 32 - a) % 2 ^ 32, 0) else (a ^^^ 2 ^ (elemBits f - 1), 0))
  | .vand c v => some (c, v, fun _ _ _ a b _ => (a &&& b, 0))
  | .vor c v => some (c, v, fun _ _ _ a b _ => (a ||| b, 0))
  | .vxor c v => some (c, v, fun _ _ _ a b _ => (a ^^^ b, 0))
  | .vshl c v => some (c, v, fun _ _ _ a b _ => (a * 2 ^ (b % 32) % 2 ^ 32, 0))
  | .vfill c v => some (c, v, fun f rm fb _ _ _ => if f = 5 then (fb, 0) else rounded f rm (fpDec fb, 0))
  | _ => none

end Sys2Proof.Claims

/-- Every resumable vector instruction with pointers as operands runs to its end: VPOS is clear, each pointer and mask register that
it names has advanced once, x registers and memory are as before, and with no loop body ending here the PC is the next one. With
an element count of 0 it does nothing but clear VPOS. -/
def Obligations.VectorPointerFormCompletes : Prop :=
  (∀ (i : Instr) (r : VecRow) (s : State), vecRow i = some r → vecReady s r → 0 < r.count (s.core (coreKey r.core)) →
      let k := coreKey r.core
      ∃ t, exec i s = .next t ∧ (t.core k).sr 0x060 = 0
        ∧ (∀ f ∈ r.ops, (t.core k).sr (0x080 + f.toNat) = advanceRow ((s.core k).sr (0x080 + f.toNat)))
        ∧ (∀ m ∈ r.masks, (t.core k).sr (0x090 + m.toNat) = advanceRow ((s.core k).sr (0x090 + m.toNat)))
        ∧ (∀ n, n < 16 → (∀ f ∈ r.ops, f.toNat ≠ n) → (t.core k).sr (0x080 + n) = (s.core k).sr (0x080 + n))
        ∧ (t.core k).sr 0x070 = (s.core k).sr 0x070 ∧ (∀ q, (t.core k).rx q = (s.core k).rx q)
        ∧ (t.core k).l1 = (s.core k).l1 ∧ t.atolls = s.atolls ∧ t.dram = s.dram
        ∧ ((s.core k).atLoopEnd = false → (t.core k).pc = pcOf s r.core + 4))
    ∧ (∀ (i : Instr) (r : VecRow) (s : State), vecRow i = some r → vecReady s r → r.count (s.core (coreKey r.core)) = 0 →
      exec i s = .next ((s.updCore (coreKey r.core) fun x => x.setSr 0x060 0).retire (coreKey r.core) (pcOf s r.core)))

/-- The operands of a laneTable instruction: whether A and B are operand fields, and whether its other fields and its type are legal
(R111). -/
def Sys2Proof.Claims.laneForm : Instr → Option (Bool × Bool × Bool)
  | .vadd _ _ => some (true, true, true)
  | .vsub _ _ => some (true, true, true)
  | .vmul _ _ => some (true, true, true)
  | .vdiv _ v => some (true, true, tyF v)
  | .vfma _ v => some (true, true, tyF v)
  | .vaddF _ _ => some (true, false, true)
  | .vmov _ v => some (true, false, v.dB == 0)
  | .vneg _ v => some (true, false, v.dB == 0)
  | .vand _ _ => some (true, true, true)
  | .vor _ _ => some (true, true, true)
  | .vxor _ _ => some (true, true, true)
  | .vshl _ v => some (true, true, v.ty == 3)
  | .vfill _ v => some (false, false, v.dA == 0)
  | _ => none

/-- Bytes of an element of a format. -/
def Sys2Proof.Claims.bytesOf (fmt : Nat) : Nat := elemBits fmt / 8

/-- The bits of element e that an operand field of core x names (R102, R103), as core y holds them: in the operand cache by a pointer, in
a line of L1 by an x register, or in the operand cache by a descriptor. -/
def Sys2Proof.Claims.opndBits (x y : Core) (native : Bool) (f : BitVec 5) (fmt e : Nat) : Nat :=
  if native = f.getLsbD 4 then ocElem y ((x.sr (0x080 + f.toNat % 16)).toNat % 4096) (bytesOf fmt) e
  else if native then ofLe (y.ocBytes ((x.descOf f.toNat).place 0 e).1 (bytesOf (x.descOf f.toNat).fmt))
  else lineGet (y.l1Line ((y.l1Find ((x.rx f).toNat / 128)).getD 0)).data ((x.rx f).toNat % 128 + e * bytesOf fmt) (bytesOf fmt)

/-- The element that the operand holds, in the instruction's type: a descriptor's is converted from its format (R103). -/
def Sys2Proof.Claims.opndElem (x : Core) (native : Bool) (f : BitVec 5) (fmt e : Nat) : Nat :=
  let d := x.descOf f.toNat
  if native = true ∧ f.getLsbD 4 = false ∧ d.fmt ≠ fmt then (encodeElem fmt x.vrm (decodeElem d.fmt (opndBits x x native f fmt e))).1
  else opndBits x x native f fmt e

/-- The bits that an element of the type becomes where the operand holds it. -/
def Sys2Proof.Claims.opndStored (x : Core) (native : Bool) (f : BitVec 5) (fmt v : Nat) : Nat :=
  let d := x.descOf f.toNat
  if native = true ∧ f.getLsbD 4 = false ∧ d.fmt ≠ fmt then (encodeElem d.fmt x.vrm (decodeElem fmt v)).1 % 2 ^ elemBits d.fmt
  else v % 2 ^ elemBits fmt

/-- What an operand field may name here: a pointer; an address whose n elements lie in one line that L1 holds; or a descriptor of n
elements in the operand cache, of a format without scales. -/
def Sys2Proof.Claims.opndReady (s : State) (k : Nat) (native : Bool) (f : BitVec 5) (fmt n : Nat) : Prop :=
  let x := s.core k
  let d := x.descOf f.toNat
  if native = f.getLsbD 4 then True
  else if native then d.space = 1 ∧ d.malformed = false ∧ d.scaled = false ∧ d.count = n
  else ∃ key, l1Hit s k (x.rx f) key ∧ (x.rx f).toNat % bytesOf fmt = 0 ∧ (x.rx f).toNat % 128 + n * bytesOf fmt ≤ 128

/-- The bit of mask register m for element e; with m = 0 every element is on (R101). -/
def Sys2Proof.Claims.maskOn (x : Core) (m : BitVec 3) (e : Nat) : Bool :=
  m == 0 || ((x.oc.get 0 (((x.sr (0x090 + m.toNat)).toNat % 4096 * 64 + e / 8) % ocSize)).toNat).testBit (e % 8)

/-- The combination of R119, rounded to nearest even. -/
def Sys2Proof.Claims.foldTwo (op a b : Nat) : Nat :=
  let x := fpDec a
  let y := fpDec b
  if op ≤ 2 then (rounded 0 0 (fvAdd 0 x y)).1
  else (rounded 0 0 (if op = 3 then fvMax x y else if op = 4 then fvMin x y else fvMax x.absv y.absv, 0)).1

/-- The fixed pairwise tree of R119 over 2^levels lanes from lane i. -/
def Sys2Proof.Claims.foldLevels (op : Nat) (lane : Nat → Nat) : Nat → Nat → Nat
  | 0, i => lane i
  | l + 1, i => foldTwo op (foldLevels op lane l (2 * i)) (foldLevels op lane l (2 * i + 1))

/-- The accumulator after the fold of 64 lanes by SUM, SUMSQ, MAX, MIN or the largest magnitude. -/
def Sys2Proof.Claims.folded (op acc : Nat) (lane : Nat → Nat) : Nat :=
  foldTwo op acc (foldLevels op (fun i => if op = 1 then (rounded 0 0 (fvMul (fpDec (lane i)) (fpDec (lane i)))).1 else lane i) 6 0)

/-- In one granule, each element of D becomes the lane of R111's table on the elements as they stood before, and the flags of every
lane are ORed into VFLAGS, as raised too. The same holds where operands are a line of L1 or, in the native form, descriptors of the
operand cache, whose elements are converted, and under a mask, which leaves the elements that are off as they were; a tap folds the
elements that are on into its accumulators in the order of R119, and without one these stay. Each pointer named advances. The
instructions are the thirteen of laneTable. That an operand whose descriptor names the instruction's own format is read and written bit
for bit, a NaN's payload with it, is the model's choice (notes/assumptions/122, from R104, R200 and R202). -/
def Obligations.VectorLaneResults : Prop :=
  (∀ (i : Instr) (r : VecRow) (s : State) (c : CoreId) (v : VArgs) (lane : Nat → RMode → Nat → Nat → Nat → Nat → Nat × Flags),
    laneTable i = some (c, v, lane) → vecRow i = some r → vecReady s r → v.mask = 0 →
    let k := coreKey c
    let x := s.core k
    let n := (x.sr 0x070).toNat
    let fmt := typeFmt v.ty
    let size := elemBits fmt / 8
    let row := fun (f : BitVec 5) => (x.sr (0x080 + f.toNat)).toNat % 4096
    let res := fun e => lane fmt x.vrm (x.rf v.dB).toNat (ocElem x (row v.dA) size e) (ocElem x (row v.dB) size e)
      (ocElem x (row v.dD) size e)
    0 < n → n ≤ 64 →
    ∃ t, exec i s = .next t
      ∧ (∀ e < n, ocElem (t.core k) (row v.dD) size e = (res e).1 % 2 ^ (8 * size))
      ∧ (∀ b < ocSize, (∀ j < n * size, b ≠ (row v.dD * 64 + j) % ocSize) → (t.core k).oc.get 0 b = x.oc.get 0 b)
      ∧ (t.core k).sr 0x071
          = (x.sr 0x071 &&& ~~~(0x3F0000#64)) ||| BitVec.ofNat 64 (((List.range n).foldl (fun f e => f ||| (res e).2) (0 : Flags)).toNat * 65537))
    ∧ ∀ (i : Instr) (s : State) (c : CoreId) (v : VArgs) (lane : Nat → RMode → Nat → Nat → Nat → Nat → Nat × Flags) (a b : Bool) (n : Nat),
      laneTable i = some (c, v, lane) → laneForm i = some (a, b, true) →
      let k := coreKey c
      let x := s.core k
      let fmt := typeFmt v.ty
      let fields := [v.dD] ++ (if a then [v.dA] else []) ++ (if b then [v.dB] else [])
      let op := (x.sr 0x074).toNat / 16 % 8
      let acc := (x.sr 0x074).toNat % 4
      s.ready c = true → hasVector k = true → v.stop = none → (x.sr 0x060).getLsbD 63 = false → x.sr 0x071 &&& 0x3F00 = 0 →
      x.ocBad = [] → x.bg = [] → s.armed.get [] (unitOfKey k) = [] → 0 < n → n ≤ 64 →
      (v.native = false → (x.sr 0x070).toNat = n) →
      (v.native = true → isCompute k = true ∧ ∃ f ∈ fields, f.getLsbD 4 = false) →
      (v.tap = true → v.ty ≠ 3 ∧ op < 6 ∧ (op = 2 → acc % 2 = 0)) →
      (∀ f ∈ fields, opndReady s k v.native f fmt n) →
      ((∃ c v, i = .vmov c v) → v.native = true → ∀ f ∈ fields, f.getLsbD 4 = false → (x.descOf f.toNat).fmt = fmt) →
      (v.native = true → v.dD.getLsbD 4 = false → ∀ e < n, ∀ g < n, e ≠ g → ∀ p < bytesOf (x.descOf v.dD.toNat).fmt,
        ∀ q < bytesOf (x.descOf v.dD.toNat).fmt,
        (((x.descOf v.dD.toNat).place 0 e).1 + p) % ocSize ≠ (((x.descOf v.dD.toNat).place 0 g).1 + q) % ocSize) →
      let res := fun e => (lane fmt x.vrm (x.rf v.dB).toNat (opndElem x v.native v.dA fmt e) (opndElem x v.native v.dB fmt e)
        (opndElem x v.native v.dD fmt e)).1 % 2 ^ elemBits fmt
      let lanes := fun (o e : Nat) => if e < n ∧ maskOn x v.mask e = true
        then (if fmt = 0 then res e else (rounded 0 0 (decodeElem fmt (res e), 0)).1)
        else (if o = 3 then 0xFF800000 else if o = 4 then 0x7F800000 else 0)
      let after := fun (j o : Nat) (t : State) =>
        ((t.core k).sr (0x078 + j)).toNat = folded o (x.sr (0x078 + j)).toNat (lanes o)
      ∃ t, exec i s = .next t ∧ (t.core k).sr 0x060 = 0
        ∧ (∀ e < n, opndBits x (t.core k) v.native v.dD fmt e
            = if maskOn x v.mask e then opndStored x v.native v.dD fmt (res e) else opndBits x x v.native v.dD fmt e)
        ∧ (v.tap = false → ∀ j < 4, (t.core k).sr (0x078 + j) = x.sr (0x078 + j))
        ∧ (v.tap = true → (op ≠ 2 → after acc op t) ∧ (op = 2 → after acc 0 t ∧ after (acc + 1) 1 t))
        ∧ (∀ f ∈ fields, f.getLsbD 4 = v.native → (t.core k).sr (0x080 + f.toNat % 16) = advanceRow (x.sr (0x080 + f.toNat % 16)))

/-- The atomic vector and reduction instructions: their core and what they do to it (R116, R120). -/
def Sys2Proof.Claims.vecState : Instr → Option (CoreId × (Core → Core))
  | .setvl c d a => some (c, fun x =>
      let v := BitVec.ofNat 64 (min (x.rx a).toNat 65536)
      (x.setSr 0x070 v).wx d v)
  | .setvli c d imm => some (c, fun x => (x.setSr 0x070 (imm.setWidth 64)).wx d (imm.setWidth 64))
  | .padd c p imm => some (c, fun x =>
      let v := x.sr (0x080 + p.toNat)
      x.setSr (0x080 + p.toNat)
        ((v &&& ~~~(0xFFF#64)) ||| BitVec.ofInt 64 ((((v.toNat % 4096 : Nat) : Int) + imm.toInt) % 4096)))
  | .rget c f acc => some (c, fun x => x.wf f ((x.sr (0x078 + acc.toNat)).setWidth 32))
  | .rput c f acc => some (c, fun x => x.setSr (0x078 + acc.toNat) ((x.rf f).setWidth 64))
  | .rclr c acc op =>
    let id : W64 := if op = 3 then 0xFF800000 else if op = 4 then 0x7F800000 else 0
    if op.toNat < 6 ∧ op ≠ 2 then some (c, fun x => x.setSr (0x078 + acc.toNat) id)
    else if op = 2 ∧ acc.toNat % 2 = 0 then some (c, fun x => (x.setSr (0x078 + acc.toNat) 0).setSr (0x079 + acc.toNat) 0)
    else none
  | _ => none

/-- SETVL, SETVLI, PADD, RGET, RPUT and RCLR on a core with the vector engine. -/
def Obligations.VectorStateInstructions : Prop :=
  ∀ (i : Instr) (s : State) (c : CoreId) (g : Core → Core), vecState i = some (c, g) → s.ready c = true →
    hasVector (coreKey c) = true → exec i s = .next ((s.updCore (coreKey c) g).retire (coreKey c) (pcOf s c))

/-- The instructions that the controllers do not carry, and those that only compute cores carry (R29). -/
def Sys2Proof.Claims.vectorOnly : Instr → Option CoreId
  | .rclr c _ _ => some c
  | .rget c _ _ => some c
  | .rput c _ _ => some c
  | .setvl c _ _ => some c
  | .setvli c _ _ => some c
  | .padd c _ _ => some c
  | i => (vecRow i).map (·.core)

def Sys2Proof.Claims.computeOnly : Instr → Option CoreId
  | .dld c _ _ => some c
  | .dst c _ _ => some c
  | .dbase c _ _ => some c
  | .daddb c _ _ => some c
  | .sgo c _ _ _ _ => some c
  | .swait c _ _ => some c
  | .scred c _ _ => some c
  | .sresume c _ => some c
  | .sstop c _ => some c
  | .scancel c _ => some c
  | .lbar c => some c
  | .tld c _ _ _ _ => some c
  | .tst c _ _ _ => some c
  | .trel c _ => some c
  | .tcfg c _ _ => some c
  | .tmov c _ _ _ _ _ => some c
  | .mmf c _ _ => some c
  | .mmgather c _ _ => some c
  | .mmflush c _ => some c
  | .mmbwd c _ => some c
  | .zdrain c _ _ _ => some c
  | .gaccAdd c _ _ => some c
  | .gaccPut c _ _ => some c
  | .gaccGet c _ _ => some c
  | .send c _ _ _ => some c
  | .recv c _ _ => some c
  | .recvNb c _ _ => some c
  | _ => none

/-- Majors 0x38 to 0x3E and 0x2D raise ILLEGAL off the compute cores; majors 0x30 to 0x36 raise it on the die controllers and the
service core. -/
def Obligations.EngineInstructionsNeedTheirCore : Prop :=
  ∀ (i : Instr) (s : State) (c : CoreId), s.ready c = true →
    ((computeOnly i = some c ∧ isCompute (coreKey c) = false) ∨ (vectorOnly i = some c ∧ hasVector (coreKey c) = false)) →
    exec i s = s.takes (coreKey c) (ill (instrWord i)) (pcOf s c)

/-! ### Descriptors and streams (R137 to R159, R445) -/

/-- The descriptor instructions on a compute core: DBASE and DADDB set BASE; DLD takes the eight words of an aligned image that the
memory operations read, as far as the register keeps their bits; DST writes the register's words; a misaligned image raises
MISALIGN. -/
def Obligations.DescriptorInstructions : Prop :=
  ∀ (s : State) (c : CoreId) (n : BitVec 4) (a : Reg), s.ready c = true → isCompute (coreKey c) = true →
    let k := coreKey c
    let x := s.core k
    let va := x.rx a
    exec (.dbase c n a) s = .next ((s.updCore k fun x => x.setDescWord n.toNat 0 va).retire k (pcOf s c))
      ∧ exec (.daddb c n a) s
          = .next ((s.updCore k fun x => x.setDescWord n.toNat 0 (x.desc.get 0 (8 * n.toNat) + va)).retire k (pcOf s c))
      ∧ (va.toNat % 64 = 0 → ∀ pa v t u, (translate k x.level .d .load false false va).run s = .ok pa t →
          (loadSpan k va pa 64 true).run t = .ok v u →
          ∃ r, exec (.dld c n a) s = .next r
            ∧ (∀ i < 8, (r.core k).desc.get 0 (8 * n.toNat + i) = BitVec.ofNat 64 (v >>> (64 * i)) &&& descMask i)
            ∧ (∀ j, (j < 8 * n.toNat ∨ 8 * n.toNat + 8 ≤ j) → (r.core k).desc.get 0 j = (u.core k).desc.get 0 j))
      ∧ (va.toNat % 64 = 0 → ∀ pa t u, (translate k x.level .d .store false false va).run s = .ok pa t →
          (storeSpan k va pa 64 (packBits 64 (((t.core k).descWords n.toNat).map (·.toNat)))).run t = .ok () u →
          exec (.dst c n a) s = .next (u.retire k (pcOf s c)))
      ∧ (va.toNat % 64 ≠ 0 → exec (.dld c n a) s = s.takes k { code := 0x03, detail := 64, addr := va } (pcOf s c)
          ∧ exec (.dst c n a) s = s.takes k { code := 0x03, detail := 64, addr := va } (pcOf s c))

/-- A unit as SGO starts it (R141): what its assignments do not name keeps its value. -/
def Sys2Proof.Claims.startedUnit (x : Core) (u : StreamUnit) (ds dd : BitVec 4) (a : Reg) : StreamUnit where
  crovf := u.crovf
  fdir := u.fdir
  sfaddr := u.sfaddr
  target := u.target
  state := 1
  src := x.descWords ds.toNat
  dst := x.descWords dd.toNat
  ctl := x.rx a
  note := x.rx (a + 1)
  epoch := (x.sr 0x150).setWidth 16
  level := x.level
  cls := bitsOf (x.rx a).toNat 31 29
  credits := bitsOf (x.rx a).toNat 63 52

/-- The notice that a stream unit sends, from its destination word (R145). -/
def Sys2Proof.Claims.unitNotice (s : State) (k : Nat) (note : W64) : OutMsg :=
  { msg := { tag := BitVec.ofNat 16 (note.toNat / 2 ^ 48), epoch := ((s.core k).sr 0x150).setWidth 16, src := s.lcoreOf k,
             mbx := note.toNat / 2 ^ 9 % 16, dst := note.toNat % 2 ^ 9, payload := [], engine := none } }

/-- SGO on a unit that neither runs nor is halted, with a legal control word and descriptors and no TMOV in flight, makes it RUNNING
with its copies of the descriptors, credits, level and epoch; with an empty walk the unit is DONE, and with NOTIFY its notice waits
in the outbound queue; on a halted unit it raises ILLEGAL. That after an empty walk every field of the unit but its state is 0 is the
model's choice (notes/assumptions/159). -/
def Obligations.SgoStartsUnit : Prop :=
  (∀ (s : State) (c : CoreId) (i : BitVec 3) (ds dd : BitVec 4) (a : Reg), s.ready c = true → isCompute (coreKey c) = true →
      let k := coreKey c
      let x := s.core k
      let ctl := x.rx a
      let note := x.rx (a + 1)
      let sd := x.descOf ds.toNat
      let td := x.descOf dd.toNat
      let cls := bitsOf ctl.toNat 31 29
      let told := ctl.getLsbD 28
      ((x.unit i.toNat).state = 0 ∨ (x.unit i.toNat).state = 3) → a ≠ 31 → cls < 5 → (cls = 2 ∨ cls = 3 → x.level ≠ .u) →
      (told = true → note.toNat / 2 ^ 9 % 16 < 14 ∨ x.level = .m) → x.bg = [] →
      (sd.count ≠ 0 → td.count ≠ 0 → bitsOf ctl.toNat 47 32 ≠ 0 → sgoIllegal sd td cls = false → sd.misaligned = none →
          (td.space ≤ 1 → td.misaligned = none) →
          ∃ t, exec (.sgo c i ds dd a) s = .next t
            ∧ (t.core k).unit i.toNat = startedUnit x (x.unit i.toNat) ds dd a
            ∧ (∀ j, j ≠ i.toNat → (t.core k).unit j = x.unit j) ∧ (∀ r, (t.core k).rx r = x.rx r) ∧ t.dram = s.dram)
        ∧ ((sd.count = 0 ∨ td.count = 0 ∨ bitsOf ctl.toNat 47 32 = 0) → (told = true → x.outq.length < 8) →
          ∃ t, exec (.sgo c i ds dd a) s = .next t ∧ (t.core k).unit i.toNat = { state := 3 }
            ∧ (t.core k).outq = x.outq ++ (if told then [unitNotice s k note] else [])))
    ∧ (∀ (s : State) (c : CoreId) (i : BitVec 3) (ds dd : BitVec 4) (a : Reg), s.ready c = true → isCompute (coreKey c) = true →
      ((s.core (coreKey c)).unit i.toNat).state = 2 →
      exec (.sgo c i ds dd a) s = s.takes (coreKey c) (ill (instrWord (.sgo c i ds dd a))) (pcOf s c))

/-- SWAIT's condition: the unit is not RUNNING, or SFILL has reached the threshold, where there is one (R150). -/
def Sys2Proof.Claims.swaitOver (u : StreamUnit) (thr : Option W64) : Prop := u.state ≠ 1 ∨ ∃ t, thr = some t ∧ t.toNat ≤ u.sfill

/-- LBAR's condition: every DEMAND and MESSAGE unit is DONE or IDLE, and no accepted array instruction is left (R152). -/
def Sys2Proof.Claims.lbarOver (x : Core) : Prop :=
  (∀ j < 8, (x.unit j).cls = 0 ∨ (x.unit j).cls = 4 → (x.unit j).state ≠ 1 ∧ (x.unit j).state ≠ 2) ∧ ∀ o ∈ x.bg, o.isArray = false

/-- At or above the unit's level SCRED adds its credits, held at 4,095 with CROVF set where the sum is above that, to a unit that is
RUNNING or HALTED, and changes no other; SRESUME runs a HALTED unit again and changes no other; SSTOP halts a RUNNING one with cause
STOPPED, stalls while only the notice of one is left, and changes no other; SCANCEL makes the unit IDLE without credits, and the tile
it was writing PARTIAL; below the unit's level each raises PRIVILEGE. SWAIT goes on where the unit is not RUNNING or has reached the
threshold, and else waits; LBAR, with no gather group open, goes on where every DEMAND and MESSAGE unit is DONE or IDLE and no array
work is left, and else waits; their completions go on once that holds. What SSTOP leaves in the unit's other fields and its stall on a
notice (notes/assumptions/27), and what a wait holds (101), are the model's choices. -/
def Obligations.StreamControlAndWaits : Prop :=
  (∀ (s : State) (c : CoreId) (i : BitVec 3) (a : Reg), s.ready c = true → isCompute (coreKey c) = true →
      let k := coreKey c
      let x := s.core k
      let u := x.unit i.toNat
      let n := (x.rx a).toNat % 4096
      (u.level.code ≤ x.level.code →
          (∃ t, exec (.scred c i a) s = .next t
              ∧ (t.core k).unit i.toNat = (if n ≠ 0 ∧ (u.state = 1 ∨ u.state = 2) then
                  { u with credits := min (u.credits + n) 4095, crovf := u.crovf || decide (4095 < u.credits + n) } else u)
              ∧ (∀ j, j ≠ i.toNat → (t.core k).unit j = x.unit j))
          ∧ (∃ t, exec (.sresume c i) s = .next t
              ∧ (t.core k).unit i.toNat = (if u.state = 2 then { u with state := 1, fcause := 0, sfaddr := 0 } else u))
          ∧ (¬ (u.state = 1 ∧ u.noticeDue = true) → ∃ t, exec (.sstop c i) s = .next t
              ∧ (t.core k).unit i.toNat
                = (if u.state = 1 then { u with state := 2, fcause := 4, sfaddr := 0, fdir := false } else u))
          ∧ (u.state = 1 → u.noticeDue = true → exec (.sstop c i) s = .next s)
          ∧ ∃ t, exec (.scancel c i) s = .next t ∧ ((t.core k).unit i.toNat).state = 0 ∧ ((t.core k).unit i.toNat).credits = 0
              ∧ ∀ code, u.writes? = some code → ((t.core k).tile code).st = 3 ∧ ((t.core k).tile code).writer = i.toNat)
        ∧ (x.level.code < u.level.code →
          exec (.scred c i a) s = s.takes k (priv (instrWord (.scred c i a))) (pcOf s c)
          ∧ exec (.sresume c i) s = s.takes k (priv (instrWord (.sresume c i))) (pcOf s c)
          ∧ exec (.sstop c i) s = s.takes k (priv (instrWord (.sstop c i))) (pcOf s c)
          ∧ exec (.scancel c i) s = s.takes k (priv (instrWord (.scancel c i))) (pcOf s c)))
    ∧ (∀ (s : State) (c : CoreId) (i : BitVec 3) (a : Reg), isCompute (coreKey c) = true →
      let k := coreKey c
      let x := s.core k
      let thr := if a = 0 then none else some (x.rx a)
      let awake := s.updCore k fun y => { y with wait := .none }
      (s.ready c = true → swaitOver (x.unit i.toNat) thr → exec (.swait c i a) s = .next (s.retire k (pcOf s c)))
        ∧ (s.ready c = true → ¬ swaitOver (x.unit i.toNat) thr →
          exec (.swait c i a) s = .next (s.updCore k fun y => { y with wait := .swait i thr }))
        ∧ (s.ready c = true → x.gather0 = none → x.gather1 = none → lbarOver x →
          ∃ t, exec (.lbar c) s = .next t ∧ (t.core k).wait = .none ∧ (t.core k).bg = x.bg
            ∧ (x.atLoopEnd = false → (t.core k).pc = pcOf s c + 4))
        ∧ (s.ready c = true → x.gather0 = none → x.gather1 = none → ¬ lbarOver x →
          ∃ t, exec (.lbar c) s = .next t ∧ (t.core k).wait = .lbar ∧ (t.core k).bg = x.bg ∧ (t.core k).pc = pcOf s c)
        ∧ (∀ old, awake.ready c = true → x.wait = .swait i old → swaitOver (x.unit i.toNat) old →
          exec (.swaitComplete c) s = .next (awake.retire k (pcOf s c)))
        ∧ (awake.ready c = true → x.wait = .lbar → lbarOver x → x.gather0 = none → x.gather1 = none →
          ∃ t, exec (.lbarComplete c) s = .next t ∧ (t.core k).wait = .none
            ∧ (x.atLoopEnd = false → (t.core k).pc = pcOf s c + 4)))

/-- The lagoon port grants the first eligible unit from its pointer: the pointer moves past it, and the granule that its body moves is
what changes. A granule of FP32 elements within the operand cache moves: each element of the destination then holds the bytes its
source held, the credits are paid, and the unit's position has advanced. -/
def Obligations.StreamGranuleIsGranted : Prop :=
  (∀ (s u : State) (c : CoreId) (i : Nat),
    let k := coreKey c
    let x := s.core k
    isCompute k = true → s.corePowered k = true → x.run ≠ .inReset →
    ((List.range 8).map fun j => (x.rr + j) % 8).find? (fun i => x.eligible i) = some i →
    (x.unit i).noticeDue = false → x.cannotWrite (x.unit i) = false →
    (granuleBody k i).run (s.updCore k fun y => { y with rr := (i + 1) % 8 }) = .ok () u →
    ctlIter ((u.core k).unit i).ctl > ((u.core k).unit i).iter →
    exec (.streamGranule c) s = .next u)
  ∧ (∀ (s : State) (c : CoreId) (i : Nat),
    let k := coreKey c
    let x := s.core k
    let u := x.unit i
    let sd := Desc.of u.src
    let dd := Desc.of u.dst
    let g := u.granule
    let src := fun e => (sd.place (u.iter * sd.repstep) e).1
    let dst := fun e => (dd.place (u.iter * dd.repstep) e).1
    isCompute k = true → s.corePowered k = true → x.run ≠ .inReset →
    ((List.range 8).map fun j => (x.rr + j) % 8).find? (fun i => x.eligible i) = some i →
    u.noticeDue = false → sd.space = 1 → dd.space = 1 → sd.fmt = 0 → dd.fmt = 0 → u.hit = [] → u.iter + 1 < ctlIter u.ctl →
    x.ocBad = [] → s.armed.get [] (unitOfKey k) = [] →
    (∀ e ∈ g, ∀ f ∈ g, ∀ a < 4, ∀ b < 4, e ≠ f → (dst e + a) % ocSize ≠ (dst f + b) % ocSize) →
    ∃ t, exec (.streamGranule c) s = .next t ∧ (t.core k).rr = (i + 1) % 8
      ∧ (∀ e ∈ g, (t.core k).ocBytes (dst e) 4 = x.ocBytes (src e) 4)
      ∧ ((t.core k).unit i).credits = u.credits - x.creditNeed u
      ∧ ((t.core k).unit i).index = (if dd.count ≤ u.index + g.length then 0 else u.index + g.length)
      ∧ t.dram = s.dram)

/-! ### Tiles (R160 to R193) -/

namespace Sys2Proof.Claims

/-- Element e of a descriptor without scales lies in the operand cache, or in one line that the core's L1 holds (R132, R133). -/
def placeReady (s : State) (k : Nat) (d : Desc) (e : Nat) : Prop :=
  let a := (d.place 0 e).1
  d.space = 1 ∨ ∃ key, l1Hit s k (BitVec.ofNat 64 a) key ∧ a < 2 ^ 46 ∧ a % 128 + bytesOf d.fmt ≤ 128

/-- The bits that stand at the place of walk element e: in the operand cache, or in the core's L1. -/
def placeBits (x : Core) (d : Desc) (e : Nat) : Nat :=
  let a := (d.place 0 e).1
  if d.space = 1 then ofLe (x.ocBytes a (bytesOf d.fmt))
  else lineGet (x.l1Line ((x.l1Find (a / 128)).getD 0)).data (a % 128) (bytesOf d.fmt)

/-- Byte j of walk element e, as an address of its space. -/
def placeByte (d : Desc) (e j : Nat) : Nat := if d.space = 1 then ((d.place 0 e).1 + j) % ocSize else (d.place 0 e).1 + j

/-- The bits of an element in another format without scales: copied where the formats are one, else converted with RNE (R181, R200). -/
def convBits (sf df b : Nat) : Nat := (if sf = df then b else (encodeElem df 0 (decodeElem sf b)).1) % 2 ^ elemBits df

/-- A core on which TLD and TST start anew, and a descriptor of plain elements that lie where placeReady says. -/
def tileReady (s : State) (k : Nat) (d : Desc) : Prop :=
  let x := s.core k
  (x.sr 0x061).getLsbD 63 = false ∧ x.gather0 = none ∧ x.gather1 = none ∧ x.bg = [] ∧ x.ocBad = []
    ∧ s.armed.get [] (unitOfKey k) = [] ∧ d.space ≤ 1 ∧ d.malformed = false ∧ d.scaled = false ∧ d.misaligned = none
    ∧ 0 < d.count ∧ ∀ e < d.count, placeReady s k d e

end Sys2Proof.Claims

/-- TLD and TST that start anew, whose checks pass and whose rows all answer, complete: TLD leaves the tile FULL, written by TLD, in its format and
without poison, and both clear TPOS. No gather group is open and nothing accepted shares the tile. Where the descriptor's elements lie in
the operand cache or in lines of L1, in formats without scales, TLD puts walk element r × n + p into place p of row r and TST puts the
tile's elements there, copied between equal formats and else converted, and +0.0 of a Z tile that holds no data; no other byte of the
operand cache or L1 changes. -/
def Obligations.TileLoadsAndStoresComplete : Prop :=
  (∀ (s : State) (c : CoreId) (tile : BitVec 6) (dn : BitVec 4) (tfmt : BitVec 5), s.ready c = true →
    isCompute (coreKey c) = true → tile.toNat < 40 →
    let k := coreKey c
    let x := s.core k
    let code := tile.toNat
    let d := x.descOf dn.toNat
    tileReady s k d → 0 < x.rowsOf code →
    (tfmt.toNat < 7 → (isZ code = true → tfmt = 0) → (isW code = true → tfmt ≠ 0 ∧ tfmt ≠ 5) →
        d.count = x.rowsOf code * rowElems code tfmt.toNat →
        ∃ t, exec (.tld c tile dn tfmt none) s = .next t ∧ ((t.core k).tile code).st = 2
          ∧ (∀ r < x.rowsOf code, ∀ p < rowElems code tfmt.toNat, (((t.core k).tile code).elem code tfmt.toNat r p).1
              = convBits d.fmt tfmt.toNat (placeBits x d (r * rowElems code tfmt.toNat + p)))
          ∧ (∀ j, j ≠ code → (t.core k).tile j = x.tile j) ∧ (t.core k).oc = x.oc
          ∧ (∀ a, l1Byte t k a = l1Byte s k a) ∧ t.dram = s.dram)
      ∧ (let fmt := if isZ code then 0 else (x.tile code).fmt
        let held := (x.tile code).st == 2
        isW code = false → fmt < 7 → (x.tile code).bad = [] → ((x.tile code).st = 2 ∧ (x.tile code).poison = false
          ∨ isZ code = true ∧ ((x.tile code).st = 0 ∨ (x.tile code).st = 4)) →
        d.count = x.rowsOf code * rowElems code fmt →
        (∀ e < d.count, ∀ f < d.count, e ≠ f → ∀ a < bytesOf d.fmt, ∀ b < bytesOf d.fmt, placeByte d e a ≠ placeByte d f b) →
        ∃ t, exec (.tst c tile dn none) s = .next t
          ∧ (∀ e < d.count, placeBits (t.core k) d e = convBits fmt d.fmt
              (if held then ((x.tile code).elem code fmt (e / rowElems code fmt) (e % rowElems code fmt)).1 else 0))
          ∧ (∀ a, (∀ e < d.count, ∀ j < bytesOf d.fmt, a ≠ placeByte d e j) →
              (d.space = 1 → (t.core k).oc.get 0 a = x.oc.get 0 a) ∧ (d.space = 0 → l1Byte t k a = l1Byte s k a))
          ∧ (d.space = 0 → (t.core k).oc = x.oc) ∧ (d.space = 1 → ∀ a, l1Byte t k a = l1Byte s k a)
          ∧ (∀ j, (t.core k).tile j = x.tile j) ∧ t.dram = s.dram))
  ∧ ∀ (s u : State) (c : CoreId) (tile : BitVec 6) (dn : BitVec 4) (tfmt : BitVec 5), s.ready c = true →
    isCompute (coreKey c) = true → tile.toNat < 40 →
    let k := coreKey c
    let x := s.core k
    let code := tile.toNat
    let d := x.descOf dn.toNat
    (x.sr 0x061).getLsbD 63 = false → x.gather0 = none → x.gather1 = none → x.bg = [] →
    ((tileChecks k (instrWord (.tld c tile dn tfmt none)) code tfmt.toNat d false).run s = .ok false s → 0 < x.rowsOf code →
        ((d.scaled || blockScaled tfmt.toNat) && d.space == 1) = false →
        (rowLoop k x.pc (tldRow k code tfmt.toNat d) (fun _ => tldStop k code) (x.rowsOf code) 0 none).run
          ((s.updCore k fun y => y.runGroupOf code).updCore k fun y => y.updTile code fun t =>
            { t with st := 1, writer := 8, fmt := tfmt.toNat, data := [], scale := [] }) = .ok () u →
        ∃ t, exec (.tld c tile dn tfmt none) s = .next t ∧ ((t.core k).tile code).st = 2 ∧ ((t.core k).tile code).writer = 8
          ∧ ((t.core k).tile code).fmt = tfmt.toNat ∧ ((t.core k).tile code).poison = false ∧ (t.core k).sr 0x061 = 0
          ∧ ((t.core k).tile code).data = ((u.core k).tile code).data)
      ∧ (isW code = false →
        (tileChecks k (instrWord (.tst c tile dn none)) code (if isZ code then 0 else (x.tile code).fmt) d true).run s
          = .ok false s →
        (rowLoop k x.pc (tstRow k code (if isZ code then 0 else (x.tile code).fmt) (x.zHolds code) d)
            (tstStop k code (if isZ code then 0 else (x.tile code).fmt) (x.zHolds code) d) (x.rowsOf code) 0 none).run s = .ok () u →
        exec (.tst c tile dn none) s = .next ((u.updCore k fun y => y.setSr 0x061 0).retire k (pcOf s c)))

/-- TREL of a configured tile that nothing accepted names empties it at once; TCFG with nothing accepted and no unit at work gives
the selected tiles that change their new ROWS, and leaves each of these empty; a release that waits for nothing completes, and leaves
its tile RELEASING only where an open group holds a later one. -/
def Obligations.TileReleaseAndConfigure : Prop :=
  ∀ (s : State) (c : CoreId), isCompute (coreKey c) = true →
    let k := coreKey c
    let x := s.core k
    (s.ready c = true → x.gather0 = none → x.gather1 = none → x.bg = [] → (∀ i < 8, (x.unit i).state = 0 ∨ (x.unit i).state = 3) →
        (∀ tile : BitVec 6, tile.toNat < 40 → x.rowsOf tile.toNat ≠ 0 → (x.tile tile.toNat).st ≠ 4 →
          ∃ t, exec (.trel c tile) s = .next t ∧ ((t.core k).tile tile.toNat).st = 0
            ∧ ((t.core k).tile tile.toNat).rows = (x.tile tile.toNat).rows
            ∧ (∀ j, j ≠ tile.toNat → (t.core k).tile j = x.tile j))
        ∧ (∀ a b : Reg, (x.rx a).toNat < 2 ^ 32 → (x.rx b).toNat ≤ 256 →
          ∃ t, exec (.tcfg c a b) s = .next t
            ∧ ∀ j < 32, ((t.core k).tile j).rows = (if (x.rx a).toNat.testBit j then (x.rx b).toNat else (x.tile j).rows)
              ∧ ((x.rx a).toNat.testBit j = true → (x.tile j).rows ≠ (x.rx b).toNat → ((t.core k).tile j).st = 0)))
      ∧ (s.corePowered k = true → ∀ (tile : BitVec 6) (w : Nat), x.bg = [.rel tile.toNat w] → (x.tile tile.toNat).st = 4 →
        ∃ t, exec (.tileReleaseComplete c tile) s = .next t ∧ (t.core k).bg = []
          ∧ ((t.core k).tile tile.toNat).st = if x.groupReleases tile.toNat then 4 else 0)

/-- What TMOV asks of its fields and tiles in each direction (R182). -/
def Sys2Proof.Claims.tmovReady (x : Core) (tile : BitVec 6) (pk : BitVec 4) (dir : BitVec 2) (tfmt ofmt : BitVec 5) : Prop :=
  let z := x.tile tile.toNat
  z.rows ≠ 0 ∧ (tile.toNat < 16 ↔ dir = 1) ∧ tile.toNat < 32
    ∧ (dir = 0 ∨ dir = 3 → tfmt = 0 ∧ ofmt.toNat < 7) ∧ (dir = 1 → tfmt.toNat < 13 ∧ ofmt.toNat < 7)
    ∧ (dir = 2 → tfmt.toNat < 13 ∧ ofmt = 0 ∧ (x.tile pk.toNat).rows ≠ 0 ∧ z.rows * 32 = (x.tile pk.toNat).rows * perRow tfmt.toNat)
    ∧ (dir = 0 ∨ dir = 2 → (z.st = 2 ∨ z.st = 0 ∨ z.st = 4) ∧ z.poison = false)

/-- TMOV whose fields and tiles are as R182 asks, with no gather group open, is accepted with the row of its pointer, and its
destination tile is FULL, written by TMOV, from then on. Work that waits alone runs and leaves nothing waiting; a move to the operand
cache as FP32 leaves there the elements of the Z tile's rows, a NaN as the canonical NaN, since TMOV is no copy (R202; the model's
choice: notes/assumptions/124). -/
def Obligations.TileMoveToOperandCache : Prop :=
  (∀ (s : State) (c : CoreId) (tile : BitVec 6) (pk : BitVec 4) (dir : BitVec 2) (tfmt ofmt : BitVec 5), s.ready c = true →
      isCompute (coreKey c) = true →
      let k := coreKey c
      let x := s.core k
      let dst := if dir = 2 then pk.toNat else tile.toNat
      x.gather0 = none → x.gather1 = none → tmovReady x tile pk dir tfmt ofmt →
      ∃ t, exec (.tmov c tile pk dir tfmt ofmt) s = .next t
        ∧ (t.core k).bg = x.bg ++ [.tmov tile.toNat pk.toNat ((x.sr (0x080 + pk.toNat)).toNat % 4096) dir.toNat tfmt.toNat ofmt.toNat
            ((x.tile tile.toNat).st == 2)]
        ∧ (t.core k).tile dst
            = (if dir = 0 then x.tile dst else { x.tile dst with st := 2, writer := 9, fmt := tfmt.toNat })
        ∧ (∀ j, j ≠ dst → (t.core k).tile j = x.tile j) ∧ (∀ r, (t.core k).rx r = x.rx r) ∧ t.dram = s.dram)
    ∧ (∀ (s : State) (c : CoreId) (tile pk base dir tfmt ofmt : Nat) (held : Bool), s.corePowered (coreKey c) = true →
      (s.core (coreKey c)).bg = [.tmov tile pk base dir tfmt ofmt held] →
      ∃ t, exec (.tmovRun c) s = .next t ∧ (t.core (coreKey c)).bg = [])
    ∧ (∀ (s : State) (c : CoreId) (z : BitVec 4) (pk : BitVec 4) (base : Nat),
      let k := coreKey c
      let x := s.core k
      let tile : BitVec 6 := 0x10#6 + z.setWidth 6
      s.corePowered k = true → x.bg = [.tmov tile.toNat pk.toNat base 0 0 0 true] → (x.tile tile.toNat).bad = [] →
        (x.tile tile.toNat).rows ≤ 256 → s.armed.get [] (unitOfKey k) = [] →
        ∃ t, exec (.tmovRun c) s = .next t
          ∧ ∀ r < (x.tile tile.toNat).rows, ∀ p < 32, ofLe ((t.core k).ocBytes ((base * 64 + r * 128 + p * 4) % ocSize) 4)
              = (if (fpDec ((x.tile tile.toNat).z r p)).isNan then 0x7FC00000 else (x.tile tile.toNat).z r p))

/-! ### The arrays (R167 to R230) -/

/-- A T tile and a Z tile that an MMF may use, and an array that has room and no open group (R176, R222). -/
def Sys2Proof.Claims.mmfReady (x : Core) (arr t z : Nat) : Prop :=
  x.gather0 = none ∧ x.gather1 = none ∧ x.bg = [] ∧ (x.tile t).rows ≠ 0 ∧ (x.tile t).st = 2 ∧ fmtClass (x.tile t).fmt ≠ 0
    ∧ (x.tile t).poison = false ∧ (x.tile (zCode arr z)).rows ≠ 0 ∧ (x.tile (zCode arr z)).st ≠ 3
    ∧ (x.tile t).rows * packOf (x.tile t).fmt ≤ (x.tile (zCode arr z)).rows ∧ (x.tile (zCode arr z)).poison = false
    ∧ (arr = 1 → x.mode1 = false)

/-- W register w of an array is FULL, sound and of the class of a T tile (R176). -/
def Sys2Proof.Claims.wReady (x : Core) (arr w t : Nat) : Prop :=
  (x.tile (wCode arr w)).st = 2 ∧ (x.tile (wCode arr w)).poison = false
    ∧ fmtClass (x.tile (wCode arr w)).fmt = fmtClass (x.tile t).fmt

/-- MMF puts its pass into the array's queue and makes its Z tile FULL; without KEEP it needs a W register of the T tile's class, with
KEEP cells of that class; with REL the T tile is RELEASING until the pass has read it. MMGATHER, where no group is open, opens one that
stays open while its tokens do not reach FILL, and goes into the array's queue where they do; REL makes its T tile RELEASING, and the
release follows the group. MMFLUSH and a TIMEOUT run the open group, which then waits in the array's queue, its releases behind it, or
behind the other array's open group where that has still to read the tile; MMFLUSH with none open goes on. A REL tile that is RELEASING from acceptance on (notes/assumptions/34), and how a group waits in the array's queue (41), are the
model's choices. -/
def Obligations.ForwardInstructionsAreAccepted : Prop :=
  (∀ (s : State) (c : CoreId) (m : MmArgs) (keep : Bool), s.ready c = true → isCompute (coreKey c) = true →
      let k := coreKey c
      let x := s.core k
      let tt := x.tile m.t.toNat
      let zc := zCode m.arr.val m.z.toNat
      mmfReady x m.arr.val m.t.toNat m.z.toNat → (keep = false → wReady x m.arr.val m.w.toNat m.t.toNat) →
      (keep = true → (x.cells m.arr.val).cls = fmtClass tt.fmt) →
      ∃ t, exec (.mmf c m keep) s = .next t
        ∧ (t.core k).bg = [.pass m.arr.val m.t.toNat tt.fmt (wCode m.arr.val m.w.toNat) zc m.acc keep ((x.tile zc).st == 2)]
            ++ (if m.rel then [.rel m.t.toNat tt.writer] else [])
        ∧ ((t.core k).tile zc).st = 2 ∧ ((t.core k).tile zc).writer = 10
        ∧ (t.core k).tile m.t.toNat = (if m.rel then { tt with st := 4 } else tt)
        ∧ (∀ r, (t.core k).rx r = x.rx r) ∧ t.dram = s.dram)
    ∧ (∀ (s : State) (c : CoreId) (m : MmArgs) (nw : BitVec 2), isCompute (coreKey c) = true → s.ready c = true →
      let k := coreKey c
      let x := s.core k
      let tt := x.tile m.t.toNat
      let tokens := tt.rows * packOf tt.fmt
      let rels := if m.rel then [(m.t.toNat, tt.writer)] else []
      m.z.toNat + nw.toNat < 8 →
      (∀ j ≤ nw.toNat, mmfReady x m.arr.val m.t.toNat (m.z.toNat + j) ∧ wReady x m.arr.val (m.w.toNat + j) m.t.toNat) →
      ∃ t, exec (.mmgather c m nw) s = .next t
        ∧ (tokens < x.fill → (t.core k).bg = [] ∧ ∃ g, (t.core k).group m.arr.val = some g ∧ g.w = m.w.toNat ∧ g.nw = nw.toNat + 1
            ∧ g.reqs.length = 1 ∧ g.tokens = tokens ∧ g.rels = rels)
        ∧ (x.fill ≤ tokens → (t.core k).group m.arr.val = none ∧ ∃ q, q.t = m.t.toNat ∧ q.z = m.z.toNat ∧ q.acc = m.acc
            ∧ (t.core k).bg = [.gather m.arr.val m.w.toNat (nw.toNat + 1) 0 [q]] ++ rels.map fun r => .rel r.1 r.2)
        ∧ (∀ j ≤ nw.toNat, ((t.core k).tile (zCode m.arr.val (m.z.toNat + j))).st = 2)
        ∧ ((t.core k).tile m.t.toNat).st = (if m.rel then 4 else 2))
    ∧ (∀ (s : State) (c : CoreId) (arr : Fin 2), isCompute (coreKey c) = true →
      let k := coreKey c
      let x := s.core k
      (s.ready c = true → x.group arr.val = none → ∃ t, exec (.mmflush c arr) s = .next t ∧ (t.core k).bg = x.bg
          ∧ (x.atLoopEnd = false → (t.core k).pc = pcOf s c + 4))
        ∧ (∀ g, x.group arr.val = some g → x.queued arr.val < 8 →
          let other := x.group (1 - arr.val)
          let later := fun r : Nat × Nat => other.any fun o => o.reqs.any fun q => q.t == r.1
          let after := fun t : State => (t.core k).group arr.val = none
            ∧ (t.core k).group (1 - arr.val) = other.map (fun o => { o with rels := o.rels ++ g.rels.filter later })
            ∧ (t.core k).bg = x.bg ++ [.gather arr.val g.w g.nw 0 g.reqs]
                ++ (g.rels.filter fun r => !later r).map fun r => .rel r.1 r.2
          (s.ready c = true → ∃ t, exec (.mmflush c arr) s = .next t ∧ after t)
          ∧ (s.corePowered k = true → g.timed = true → ∃ t, exec (.gatherTimeout c arr) s = .next t ∧ after t)))

/-- A pass with weights kept in the cells writes, for each T row of a 16-bit format, the row of the Z tile with the sums of R167:
the exact sum of the 32 products, after the prior value where ACC is set and the tile held data, rounded once to FP32. A pass
without KEEP whose W register is FULL loads it into the array's cells, and leaves it EMPTY. -/
def Obligations.ArrayPassComputesSums : Prop :=
  (∀ (s : State) (c : CoreId) (arr : Fin 2) (t tf w z : Nat) (acc held : Bool),
    let k := coreKey c
    let x := s.core k
    s.corePowered k = true → x.bg = [.pass arr.val t tf (wCode arr.val w) (zCode arr.val z) acc true held] → t < 16 → z < 8 →
    fmtClass tf = 1 → (x.tile t).bad = [] → (x.tile (zCode arr.val z)).bad = [] → s.armed.get [] (unitOfKey k) = [] →
    ∃ u, exec (.arrayPass c arr) s = .next u ∧ (u.core k).bg = []
      ∧ ∀ r < (x.tile t).rows, ∀ n < 32,
        ((u.core k).tile (zCode arr.val z)).z r n
          = (accum (if acc && held then some ((x.tile (zCode arr.val z)).z r n) else none)
              (exactSum ((List.range 32).map fun i =>
                fvMul (((x.tile t).token tf r 0).getD i .nan) ((x.cells arr.val).weight i n)))).1 % 2 ^ 32)
    ∧ (∀ (s : State) (c : CoreId) (arr : Fin 2) (t tf w z : Nat) (acc held : Bool),
    let k := coreKey c
    let x := s.core k
    let wc := wCode arr.val w
    s.corePowered k = true → x.bg = [.pass arr.val t tf wc (zCode arr.val z) acc false held] → (x.tile wc).st = 2 → t < 16 → z < 8 →
    ∃ u, exec (.arrayPass c arr) s = .next u ∧ (u.core k).bg = [] ∧ ((u.core k).tile wc).st = 0
      ∧ ((u.core k).cells arr.val).fmt = (x.tile wc).fmt ∧ ((u.core k).cells arr.val).cls = fmtClass (x.tile wc).fmt)

/-- MMBWD, ZDRAIN and the GACC forms whose checks pass go into their arrays' queues; each that writes a Z tile makes it
FULL, and RELY and RELX make their tiles RELEASING behind the MMBWD. Work that waits alone runs. An MMBWD counts its tokens and leaves
array 1 output-stationary; without KEEP its W register goes into array 0's cells, transposed where TW is set. With no errors in its
tiles it writes dX and adds dW as R218 sums them: a dX element is the exact sum of a dY token with the cells, after the prior value
under ACC, rounded once; an accumulator takes X times dY token by token, rounded each time, from +0.0 where array 1 was not
output-stationary. A ZDRAIN first takes the accumulators into the drain shadow and clears their count, with BSTAT.DSH at 1, and then
writes the shadow into its 32 rows where it does not add, with DSH at 0. A GACC PUT copies the tile's rows into the buffer and GET
copies them back. That a ZDRAIN runs as two commands with DSH at 1 between them (notes/assumptions/13), and that the tiles are RELEASING
from the MMBWD's acceptance on (34), are the model's choices. -/
def Obligations.BackwardPass : Prop :=
  (∀ (s : State) (c : CoreId), s.ready c = true → isCompute (coreKey c) = true →
      let k := coreKey c
      let x := s.core k
      x.gather0 = none → x.gather1 = none → x.bg = [] →
      (∀ m : BwdArgs,
          let y := m.dy.toNat
          let xx := m.dx.toNat
          let z := zCode 0 m.z.toNat
          (m.keep = true → m.tw = false ∧ x.cells0.cls = 1) →
          (m.keep = false → (x.tile (wCode 0 m.w.toNat)).st = 2 ∧ (x.tile (wCode 0 m.w.toNat)).poison = false
            ∧ fmtClass (x.tile (wCode 0 m.w.toNat)).fmt = 1) →
          (x.tile y).rows ≠ 0 → (x.tile y).st = 2 → (x.tile y).fmt = 7 → (x.tile xx).st = 2 →
          fmtClass (x.tile xx).fmt = 1 → (x.tile xx).rows = (x.tile y).rows → (x.tile z).st ≠ 3 → (x.tile y).rows ≤ (x.tile z).rows →
          (x.tile y).poison = false → (x.tile xx).poison = false → (x.tile z).poison = false →
          ∃ t, exec (.mmbwd c m) s = .next t
            ∧ (t.core k).bg = [.mmbwd y xx (x.tile xx).fmt (wCode 0 m.w.toNat) z m.acc m.keep m.tw ((x.tile z).st == 2)]
              ++ (if m.rely then [.rel y (x.tile y).writer] else [])
              ++ (if m.relx ∧ ¬ (m.rely ∧ xx = y) then [.rel xx (x.tile xx).writer] else [])
            ∧ ((t.core k).tile z).st = 2
            ∧ ((t.core k).tile y).st = (if m.rely ∨ (m.relx ∧ xx = y) then 4 else 2)
            ∧ ((t.core k).tile xx).st = (if m.relx ∨ (m.rely ∧ xx = y) then 4 else 2))
        ∧ (∀ (z roff : BitVec 3) (acc : Bool), (x.tile (zCode 1 z.toNat)).st ≠ 3 →
          32 * (roff.toNat + 1) ≤ (x.tile (zCode 1 z.toNat)).rows → (x.tile (zCode 1 z.toNat)).poison = false →
          ∃ t, exec (.zdrain c z roff acc) s = .next t
            ∧ (t.core k).bg = [.zdrain (zCode 1 z.toNat) roff.toNat acc ((x.tile (zCode 1 z.toNat)).st == 2)]
            ∧ ((t.core k).tile (zCode 1 z.toNat)).st = 2)
        ∧ (∀ (z : BitVec 4) (a : Reg), gradientHolding k = true → (x.tile (16 + z.toNat)).rows ≠ 0 →
          (x.rx a).toNat + (x.tile (16 + z.toNat)).rows ≤ 32768 → (x.rx a).toNat < 32768 → (x.tile (16 + z.toNat)).st ≠ 3 →
          (x.tile (16 + z.toNat)).poison = false →
          let held := (x.tile (16 + z.toNat)).st == 2
          (∃ t, exec (.gaccAdd c z a) s = .next t ∧ (t.core k).bg = [.gacc 2 (16 + z.toNat) (x.rx a).toNat held])
          ∧ (∃ t, exec (.gaccPut c z a) s = .next t ∧ (t.core k).bg = [.gacc 3 (16 + z.toNat) (x.rx a).toNat held])
          ∧ ∃ t, exec (.gaccGet c z a) s = .next t ∧ (t.core k).bg = [.gacc 4 (16 + z.toNat) (x.rx a).toNat held]
              ∧ ((t.core k).tile (16 + z.toNat)).st = 2))
    ∧ (∀ (s : State) (c : CoreId),
      let k := coreKey c
      let x := s.core k
      s.corePowered k = true → s.armed.get [] (unitOfKey k) = [] →
      (∀ dy dx xf w z acc keep tw held, x.bg = [.mmbwd dy dx xf (wCode 0 w) z acc keep tw held] → dy < 16 → dx < 16 → 16 ≤ z → z < 24 →
          (keep = false → (x.tile (wCode 0 w)).st = 2) →
          let wt := x.tile (wCode 0 w)
          let weight := fun i n => if keep then x.cells0.weight i n
            else valueOf wt.fmt (if tw then wt.elem (wCode 0 w) wt.fmt n i else wt.elem (wCode 0 w) wt.fmt i n)
          let dyAt := fun r n => ((x.tile dy).token 7 r 0).getD n .nan
          let xAt := fun r i => ((x.tile dx).token xf r 0).getD i .nan
          ∃ t, exec (.mmbwdRun c) s = .next t ∧ (t.core k).bg = [] ∧ (t.core k).mode1 = true
            ∧ (t.core k).atok = min (x.atok + (x.tile dy).rows) 0xFFFFFFFF
            ∧ (keep = false → ((t.core k).tile (wCode 0 w)).st = 0 ∧ (t.core k).cells0.fmt = (x.tile (wCode 0 w)).fmt)
            ∧ ((x.tile dy).bad = [] → (x.tile dx).bad = [] → (x.tile z).bad = [] → (keep = false → wt.bad = []) →
              (∀ r < (x.tile dy).rows, ∀ n < 32, ((t.core k).tile z).z r n
                = (accum (if acc && held then some ((x.tile z).z r n) else none)
                    (exactSum ((List.range 32).map fun i => fvMul (dyAt r i) (weight i n)))).1 % 2 ^ 32)
              ∧ ∀ i < 32, ∀ n < 32, ((t.core k).acc.get 0 (32 * i + n)).toNat
                = (List.range (x.tile dy).rows).foldl (fun a r => (accum (some a) (fvMul (xAt r i) (dyAt r n))).1 % 2 ^ 32)
                    (if x.mode1 then (x.acc.get 0 (32 * i + n)).toNat else 0)))
        ∧ (∀ z roff acc held, x.bg = [.zdrain z roff acc held] → x.shadow = none →
          ∃ t, exec (.zdrainWave c) s = .next t ∧ (t.core k).bg = x.bg ∧ (t.core k).atok = 0 ∧ (t.core k).apois = false
            ∧ (t.sysRead k 0x0EA).getLsbD 5 = true
            ∧ ∃ w, (t.core k).shadow = some w ∧ w.snap = x.acc ∧ (w.idle = true ↔ x.atok = 0) ∧ w.pois = x.apois)
        ∧ (∀ z roff held w, x.bg = [.zdrain z roff false held] → x.shadow = some w → 24 ≤ z → z < 32 →
          ∃ t, exec (.zdrainWave c) s = .next t ∧ (t.core k).bg = [] ∧ (t.core k).shadow = none
            ∧ (t.sysRead k 0x0EA).getLsbD 5 = false
            ∧ ∀ n < 32, ∀ p < 32, ((t.core k).tile z).z (32 * roff + n) p = (w.snap.get 0 (32 * n + p)).toNat)
        ∧ (∀ z row, x.bg = [.gacc 3 z row true] → 16 ≤ z → z < 32 → (x.tile z).bad = [] →
          ∃ t, exec (.gaccRun c) s = .next t ∧ (t.core k).bg = []
            ∧ ∀ r < (x.tile z).rows, ∀ p < 32, ((t.core k).gbuf.get 0 (32 * (row + r) + p)).toNat = (x.tile z).z r p)
        ∧ (∀ z row held, x.bg = [.gacc 4 z row held] → 16 ≤ z → z < 32 → x.gbBad = [] → x.gbpois = 0 →
          ∃ t, exec (.gaccRun c) s = .next t ∧ (t.core k).bg = []
            ∧ ∀ r < (x.tile z).rows, ∀ p < 32, ((t.core k).tile z).z r p = (x.gbuf.get 0 (32 * (row + r) + p)).toNat))


/-! ### Fences, range instructions and the task boundary (R246 to R264) -/

/-- The fences with their core, scope, whether they only release, and the visits before an interrupt, where one stops them. -/
def Sys2Proof.Claims.fenceForm : Instr → Option (CoreId × Scope × Bool × Option Nat)
  | .fenceCore c => some (c, .core, true, none)
  | .fenceAtollRel c => some (c.core, .atoll, true, c.stop)
  | .fenceAtoll c => some (c.core, .atoll, false, c.stop)
  | .fenceDieRel c => some (c.core, .die, true, c.stop)
  | .fenceDie c => some (c.core, .die, false, c.stop)
  | .fenceBoardRel c => some (c.core, .board, true, c.stop)
  | .fenceBoard c => some (c.core, .board, false, c.stop)
  | _ => none

/-- A core's L1 line lies in a window with PRIV set, and a lagoon's line does. -/
def Sys2Proof.Claims.l1Priv (x : Core) (key : Nat) : Prop :=
  ∃ w, x.l1winOf ((x.l1Line key).vline * 128) = some w ∧ (x.l1win w).priv = true
def Sys2Proof.Claims.lagPriv (a : Atoll) (key : Nat) : Prop :=
  ∃ w, a.lagwinOf ((a.lagLine key).line * 128) = some w ∧ (a.lagwin w).priv = true

/-- A fence that no interrupt stops goes on, with x registers as before. Which lines a fence visits and that an interrupt may stop it
between two of them are the model's choices (notes/assumptions/102, 145). At ATOLL, DIE and BOARD scope no L1 line outside a window with
PRIV set is dirty then, nor, at DIE and BOARD scope, is such a line of the lagoon or mainland cache that the core reaches; without REL
none of them is valid. FENCE.CORE changes nothing. A fence that an interrupt stops part-way stays at its PC, with x registers as before.
IFENCE empties the instruction cache and changes nothing else. -/
def Obligations.FencesComplete : Prop :=
  (∀ (i : Instr) (s : State) (c : CoreId) (sc : Scope) (rel : Bool), fenceForm i = some (c, sc, rel, none) → s.ready c = true →
      let k := coreKey c
      ∃ t, exec i s = .next t
        ∧ (sc ≠ .core → ∀ key, ((t.core k).l1Line key).valid = true → l1Priv (t.core k) key
            ∨ (rel = true ∧ ((t.core k).l1Line key).dirty = 0))
        ∧ (sc = .die ∨ sc = .board → ∀ a, atollOfKey k = some a → ∀ key, ((t.atoll a).lagLine key).valid = true →
            lagPriv (t.atoll a) key ∨ (rel = true ∧ ((t.atoll a).lagLine key).dirty = 0))
        ∧ (sc = .core → t = s.retire k (pcOf s c))
        ∧ (∀ r, (t.core k).rx r = (s.core k).rx r)
        ∧ ((s.core k).atLoopEnd = false → (t.core k).pc = pcOf s c + 4))
    ∧ (∀ (i : Instr) (s : State) (c : CoreId) (sc : Scope) (rel : Bool) (n : Nat), fenceForm i = some (c, sc, rel, some n) →
      s.ready c = true → (s.fence (coreKey c) sc rel (some n)).1 = false →
      ∃ t, exec i s = .next t ∧ (t.core (coreKey c)).pc = pcOf s c ∧ ∀ r, (t.core (coreKey c)).rx r = (s.core (coreKey c)).rx r)
    ∧ (∀ (s : State) (c : CoreId), s.ready c = true →
      exec (.ifence c) s = .next ((s.updCore (coreKey c) fun x => { x with icache := [] }).retire (coreKey c) (pcOf s c)))

/-- CWB and CINV pass over the lines that their range translates to; in that pass each of them that the L1 holds is clean, and for CINV
not valid, and at DIE and BOARD scope so is each of them that the core's lagoon or the mainland cache then holds: a dirty one that is
not dead leaves its dirty bytes, and no others, in DRAM; a range of 0 bytes does nothing; scope CORE and a range above 2 MiB raise ILLEGAL. DEAD on a compute core marks the lines that lie wholly in its range; above 16 MiB it raises ILLEGAL. A line
marked dead while an entry is free or covers its region reads as dead in its atoll. -/
def Obligations.RangeInstructions : Prop :=
  (∀ (s : State) (c : CoreId) (sc : Scope) (a b : Reg), s.ready c = true →
      let k := coreKey c
      let va := (s.core k).rx a
      let n := ((s.core k).rx b).toNat
      (sc ≠ .core → n = 0 → exec (.cwb c sc a b) s = .next (s.retire k (pcOf s c))
          ∧ exec (.cinv c sc a b) s = .next (s.retire k (pcOf s c)))
        ∧ (sc ≠ .core → 0 < n → n ≤ 2 * 2 ^ 20 → ∀ lines t, (rangeLines k .cmo va n).run s = .ok lines t →
            exec (.cwb c sc a b) s = .next ((t.rangePass k sc false (lines.map (·.2))).retire k (pcOf s c))
            ∧ exec (.cinv c sc a b) s = .next ((t.rangePass k sc true (lines.map (·.2))).retire k (pcOf s c)))
        ∧ ((sc = .core ∨ 2 * 2 ^ 20 < n) → exec (.cwb c sc a b) s = s.takes k (ill (instrWord (.cwb c sc a b))) (pcOf s c)
            ∧ exec (.cinv c sc a b) s = s.takes k (ill (instrWord (.cinv c sc a b))) (pcOf s c))
        ∧ (isCompute k = true → n ≤ 16 * 2 ^ 20 → (va.toNat + 127) / 128 < (va.toNat + n) / 128 → ∀ lines t,
            (rangeLines k .dead va n).run s = .ok lines t →
            exec (.dead c a b) s = .next (State.retire
              ((lines.filter fun l => decide ((va.toNat + 127) / 128 ≤ l.1 ∧ l.1 < (va.toNat + n) / 128)).foldl
                (fun s l => s.deadLine k (k / 16) l.2) t) k (pcOf s c)))
        ∧ (isCompute k = true → 16 * 2 ^ 20 < n → exec (.dead c a b) s = s.takes k (ill (instrWord (.dead c a b))) (pcOf s c)))
    ∧ (∀ (s : State) (k : Nat) (sc : Scope) (inv : Bool) (lines : List Nat) (line key : Nat), line ∈ lines →
      (s.core k).l1Find line = some key →
      let l := ((s.rangePass k sc inv lines).core k).l1Line key
      l.dirty = 0 ∧ (inv = true → l.valid = false))
    ∧ (∀ (s : State) (k a : Nat) (sc : Scope) (inv : Bool) (lines : List Nat) (line key : Nat), line ∈ lines →
      (sc = .die ∨ sc = .board) → atollOfKey k = some a →
      ((s.rangePass k .atoll inv lines).atoll a).lagFind a line = some key →
      let l := ((s.rangePass k sc inv lines).atoll a).lagLine key
      l.dirty = 0 ∧ (inv = true → l.valid = false))
    ∧ (∀ (s : State) (k a : Nat) (sc : Scope) (inv : Bool) (line key : Nat), (sc = .die ∨ sc = .board) → atollOfKey k = some a →
      (s.core k).l1Find line = none → (s.atoll a).lagFind a line = some key → (s.atoll a).isDead line = false →
      let l := (s.atoll a).lagLine key
      l.dirty ≠ 0 → l.err = 0 → s.lineReachable (atollPlace a) line = true →
      let t := s.rangePass k sc inv [line]
      (∀ i < 128, t.dram.bytes.get 0 (line * 128 + i)
          = if l.dirty.getLsbD i then BitVec.ofNat 8 (lineGet l.data i 1) else s.dram.bytes.get 0 (line * 128 + i))
        ∧ ∀ b, (b < line * 128 ∨ line * 128 + 128 ≤ b) → t.dram.bytes.get 0 b = s.dram.bytes.get 0 b)
    ∧ (∀ (s : State) (k line key : Nat), isCompute k = true → (s.atoll (k / 16)).deadEntry (deadRegion line) = some key →
      key < 8 → (∀ j < 8, ((s.atoll (k / 16)).deadr.get {} j).valid = false ∨ ((s.atoll (k / 16)).deadr.get {} j).region ≠ deadRegion line
        ∨ j = key) →
      ((s.deadLine k (k / 16) line).atoll (k / 16)).isDead line = true)

/-- FENCE.TASK at U raises PRIVILEGE. Above U, with no unit at work and nothing accepted, a compute core drops its L1 and
waits as arrived; where the atoll part has already run for it, it completes. When every core of a powered atoll has arrived
and one is in FENCE.TASK, the atoll part empties the lagoon and the dead ranges; where DRAIN has told the atoll, it becomes drained;
where not, each waiting core goes on. When the core drops its L1 and counts as arrived, which cores count as arrived (notes/assumptions/32)
and what a waiting FENCE.TASK holds (101) are the model's choices. -/
def Obligations.TaskBoundary : Prop :=
  (∀ (s : State) (c : CoreId), s.ready c = true →
      let k := coreKey c
      let x := s.core k
      (x.level = .u → exec (.fenceTask c) s = s.takes k (priv (instrWord (.fenceTask c))) (pcOf s c))
        ∧ (x.level ≠ .u → isCompute k = true → x.gather0 = none → x.gather1 = none → x.bg = [] →
            (∀ i < 8, (x.unit i).state = 0 ∨ (x.unit i).state = 3) →
            (x.taskRan = false → ∃ t, exec (.fenceTask c) s = .next t ∧ (t.core k).taskArrived = true ∧ (t.core k).wait = .fenceTask
                ∧ (t.core k).pc = x.pc ∧ ∀ key, ((t.core k).l1Line key).valid = false)
            ∧ (x.taskRan = true → s.atollDrained (k / 144) (posOfKey k) = false →
                ∃ t, exec (.fenceTask c) s = .next t ∧ (t.core k).taskArrived = false ∧ (t.core k).taskRan = false
                  ∧ (t.core k).icache = [] ∧ (∀ key, ((t.core k).l1Line key).valid = false) ∧ (x.atLoopEnd = false → (t.core k).pc = x.pc + 4))))
    ∧ (∀ (s : State) (die : Fin 4) (pos : Fin 9), (s.die die.val).up = true → (s.atoll (die.val * 9 + pos.val)).powered = true →
      (∀ k ∈ coresAt die.val pos.val, (s.core k).arrived = true) → (∃ k ∈ coresAt die.val pos.val, (s.core k).taskArrived = true) →
      s.atollDrained die.val pos.val = false →
      ∃ t, exec (.atollTaskPart die pos) s = .next t ∧ (t.atoll (die.val * 9 + pos.val)).lag = []
        ∧ (t.atoll (die.val * 9 + pos.val)).deadr = []
        ∧ (∀ a, (s.die die.val).logicalAt pos.val = some a → (s.die die.val).draining.testBit a = true →
            (t.die die.val).drained.testBit a = true ∧ (t.die die.val).draining.testBit a = false)
        ∧ ((∀ a, (s.die die.val).logicalAt pos.val = some a → (s.die die.val).draining.testBit a = false) →
            ∀ k ∈ coresAt die.val pos.val, (s.core k).taskArrived = true → (s.core k).wait = .fenceTask →
              (t.core k).wait = .none ∧ (t.core k).taskArrived = false))


/-! ### DRAM, arbiters and causeways (R269, R283 to R293) -/

/-- A write of an agent that works with physical addresses stores its bytes where every line of them is reached, changes no other
byte, and leaves lagoons, strait ports and the command queue alone; a write to a line that is not reached is discarded. -/
def Obligations.PhysicalWritesStore : Prop :=
  ∀ (s : State) (src : Place) (pa ddr mesh : Nat) (bytes : List Byte),
    ((∀ l, pa / 128 ≤ l → l * 128 < pa + bytes.length → s.lineReachable src l = true) →
        let t := s.physWrite src pa bytes ddr mesh
        (∀ i < bytes.length, t.dram.bytes.get 0 (pa + i) = bytes.getD i 0)
          ∧ (∀ a, (a < pa ∨ pa + bytes.length ≤ a) → t.dram.bytes.get 0 a = s.dram.bytes.get 0 a)
          ∧ t.atolls = s.atolls ∧ t.ports = s.ports ∧ t.pending = s.pending)
      ∧ (∀ l data mask p, s.lineReachable src l = false → s.dramWrite src l data mask p ddr mesh = s)

/-- No class has waited as long as its LIMIT. -/
def Sys2Proof.Claims.fresh (limit : Nat → Nat) (a : Arbiter) : Prop := ∀ c, limit c ≠ 0 → a.age.get 0 c < limit c

/-- What leaves an output of a die's mesh may go on: the output is no gateway's, or the gateway's causeway is up (R293). -/
def Sys2Proof.Claims.wayOn (s : State) (die stop out : Nat) : Prop :=
  out = 4 → ∀ cw, gatewayAt die (stop % 6, stop / 6) = some cw → s.board.causeway.get false cw = true

/-- An arbiter serves the class that became urgent first, whatever its rank, and its age starts again. With no class urgent, a DDR
channel serves class 0 first and, where one other class alone waits, that one, a burst at a time in order of arrival; with nothing
waiting nothing happens. An age that reaches its LIMIT makes a waiting class urgent. A router output passes a waiting CONTROL packet
of the request plane on to the next output of its route, and a packet of the response plane's next waiting input. These are the model's choices: nothing where nothing waits (notes/assumptions/2), how
outputs are named and a grant moves a burst to its next output, in the order in which classes became urgent (4), and both planes in one
grant (126). -/
def Obligations.ArbitersServeTheirClasses : Prop :=
  (∀ (a : Arbiter) (limit weight : Nat → Nat) (fixed rr : List Nat) (burst c : Nat) (rest : List Nat),
      (a.noteUrgent limit (fixed ++ rr)).urgent = c :: rest →
      ∃ g, a.grant limit weight fixed rr burst = some g ∧ g.cls = c ∧ g.promoted = true
        ∧ g.granted = (a.waiting.get [] c).take burst ∧ g.arb.waiting.get [] c = (a.waiting.get [] c).drop burst
        ∧ g.arb.age.get 0 c = 0 ∧ c ∉ g.arb.urgent)
    ∧ (∀ (s : State) (die : Fin 4) (ch : Fin 8),
      let d := s.die die.val
      let a := d.ddr.get {} ch.val
      fresh d.ddrLimit a →
      (∀ c < 5, a.isPending c = true → (c = 0 ∨ ∀ e, e ≠ c → a.isPending e = false) →
        (∀ r ∈ a.waiting.get [] c, ∀ h ∈ r.head?, 10000 ≤ h) →
        ∃ t, exec (.ddrGrantBurst die ch) s = .next t
          ∧ ((t.die die.val).ddr.get {} ch.val).waiting.get [] c = (a.waiting.get [] c).drop d.ddrBurst
          ∧ (∀ e, e ≠ c → ((t.die die.val).ddr.get {} ch.val).waiting.get [] e = a.waiting.get [] e)
          ∧ (t.die die.val).ddrPromo = d.ddrPromo ∧ t.dram = s.dram ∧ t.cores = s.cores)
      ∧ ((∀ c, a.isPending c = false) → exec (.ddrGrantBurst die ch) s = .next s))
    ∧ (∀ (s : State) (die : Fin 4) (ch : Fin 8) (cls : Fin 5),
      let d := s.die die.val
      let a := d.ddr.get {} ch.val
      ∃ t, exec (.ddrAgeLimit die ch cls) s = .next t
        ∧ (a.isPending cls.val = true → d.ddrLimit cls.val ≠ 0 → cls.val ∈ ((t.die die.val).ddr.get {} ch.val).urgent)
        ∧ (a.isPending cls.val = false → (t.die die.val).ddr.get {} ch.val = a)
        ∧ ((t.die die.val).ddr.get {} ch.val).waiting = a.waiting)
    ∧ (∀ (s : State) (die : Fin 4) (stop : Fin 30) (out : Fin 5) (h : Nat) (rest : List Nat),
      let d := s.die die.val
      let key := stop.val * 5 + out.val
      let a := d.mesh.get {} key
      fresh d.meshLimit a → s.armed.get [] die.val = [] → a.waiting.get [] 0 = [h :: rest] → h < 600 → h ≠ die.val * 150 + key →
      (d.resp.get {} key).next = none → wayOn s die.val stop.val out.val →
      ∃ t, exec (.meshGrant die stop out) s = .next t
        ∧ ((t.die die.val).mesh.get {} key).waiting.get [] 0 = []
        ∧ ((t.die (h / 150)).mesh.get {} (h % 150)).waiting.get [] 0
            = ((s.die (h / 150)).mesh.get {} (h % 150)).waiting.get [] 0 ++ [rest]
        ∧ t.dram = s.dram ∧ t.cores = s.cores)
    ∧ (∀ (s : State) (die : Fin 4) (stop : Fin 30) (out : Fin 5) (i h : Nat) (rest : List Nat) (more : List (List Nat)),
      let d := s.die die.val
      let key := stop.val * 5 + out.val
      let to_ := (h - 10000) / 5
      (∀ c, (d.mesh.get {} key).isPending c = false) → (d.resp.get {} key).next = some i →
      (d.resp.get {} key).waiting.get [] i = (h :: rest) :: more → 10000 ≤ h → to_ ≠ die.val * 150 + key →
      wayOn s die.val stop.val out.val → s.armed.get [] die.val = [] →
      ∃ t, exec (.meshGrant die stop out) s = .next t
        ∧ ((t.die die.val).resp.get {} key).waiting.get [] i = more ∧ ((t.die die.val).resp.get {} key).last = i
        ∧ ((t.die (to_ / 150)).resp.get {} (to_ % 150)).waiting.get [] ((h - 10000) % 5)
            = ((s.die (to_ / 150)).resp.get {} (to_ % 150)).waiting.get [] ((h - 10000) % 5) ++ [rest]
        ∧ t.dram = s.dram ∧ t.cores = s.cores)
    ∧ (∀ (s : State) (die : Fin 4) (stop : Fin 30) (out : Fin 5) (cls : Fin 6),
      let d := s.die die.val
      let key := stop.val * 5 + out.val
      let a := d.mesh.get {} key
      ∃ t, exec (.meshAgeLimit die stop out cls) s = .next t
        ∧ (a.isPending cls.val = true → d.meshLimit cls.val ≠ 0 → cls.val ∈ ((t.die die.val).mesh.get {} key).urgent)
        ∧ ((t.die die.val).mesh.get {} key).waiting = a.waiting)

/-- The core of a unit runs its firmware with its M save set free and no machine check waiting (R411, R412). -/
def Sys2Proof.Claims.ctlFree (s : State) (u : Nat) : Prop :=
  s.ctlLive u = true ∧ (s.core (ctlKey u)).busy .m = false ∧ (s.core (ctlKey u)).mchk = []

/-- A causeway that goes down is down and no other changes, and each end's die controller, where it runs with its M save set free and no
machine check waiting, reports it to mainland core 0; a flit that is replayed is counted at each end. The patrol scrubber corrects a single-device error of a populated line, marks a line with two bad
devices poisoned, and changes no byte. That mainland core 0 holds the report at once is the model's choice, and so are the commands that
change nothing (notes/assumptions/2, 97). From then on a read of DRAM whose way crosses it meets an error response and changes nothing,
a write is discarded, and a load of another unit's range there takes MCHECK 0x0304 on itself (R269, R293). That an access is judged
when it enters the mesh, and a packet that has been let in goes no further there, is the model's choice (notes/assumptions/5, 177). -/
def Obligations.CausewaysAndScrub : Prop :=
  (∀ (s : State) (cw : Fin 8), s.board.causeway.get false cw.val = true →
      (∃ t, exec (.causewayDown cw) s = .next t ∧ t.board.causeway.get false cw.val = false
        ∧ (∀ v, v ≠ cw.val → t.board.causeway.get false v = s.board.causeway.get false v)
        ∧ ((∀ e ∈ causewayEnds cw.val, ctlFree s e.1) → (t.core 576).notices
            = (s.core 576).notices ++ (causewayEnds cw.val).map fun e => BitVec.ofNat 16 (0x310 + e.1))
        ∧ (∀ (src : Place) (line d ddr mesh : Nat), t.region (line * 128) = .dram d → cw.val ∈ crossings src.die d →
          t.dramRead src line ddr mesh = ({ bad := true }, t) ∧ ∀ data mask p, t.dramWrite src line data mask p ddr mesh = t)
        ∧ ∀ (k pa n : Nat) (va : W64) (eng train : Bool), t.uncached k pa = true →
          cw.val ∈ crossings (corePlace k).die (t.region pa).home.die →
          loadSpanE k eng va pa n train t = accessMcheck k 0x0304 va pa (if eng = true then 10 else 2) 0 t)
      ∧ ∃ t, exec (.causewayFlitReplay cw) s = .next t
        ∧ (∀ e ∈ causewayEnds cw.val,
            t.board.cwRetry.get 0 (e.1 * 3 + e.2) = min (s.board.cwRetry.get 0 (e.1 * 3 + e.2) + 1) 0xFFFFFFFF
            ∧ (t.dets.get {} (e.1 * 65536 + 0x306)).count = min ((s.dets.get {} (e.1 * 65536 + 0x306)).count + 1) 0xFFFFFFFF)
        ∧ t.board.causeway = s.board.causeway)
    ∧ (∀ (s : State) (cw : Fin 8), s.board.causeway.get false cw.val = false →
      exec (.causewayDown cw) s = .next s ∧ exec (.causewayFlitReplay cw) s = .next s)
    ∧ (∀ (s : State) (die : Fin 4) (stop out cls : Nat) (rest : List Nat), ¬ wayOn s die.val stop out →
      s.forward die.val stop out cls rest = s)
    ∧ ∀ (s : State) (die : Fin 4) (line : Nat), (s.die die.val).up = true → line * 128 < (s.die die.val).capacity →
      let ln := die.val * dieWindow / 128 + line
      let e := s.dram.ecc.get 0 ln
      (e = 0 → exec (.patrolScrub die line) s = .next s)
        ∧ (e = 1 → ∃ t, exec (.patrolScrub die line) s = .next t ∧ t.dram.ecc.get 0 ln = 0 ∧ t.dram.bytes = s.dram.bytes)
        ∧ (e = 2 → ∃ t, exec (.patrolScrub die line) s = .next t ∧ t.dram.ecc.get 0 ln = 0x0303 ∧ t.dram.bytes = s.dram.bytes)

/-! ### The command interface (R363 to R388, R392 to R402, R413 to R420) -/

namespace Sys2Proof.Claims

/-- A unit runs a packet of an opcode, and its reply has a slot. -/
def started (s : State) (u opc : Nat) (p : Packet) : Prop :=
  s.unitUp u = true ∧ (s.punit u).replyFull = false ∧ (s.punit u).current = some p ∧ p.opc = opc

/-- A packet leaves its unit free and is parked on its ring, not ready. -/
def parks (t : State) (u : Nat) (p : Packet) : Prop :=
  (t.punit u).current = none
    ∧ ∃ x, ((t.punit u).ring p.ring).parked = some x ∧ x.pkt = p ∧ x.ready = false

/-- The address of a ring's next command slot. -/
def slotAddr (x : Ring) : Nat := x.base + 256 * (x.fetched % 2 ^ x.log2)

/-- Words of a reply. -/
def word_ (n : Nat) : W64 := BitVec.ofNat 64 n

end Sys2Proof.Claims

/-- The checks of R370 up to the seventh in order, with the status of the first that fails: LEN 28 or less; the CRC; the unit and the
atoll named; the opcode on its unit and ring; INJECT in SEALED and ATTEST in VENDOR; the opcode's own LEN; reserved bits. -/
def Sys2Proof.Claims.checksInOrder (s : State) (u : Nat) (bs : List Byte) (pk : Packet) (crcOk : Bool) (st : Nat) : Prop :=
  let f := fun (o n : Nat) => ofLe ((bs.drop o).take n)
  let at_ := pk.target / 16 % 16
  let place := pk.target % 16 = u ∧ (if pk.opc = 0x20 ∨ pk.opc = 0x21 ∨ pk.opc = 0x22 then at_ < 8 else at_ = 15)
  let known := served pk.opc u pk.ring ((pk.params.headD 0).toNat % 16) = true
  let denied := (pk.opc = 0x60 ∧ s.board.security = 0) ∨ (pk.opc = 0x70 ∧ s.board.security = 2)
  let fits := lenAllowed pk.opc u pk.len = true
  let formed := pk.target < 256 ∧ (pk.flags &&& 0xFF0E) = 0 ∧ f 10 6 = 0 ∧ f 20 12 = 0
    ∧ ∀ i < pk.params.length, (pk.params.getD i 0).toNat &&& reservedBits pk.opc i = 0
  (28 < pk.len → st = 2)
    ∧ (pk.len ≤ 28 → crcOk = false → st = 1)
    ∧ (pk.len ≤ 28 → crcOk = true → ¬ place → st = 3)
    ∧ (pk.len ≤ 28 → crcOk = true → place → ¬ known → st = 4)
    ∧ (pk.len ≤ 28 → crcOk = true → place → known → denied → st = 0x30)
    ∧ (pk.len ≤ 28 → crcOk = true → place → known → ¬ denied → ¬ fits → st = 2)
    ∧ (pk.len ≤ 28 → crcOk = true → place → known → ¬ denied → fits → st = if formed then 0 else 5)

/-- A free unit takes a packet of its URGENT ring: a sound one that passes the checks becomes the packet it runs, one that fails is
answered with its status, which is that of the first check to fail in R370's order. PING echoes its parameters after version, state word, promotions and counter; METER_READ answers the
sixteen words of a record. A waiting ring whose age reaches its LIMIT is urgent. A reply leaves the unit free, frees the packet's slot,
takes the next reply slot where the unit is ready, and raises the NOTICE that its FLAGS ask for. -/
def Obligations.PacketsStartAndReply : Prop :=
  (∀ (s : State) (u : Fin 5) (pk : Packet),
      let q := s.punit u.val
      let x := q.ring 0
      let bs := readBytes s.dram.bytes (slotAddr x) 256
      s.unitUp u.val = true → q.ready = true → q.current = none → q.dirPending = none → q.replyFull = false → q.waits 0 = true →
      (∀ r < 3, q.limit r ≠ 0 → q.arb.age.get 0 r < q.limit r) →
      (∀ l, slotAddr x / 128 ≤ l → l * 128 < slotAddr x + 256 →
        s.lineReachable (unitPlace u.val) l = true ∧ s.dram.ecc.get 0 l = 0) →
      packetOf bs 0 (x.fetched % 2 ^ x.log2) = (pk, true) →
      (s.checkPacket u.val bs pk true = 0 → ∃ t : State, exec (.unitStartPacket u) s = .next t ∧ (t.punit u.val).current = some pk
          ∧ ((t.punit u.val).ring 0).fetched = (x.fetched + 1) % 65536 ∧ t.dram = s.dram)
      ∧ (s.checkPacket u.val bs pk true ≠ 0 →
          ∃ t : State, exec (.unitStartPacket u) s = .next (t.finishPacket u.val pk (s.checkPacket u.val bs pk true) [])))
    ∧ (∀ (s : State) (u : Fin 5) (ring : Fin 3),
      let q := s.punit u.val
      ∃ t : State, exec (.cqAgeLimit u ring) s = .next t
        ∧ (q.waits ring.val = true → q.limit ring.val ≠ 0 → ring.val ∈ (t.punit u.val).arb.urgent)
        ∧ (t.punit u.val).rings = q.rings)
    ∧ (∀ (s : State) (u : Nat) (bs : List Byte) (pk : Packet) (crcOk : Bool), checksInOrder s u bs pk crcOk (s.checkPacket u bs pk crcOk))
    ∧ (∀ (s : State) (u : Fin 5) (p : Packet),
      (started s u.val 0x01 p → exec (.ping u) s = .next (s.finishPacket u.val p 0
          ([word_ (s.fwVersion u.val), s.stateWord u.val, word_ ((s.punit u.val).promo.get 0 0), word_ ((s.punit u.val).promo.get 0 1),
            word_ ((s.punit u.val).promo.get 0 2), word_ (if u.val < 4 then (s.die u.val).ctr else s.board.svcCtr)] ++ p.params)))
        ∧ (started s u.val 0x90 p → ∃ ws, exec (.meterRead u) s = .next (s.finishPacket u.val p 0 ws) ∧ ws.length = 16
          ∧ (u.val < 4 → ws.getD 1 0 = word_ (min (s.die u.val).meters.active (2 ^ 64 - 1))
            ∧ ws.getD 2 0 = word_ (min (s.die u.val).meters.vec (2 ^ 64 - 1))
            ∧ ws.getD 3 0 = word_ (min (s.die u.val).meters.mat (2 ^ 64 - 1))
            ∧ ws.getD 4 0 = word_ (min (s.die u.val).meters.stream (2 ^ 64 - 1))
            ∧ ws.getD 5 0 = word_ (min (s.die u.val).meters.strait (2 ^ 64 - 1))
            ∧ ws.getD 6 0 = word_ (min (s.die u.val).meters.rdBytes (2 ^ 64 - 1))
            ∧ ws.getD 7 0 = word_ (min (s.die u.val).meters.wrBytes (2 ^ 64 - 1))
            ∧ ws.getD 11 0 = word_ (min (s.die u.val).meters.cycles (2 ^ 64 - 1))
            ∧ ws.getD 12 0 = word_ (min (s.die u.val).meters.steps (2 ^ 64 - 1)))
          ∧ ws.getD 15 0 = word_ (crc32c ((ws.take 15).flatMap fun w => leBytes 8 w.toNat))))
    ∧ ∀ (s : State) (u : Nat) (p : Packet) (st : Nat) (res : List W64), (s.punit u).dirPending = none → (s.punit u).ready = true →
      let t := s.finishPacket u p st res
      (t.punit u).current = none ∧ ((t.punit u).ring p.ring).replied = (((s.punit u).ring p.ring).replied + 1) % 65536
        ∧ (t.punit u).replyNext = ((s.punit u).replyNext + 1) % 65536
        ∧ (p.flags.testBit 0 = true → (t.core (576 + bitsOf p.flags 7 4)).notices.getLast? = some (BitVec.ofNat 16 (0x200 + u)))

/-- A die's engine as R335 leaves it: IDLE with no record (MODE 0), no relay entry and no notice; STEFLAGS, STALEFRM and STESEG clear;
nothing held or queued on the die's two ports. -/
def Sys2Proof.Claims.engineIdle (t : State) (d : Nat) : Prop :=
  let e := t.eng d
  e.state = 0 ∧ e.cfg = [] ∧ e.relay = [] ∧ e.notices = [] ∧ e.owed = [] ∧ e.pseg = 0 ∧ e.rseg = 0
    ∧ (t.die d).sr 0x582 = 0 ∧ (t.die d).sr 0x583 = 0
    ∧ ∀ j < 2, let q := t.port (2 * d + j)
      q.rx = [] ∧ q.qNotice = [] ∧ q.qTree = [] ∧ q.qRelay = [] ∧ q.qSnap = [] ∧ q.qPut = []

/-- LOAD_IMAGE with a legal range of this die's memory parks while no atoll runs a task; START_TASK starts every core of its atolls
that is not halted, at S, with PC, stack, argument and logical number from the image and the packet; DRAIN tells its atolls, parks,
and replies once they are drained; ABORT resets its atolls' cores and empties their lagoons, and with LEN 0 it brings the strait engine
back to IDLE with MODE 0, drops what the die's two ports hold and queue, and empties notices, relay table and the engine's status
registers, while the ports keep their state; with a mask it leaves the engine as it stands. MALFORMED for an image under 64 bytes, a
halted core that START_TASK leaves alone, and the values that no rule gives are the model's choices (notes/assumptions/33, 61, 78). -/
def Obligations.TaskPackets : Prop :=
  ∀ (s : State) (u : Fin 5) (p : Packet), u.val < 4 →
    let d := s.die u.val
    let coresOf := fun (a : Nat) => coresAt u.val (d.position a)
    let legal := p.w 0 % 64 = 0 ∧ 64 ≤ p.w 1 ∧ p.w 0 / dieWindow = u.val ∧ s.inUsable (p.w 0) (p.w 1) = true
    let free := ∀ a < 8, d.running.testBit a = false ∨ d.drained.testBit a = true
    (started s u.val 0x10 p →
        (legal → free → ∃ t : State, exec (.loadImage u) s = .next t ∧ parks t u.val p)
        ∧ (¬ legal → exec (.loadImage u) s = .next (s.finishPacket u.val p 5 []))
        ∧ (legal → ¬ free → exec (.loadImage u) s = .next (s.finishPacket u.val p 0x11 [])))
      ∧ (started s u.val 0x11 p →
        (d.image = none → exec (.startTask u) s = .next (s.finishPacket u.val p 0x11 []))
        ∧ (∀ img, d.image = some img →
          (∀ a < 8, (p.w 0).testBit a = true → d.isOffline a = false ∧ (d.running.testBit a = false ∨ d.drained.testBit a = true)) →
          ∃ (t : State) (n : W64), exec (.startTask u) s = .next (t.finishPacket u.val p 0 [n]) ∧ (t.die u.val).taskState = 2
            ∧ ∀ a < 8, (p.w 0).testBit a = true → (t.die u.val).running.testBit a = true
              ∧ ∀ k ∈ coresOf a, (∀ cause, (s.core k).run ≠ .halted cause) →
                (t.core k).run = .running ∧ (t.core k).level = .s ∧ (t.core k).ieS = false
                ∧ (t.core k).pc = img.getD 1 0 &&& 0xFFFFFFFFFFFFFFFC
                ∧ (t.core k).rx 2 = img.getD 5 0 + word_ (s.lcoreOf k) * img.getD 6 0
                ∧ (t.core k).rx 10 = word_ (p.w 1) ∧ (t.core k).rx 11 = word_ (s.lcoreOf k)))
      ∧ (started s u.val 0x12 p → ∃ t : State, exec (.drain u) s = .next t ∧ parks t u.val p
        ∧ ∀ a < 8, (p.w 0).testBit a = true → d.isOffline a = false →
          (d.drained.testBit a = false → (t.die u.val).draining.testBit a = true)
          ∧ ∀ k ∈ coresOf a, BitVec.ofNat 16 0x100 ∈ (t.core k).notices)
      ∧ (∀ x, ((s.punit u.val).ring 1).parked = some x → x.pkt.opc = 0x12 → x.ready = false → s.unitUp u.val = true →
        (s.punit u.val).replyFull = false →
        (∀ a < 8, x.mask.testBit a = true → d.drained.testBit a = true ∨ d.isOffline a = true) →
        ∃ t : State, exec (.drainComplete u) s = .next t ∧ ((t.punit u.val).ring 1).parked = none
          ∧ ((∀ a < 8, d.drained.testBit a = true ∨ d.isOffline a = true) → (t.die u.val).taskState = 3))
      ∧ (started s u.val 0x13 p → ∃ t : State, exec (.abort u) s = .next (t.finishPacket u.val p 0 [])
        ∧ (t.die u.val).taskState = (if d.image.isSome then 1 else 0)
        ∧ ∀ a < 8, (p.len = 0 ∨ (p.w 0).testBit a = true) →
          (t.die u.val).running.testBit a = false ∧ (t.die u.val).drained.testBit a = false
          ∧ ((s.atoll (u.val * 9 + d.position a)).powered = true →
            (t.atoll (u.val * 9 + d.position a)).lag = []
            ∧ ∀ k ∈ coresOf a, (t.core k).run = .inReset ∧ ∀ r, (t.core k).rx r = 0)
        ∧ (p.len = 0 → engineIdle t u.val ∧ ∀ j < 2, (t.port (2 * u.val + j)).state = (s.port (2 * u.val + j)).state)
        ∧ (p.len ≠ 0 → (t.eng u.val).state = (s.eng u.val).state ∧ (t.eng u.val).cfg = (s.eng u.val).cfg
          ∧ (t.eng u.val).relay = (s.eng u.val).relay))

/-- ATOLL_OFFLINE marks the atoll, resets its cores, empties its lagoon and with PWROFF switches it off; ATOLL_ONLINE powers it and,
where its self-test passes, takes it back; ATOLL_SWAP_RESERVE moves an offline atoll to the reserve position and back. A permitted
idle atoll gates its clocks; it ungates where one of its cores would take an interrupt, and stays as it is where none would. These are
the model's choices: ungating on an interrupt that would be taken (notes/assumptions/15), nothing where none would (2), ATOLL_ONLINE of
an atoll that is online (79), an atoll that fails as it switches on (168), and HW_FAULT where boot flash does not take the map (169). -/
def Obligations.AtollPackets : Prop :=
  (∀ (s : State) (u : Fin 5) (p : Packet), u.val < 4 →
      let d := s.die u.val
      let pos := d.position p.atoll
      let key := u.val * 9 + pos
      let off := (p.w 0).testBit 0
      (started s u.val 0x20 p → (s.atoll key).powered = true →
          (off = true → s.debugHaltedAt u.val pos = true → exec (.atollOffline u) s = .next (s.finishPacket u.val p 0x11 []))
          ∧ ((off = true → s.debugHaltedAt u.val pos = false) →
            ∃ (t : State) (n : W64), exec (.atollOffline u) s = .next (t.finishPacket u.val p 0 [n]) ∧ (t.die u.val).isOffline p.atoll = true
              ∧ (t.die u.val).running.testBit p.atoll = false ∧ (t.atoll key).lag = [] ∧ (t.atoll key).powered = !off
              ∧ ∀ k ∈ coresAt u.val pos, (t.core k).run = .inReset))
        ∧ (started s u.val 0x21 p →
          (s.board.failsNext.get false (12 * u.val + pos) = false →
            (∃ t : State, exec (.atollOnline u true) s = .next (t.finishPacket u.val p 0 [word_ pos])
              ∧ (t.die u.val).isOffline p.atoll = false ∧ (t.atoll key).powered = true ∧ (t.atoll key).lag = [])
            ∧ ∃ t : State, exec (.atollOnline u false) s = .next (t.finishPacket u.val p 0x40 [])
              ∧ (t.die u.val).isOffline p.atoll = d.isOffline p.atoll)
          ∧ (s.board.failsNext.get false (12 * u.val + pos) = true → ∀ pass, ∃ t : State,
            exec (.atollOnline u pass) s = .next (t.finishPacket u.val p 0x40 []) ∧ (t.atoll key).powered = false))
        ∧ (started s u.val 0x22 p →
          (d.isOffline p.atoll = false → exec (.atollSwapReserve u) s = .next (s.finishPacket u.val p 0x11 []))
          ∧ (d.isOffline p.atoll = true → off = false → d.logicalAt 8 = none → (s.atoll (u.val * 9 + 8)).powered = false →
            s.board.flash.fails = false →
            ∃ t : State, exec (.atollSwapReserve u) s = .next (t.finishPacket u.val p 0 [8]) ∧ (t.die u.val).position p.atoll = 8)
          ∧ (d.isOffline p.atoll = true → off = true → pos = 8 → s.board.flash.fails = false →
            ∃ t : State, exec (.atollSwapReserve u) s = .next (t.finishPacket u.val p 0 [word_ p.atoll])
              ∧ (t.die u.val).position p.atoll = p.atoll)
          ∧ (d.isOffline p.atoll = true → off = true → pos = 8 → s.board.flash.fails = true →
            ∃ t : State, exec (.atollSwapReserve u) s = .next (t.finishPacket u.val p 0x40 [])
              ∧ (t.die u.val).position p.atoll = 8)))
    ∧ ∀ (s : State) (die : Fin 4) (pos : Fin 9),
      let key := die.val * 9 + pos.val
      (∀ a, (s.die die.val).up = true → (s.die die.val).logicalAt pos.val = some a → (s.die die.val).p1en.testBit a = true →
          (s.atoll key).powered = true → s.atollIdle die.val pos.val = true →
          ∃ t : State, exec (.atollGate die pos) s = .next t ∧ (t.atoll key).gated = true ∧ t.cores = s.cores ∧ t.dram = s.dram)
        ∧ (∀ k ∈ coresAt die.val pos.val, s.intWakes k = true →
          ∃ t : State, exec (.atollUngate die pos) s = .next t ∧ (t.atoll key).gated = false ∧ t.cores = s.cores ∧ t.dram = s.dram)
        ∧ ((∀ k ∈ coresAt die.val pos.val, s.intWakes k = false) → exec (.atollUngate die pos) s = .next s)

/-- The packets of the strait engine on their die: TREE_CONFIG, STRAIT_RELAY, STRAIT_TRAIN, SNAP_CONFIG, SNAP_NOW and RESTORE with the
statuses of their refusals. The statuses that no rule gives and what STRAIT_TRAIN's training leaves are the model's choices
(notes/assumptions/58, 81). No snapshot is ACTIVE or SECURED where a record is taken, and another die's engine is IDLE. -/
def Obligations.EnginePackets : Prop :=
  ∀ (s : State) (u : Fin 5) (p : Packet), u.val < 4 →
    let e := s.eng u.val
    let r := treeRec p.params
    let held := treeRec e.cfg
    (started s u.val 0x40 p →
        (treeMalformed p.params = true → exec (.treeConfig u) s = .next (s.finishPacket u.val p 5 []))
        ∧ (treeMalformed p.params = false → (e.state = 2 ∨ e.state = 3) →
          exec (.treeConfig u) s = .next (s.finishPacket u.val p 0x10 []))
        ∧ (treeMalformed p.params = false → e.state ≠ 2 → e.state ≠ 3 → r.mode = 0 →
          ∃ t : State, exec (.treeConfig u) s = .next (t.finishPacket u.val p 0 []) ∧ (t.eng u.val).state = 0 ∧ (t.eng u.val).cfg = [])
        ∧ (treeMalformed p.params = false → e.state ≠ 2 → e.state ≠ 3 → r.mode ≠ 0 → s.snap.status ≠ 1 →
          s.snap.lastSec = 0xFFFFFFFF → (∃ j < 4, j ≠ u.val ∧ (s.eng j).state = 0) →
          ∃ t : State, exec (.treeConfig u) s = .next (t.finishPacket u.val p 0 []) ∧ (t.eng u.val).state = 1
            ∧ (t.eng u.val).cfg = p.params ∧ (t.eng u.val).step = r.step0 ∧ (t.eng u.val).tepoch = r.tepoch))
      ∧ (started s u.val 0x42 p → p.params.length = 16 →
        ∃ t : State, exec (.straitRelay u) s = .next (t.finishPacket u.val p 0 [])
          ∧ ∀ i < 16, (t.eng u.val).relay.getD (2 * i) 0 = (p.params.getD i 0).setWidth 32
            ∧ (t.eng u.val).relay.getD (2 * i + 1) 0 = ((p.params.getD i 0) >>> 32).setWidth 32)
      ∧ (started s u.val 0x41 p → ∀ m : TrainResult,
        (p.w 0 % 8 / 2 = u.val → ∃ t : State, exec (.straitTrain u m) s = .next t ∧ parks t u.val p
          ∧ (t.port (p.w 0 % 8)).state = (if (s.port (p.w 0 % 8)).state = 0 then 0 else 2))
        ∧ (p.w 0 % 8 / 2 ≠ u.val → exec (.straitTrain u m) s = .next (s.finishPacket u.val p 3 [])))
      ∧ (started s u.val 0x50 p →
        (snapMalformed p.params = true → exec (.snapConfig u) s = .next (s.finishPacket u.val p 5 []))
        ∧ (snapMalformed p.params = false → s.snap.receiving = false →
          ∃ t : State, exec (.snapConfig u) s = .next (t.finishPacket u.val p 0 [])
            ∧ (s.snap.status ≠ 1 → t.snap.cfg = p.params) ∧ (s.snap.status = 1 → t.snap.newCfg = p.params)))
      ∧ (started s u.val 0x51 p →
        (e.cfg ≠ [] → held.head % 4 ≠ u.val → exec (.snapNow u) s = .next (s.finishPacket u.val p 3 []))
        ∧ ((e.cfg = [] ∨ held.head % 4 = u.val ∧ held.leads = false) →
          exec (.snapNow u) s = .next (s.finishPacket u.val p 0x11 []))
        ∧ (e.cfg ≠ [] → held.head % 4 = u.val → held.leads = true →
          ∃ t : State, exec (.snapNow u) s = .next (t.finishPacket u.val p 0 [word_ ((e.step + 2) % 2 ^ 32)])
            ∧ t.snap.next = some ((e.step + 2) % 2 ^ 32)))
      ∧ (started s u.val 0x52 p →
        (e.cfg ≠ [] → held.head % 4 ≠ u.val → exec (.restore u) s = .next (s.finishPacket u.val p 3 []))
        ∧ ((e.cfg = [] ∨ held.head % 4 = u.val) → restoreMalformed p.params = true →
          exec (.restore u) s = .next (s.finishPacket u.val p 5 []))
        ∧ ((e.cfg = [] ∨ held.head % 4 = u.val) → restoreMalformed p.params = false → e.state ≠ 1 →
          exec (.restore u) s = .next (s.finishPacket u.val p 0x10 []))
        ∧ (held.head % 4 = u.val → restoreMalformed p.params = false → e.state = 1 →
          ∃ t : State, exec (.restore u) s = .next t ∧ parks t u.val p ∧ t.restore.isSome = true))

/-- INJECT stores an error in a memory line or arms it for its unit, and is refused where the domain it names is off; LOG_READ copies entries of the ring into memory; LOG_FREEZE
freezes and thaws a ring. A FATAL entry's automatic freeze freezes every ring, and the crash copy holds what the rings held, where
boot flash takes it. Nothing for a freeze that is not due, NEWEST of an empty ring, and where LOG_READ starts are the model's choices
(notes/assumptions/2, 74, 82). -/
def Obligations.RecorderAndInjection : Prop :=
  (∀ (s : State) (u : Fin 5) (p : Packet),
      (started s u.val 0x60 p →
        let n := p.w 0 % 65536
        let w := p.w 1
        (s.injectMalformed u.val n w = true → exec (.inject u) s = .next (s.finishPacket u.val p 5 []))
        ∧ (s.injectMalformed u.val n w = false → (n = 0x301 ∨ n = 0x302) →
          ∃ t : State, exec (.inject u) s = .next (t.finishPacket u.val p 0 [])
            ∧ t.dram.ecc.get 0 (bitsOf w 45 7) = w % 4 + 1 + 65536 ∧ t.dram.bytes = s.dram.bytes)
        ∧ (s.injectMalformed u.val n w = false → n ≠ 0x301 → n ≠ 0x302 → s.board.security ≠ 0 →
          1 < s.injectColumn u.val n (w % 65536) → exec (.inject u) s = .next (s.finishPacket u.val p 0x11 []))
        ∧ (s.injectMalformed u.val n w = false → n ≠ 0x301 → n ≠ 0x302 → n ≠ 0x306 → n ≠ 0x307 → s.board.security ≠ 0 →
          s.injectColumn u.val n (w % 65536) ≤ 1 →
          ∃ t : State, exec (.inject u) s = .next (t.finishPacket u.val p 0 [])
            ∧ { num := n, loc := w % 65536, kind := bitsOf w 17 16 : Armed } ∈ t.armed.get [] u.val))
      ∧ (started s u.val 0x61 p →
        let out := (s.recorder u.val).readFrom (p.w 0)
        ((p.w 1 % 64 = 0 ∧ s.inUsable (p.w 1) (64 * out.1.length) = true) →
          exec (.logRead u) s = .next ((s.physWrite (unitPlace u.val) (p.w 1) (out.1.flatMap Entry.bytes) 0 (cmdMesh u.val)).finishPacket u.val p 0
            [word_ out.1.length, word_ out.2]))
        ∧ (p.w 1 % 64 ≠ 0 → exec (.logRead u) s = .next (s.finishPacket u.val p 5 [])))
      ∧ (started s u.val 0x62 p →
        ((p.w 0).testBit 0 = true → ∃ t : State, exec (.logFreeze u) s
            = .next (t.finishPacket u.val p 0 [word_ (((s.recorder u.val).next + 2 ^ 32 - 1) % 2 ^ 32)])
          ∧ (t.recorder u.val).frozen = true ∧ (t.recorder u.val).entries = (s.recorder u.val).entries)
        ∧ ((p.w 0).testBit 0 = false → (s.recorder u.val).copying = true →
          exec (.logFreeze u) s = .next (s.finishPacket u.val p 0x10 []))
        ∧ ((p.w 0).testBit 0 = false → (s.recorder u.val).copying = false →
          ∃ (t : State) (n : W64), exec (.logFreeze u) s = .next (t.finishPacket u.val p 0 [n]) ∧ (t.recorder u.val).frozen = false
            ∧ (t.recorder u.val).auto = false ∧ (t.recorder u.val).dropped = 0)))
    ∧ ∀ s : State,
      (s.board.freezeTimer = true → ∃ t : State, exec .recorderAutoFreeze s = .next t
          ∧ (∀ u < 5, (t.recorder u).frozen = true ∧ (t.recorder u).auto = true ∧ (t.recorder u).copying = true
            ∧ (t.recorder u).entries = (s.recorder u).entries) ∧ t.board.flash.crashValid = false)
        ∧ (s.board.freezeTimer = false → exec .recorderAutoFreeze s = .next s)
        ∧ ((s.recorder 4).copying = true → s.board.flash.fails = false → ∃ t : State, exec .crashCopyComplete s = .next t
          ∧ t.board.flash.crashValid = true ∧ t.board.flash.crash = [0, 1, 2, 3, 4].map t.recorder
          ∧ ∀ u < 5, (t.recorder u).copying = false ∧ (t.recorder u).entries = (s.recorder u).entries)
        ∧ ((s.recorder 4).copying = true → s.board.flash.fails = true → ∃ t : State, exec .crashCopyComplete s = .next t
          ∧ t.board.flash.crashValid = s.board.flash.crashValid ∧ ∀ u < 5, (t.recorder u).copying = false)

/-- The checks of R399 on a token that has been read, in order: MAGIC, VERSION, challenge and device digest; a higher state that R396
allows; the signature under the key of that state. -/
def Sys2Proof.Claims.tokenInOrder (s : State) (tok challenge : List Byte) (st : Nat) : Prop :=
  let f := fun (o n : Nat) => (tok.drop o).take n
  let target := ofLe (f 6 1)
  let key := s.board.operatorDebugKey
  let named := ofLe (f 0 4) = 0x4B55544D ∧ ofLe (f 4 2) = 1 ∧ f 8 32 = challenge ∧ f 40 32 = deviceDigest
  let higher := s.board.security < target ∧ (target = 2 ∨ target = 1 ∧ ∃ b ∈ key, b ≠ 0)
  let signed := hssVerify (if target = 2 then vendorRootKey else key) (tok.drop 80) (tok.take 80) = true
  (¬ named → st = 0x21) ∧ (named → ¬ higher → st = 0x11) ∧ (named → higher → ¬ signed → st = 0x21) ∧ (named → higher → signed → st = 0)

/-- FW_STAGE and FW_ACTIVATE park where their component exists and, for FW_ACTIVATE, a bank waits; ATTEST signs with the next leaf
and counts it, answers HW_FAULT where no leaf is left or boot flash does not count it, and is DENIED in VENDOR, which alone has no seed
(R394, R397); DEBUG_UNLOCK MODE 0 gives a new challenge and counts it, MODE 1 uses it up whatever the outcome, replies with
the first status that applies in R399's order of checks, and enters the token's state where every check passes. HW_FAULT for a challenge or a VENDOR entry that boot flash does not count is the model's
choice (notes/assumptions/169). -/
def Obligations.SecurityPackets : Prop :=
  ∀ (s : State) (u : Fin 5) (p : Packet),
    (started s u.val 0x30 p → (p.w 2 % 16 ≤ 3 → ∃ t : State, exec (.fwStage u) s = .next t ∧ parks t u.val p)
        ∧ (3 < p.w 2 % 16 → exec (.fwStage u) s = .next (s.finishPacket u.val p 5 [])))
      ∧ (started s u.val 0x31 p →
        let comp := p.w 0 % 16
        (3 < comp → exec (.fwActivate u) s = .next (s.finishPacket u.val p 5 []))
        ∧ (comp ≤ 3 → (p.w 0).testBit 4 = true → ∃ t : State, exec (.fwActivate u) s = .next t ∧ parks t u.val p)
        ∧ (comp ≤ 3 → (p.w 0).testBit 4 = false → s.board.staged.get 0 comp = 1 - s.activeBank comp u.val + 1 →
          ∃ t : State, exec (.fwActivate u) s = .next t ∧ parks t u.val p)
        ∧ (comp ≤ 3 → (p.w 0).testBit 4 = false → s.board.staged.get 0 comp = 0 →
          exec (.fwActivate u) s = .next (s.finishPacket u.val p 0x11 [])))
      ∧ (started s u.val 0x70 p →
        let i := s.board.flash.seedIdx
        let q := s.board.flash.leaf.get 0 i
        (q < 32767 → s.board.seedPresent = true → s.board.flash.fails = false →
          ∃ t : State, exec (.attest u) s = .next (t.finishPacket u.val p 0 [word_ (3044 + 2724 * i), word_ q])
            ∧ t.board.flash.leaf.get 0 i = q + 1 ∧ t.board.flash.seedIdx = i)
        ∧ (q = 32767 → i = 1023 → exec (.attest u) s = .next (s.finishPacket u.val p 0x40 []))
        ∧ (q < 32767 → s.board.seedPresent = true → s.board.flash.fails = true →
          ∃ t : State, exec (.attest u) s = .next (t.finishPacket u.val p 0x40 []) ∧ t.board.flash.leaf.get 0 i = q))
      ∧ (∀ bs, p.opc = 0x70 → p.len ≤ 28 → p.target % 16 = u.val → bitsOf p.target 7 4 = 15 →
        served p.opc u.val p.ring ((p.params.headD 0).toNat % 16) = true → s.board.security = 2 →
        s.checkPacket u.val bs p true = 0x30)
      ∧ (started s u.val 0x71 p →
        let n := s.board.flash.unlock
        (p.w 0 % 2 = 0 → s.board.security ≠ 2 → n < 65536 → s.board.flash.fails = false →
          ∃ t : State, exec (.debugUnlock u) s = .next (t.finishPacket u.val p 0 (wordsOf (challengeOf (n + 1))))
            ∧ t.board.flash.unlock = n + 1 ∧ t.board.challenge = some (challengeOf (n + 1)))
        ∧ (p.w 0 % 2 = 0 → s.board.security ≠ 2 → (65536 ≤ n ∨ s.board.flash.fails = true) →
          ∃ t : State, exec (.debugUnlock u) s = .next (t.finishPacket u.val p 0x40 []) ∧ t.board.flash.unlock = n
            ∧ t.board.challenge = s.board.challenge)
        ∧ (p.w 0 % 2 = 0 → s.board.security = 2 → ∃ t : State, exec (.debugUnlock u) s = .next (t.finishPacket u.val p 0x11 [])
          ∧ t.board.flash.unlock = n)
        ∧ (p.w 0 % 2 = 1 → p.w 2 = 3684 → s.inUsable (p.w 1) 3684 = true → s.board.challenge = none →
          ∃ t : State, exec (.debugUnlock u) s = .next (t.finishPacket u.val p 0x11 []) ∧ t.board.security = s.board.security
            ∧ t.board.challenge = none)
        ∧ (p.w 0 % 2 = 1 → (p.w 2 ≠ 3684 ∨ s.inUsable (p.w 1) 3684 = false) →
          ∃ t : State, exec (.debugUnlock u) s = .next (t.finishPacket u.val p 5 []) ∧ t.board.security = s.board.security
            ∧ t.board.challenge = none)
        ∧ (∀ c tok e v, p.w 0 % 2 = 1 → p.w 2 = 3684 → s.inUsable (p.w 1) 3684 = true → s.board.challenge = some c →
          (s.updBoard fun b => { b with challenge := none }).unitRead 4 (p.w 1) 3684 = (tok, e, v) → e ≠ .none →
          ∃ t : State, exec (.debugUnlock u) s = .next (t.finishPacket u.val p 0x40 []) ∧ t.board.security = v.board.security
            ∧ t.board.challenge = none)
        ∧ (∀ tok c, tokenInOrder s tok c (s.tokenCheck tok c))
        ∧ (∀ c tok v, p.w 0 % 2 = 1 → p.w 2 = 3684 → s.inUsable (p.w 1) 3684 = true → s.board.challenge = some c →
          (s.updBoard fun b => { b with challenge := none }).unitRead 4 (p.w 1) 3684 = (tok, .none, v) →
          v.board.flash.vendorEntries < 4096 → v.board.flash.fails = false →
          ∃ (t : State) (ws : List W64), exec (.debugUnlock u) s = .next (t.finishPacket u.val p (v.tokenCheck tok c) ws)
            ∧ t.board.challenge = none
            ∧ t.board.security = (if v.tokenCheck tok c = 0 then (tok.getD 6 0).toNat else v.board.security)))

/-- POWER_STATE parks where R402 allows the state; JOB_HANDOFF resets its die and parks with the final record; a parked packet whose
effect is due has it and leaves its ring: LOAD_IMAGE, FW_ACTIVATE of a component of the board, the atolls' and the dies' power states,
standby, and packets that only wait to reply. P3 for a die that is retained or has no task and no engine at work, and P1 with no check
of idleness, are the model's choices (notes/assumptions/83). -/
def Obligations.PowerAndParkedPackets : Prop :=
  ∀ (s : State) (u : Fin 5) (p : Packet),
    let w := p.w 0
    let mask := bitsOf w 23 16
    let d := s.die u.val
    (started s u.val 0x80 p → u.val < 4 → bitsOf w 9 8 = 0 →
        (w % 8 = 1 → ∃ t : State, exec (.powerState u) s = .next t ∧ parks t u.val p)
        ∧ (w % 8 = 0 → (∀ a < 8, mask.testBit a = true → (s.atoll (u.val * 9 + d.position a)).powered = true) →
          ∃ t : State, exec (.powerState u) s = .next t ∧ parks t u.val p)
        ∧ (w % 8 = 2 → (∀ a < 8, mask.testBit a = true →
            d.isOffline a = true ∧ s.debugHaltedAt u.val (d.position a) = false) →
          ∃ t : State, exec (.powerState u) s = .next t ∧ parks t u.val p)
        ∧ (2 < w % 8 → exec (.powerState u) s = .next (s.finishPacket u.val p 5 [])))
      ∧ (started s u.val 0x80 p → u.val = 4 →
        let x := s.die (bitsOf w 9 8)
        let asleep := x.taskState ≠ 2 ∧ x.eng.state ≤ 1 ∧ s.debugHaltedDie (bitsOf w 9 8) = false
        (w % 8 = 3 → x.retain = true ∨ asleep → ∃ t : State, exec (.powerState u) s = .next t ∧ parks t u.val p)
        ∧ (w % 8 = 3 → x.retain = false → ¬ asleep → exec (.powerState u) s = .next (s.finishPacket u.val p 0x11 []))
        ∧ (w % 8 = 4 → (∃ j < 4, (s.die j).taskState ≠ 0 ∨ s.debugHaltedDie j = true) →
          exec (.powerState u) s = .next (s.finishPacket u.val p 0x11 [])))
      ∧ (started s u.val 0xA0 p → u.val < 4 →
        (w.testBit 0 = true → s.scrubBad u.val (p.w 1) (p.w 2) = true →
          exec (.jobHandoff u) s = .next (s.finishPacket u.val p 5 []))
        ∧ ((w.testBit 0 = true → s.scrubBad u.val (p.w 1) (p.w 2) = false) →
          ∃ (t : State) (x : Parked), exec (.jobHandoff u) s = .next t ∧ (t.punit u.val).current = none
            ∧ ((t.punit u.val).ring p.ring).parked = some x ∧ x.ready = true ∧ x.status = 0 ∧ x.results.length = 16
            ∧ (t.die u.val).image = none ∧ (t.die u.val).taskState = 0 ∧ engineIdle t u.val
            ∧ (t.die u.val).meters = { handoffs := d.meters.handoffs + 1 }))
      ∧ ∀ (ring : Fin 3) (x : Parked), s.unitUp u.val = true → (s.punit u.val).replyFull = false →
        ((s.punit u.val).ring ring.val).parked = some x →
        (x.ready = true → exec (.parkedPacketComplete u ring) s = .next (s.unpark u.val ring.val x.status x.results))
        ∧ (x.ready = false → x.pkt.opc = 0x10 → ∀ bs v,
          s.unitRead u.val (x.pkt.w 0) (x.pkt.w 1) = (bs, .none, v) → ofLe (bs.take 4) = 0x494B544D →
          ofLe ((bs.drop 4).take 4) = crc32c (bs.drop 64) →
          ∃ t : State, exec (.parkedPacketComplete u ring) s = .next (t.unpark u.val ring.val 0 [word_ (crc32c (bs.drop 64))])
            ∧ (t.die u.val).image = some (wordsOf (bs.take 64)) ∧ (t.die u.val).taskState = 1)
        ∧ (x.ready = false → x.pkt.opc = 0x80 → u.val < 4 → x.pkt.w 0 % 8 = 2 →
          ∃ t : State, exec (.parkedPacketComplete u ring) s = .next (t.unpark u.val ring.val 0 [2])
            ∧ ∀ a < 8, (bitsOf (x.pkt.w 0) 23 16).testBit a = true →
              (t.atoll (u.val * 9 + d.position a)).powered = false)
        ∧ (x.ready = false → x.pkt.opc = 0x80 → u.val = 4 → x.pkt.w 0 % 8 = 3 → (s.die (bitsOf (x.pkt.w 0) 9 8)).up = true →
          ∃ t : State, exec (.parkedPacketComplete u ring) s = .next (t.unpark u.val ring.val 0 [3])
            ∧ (t.die (bitsOf (x.pkt.w 0) 9 8)).retain = true ∧ (t.die (bitsOf (x.pkt.w 0) 9 8)).up = false)
        ∧ (x.ready = false → x.pkt.opc = 0x31 → u.val = 4 →
          let f := s.board.flash
          let comp := x.pkt.w 0 % 16
          0 < comp → comp ≤ 3 → ∀ bank, s.activateBank comp 4 ((x.pkt.w 0).testBit 4) = some bank → f.fails = false →
          (f.bankOk comp bank = true →
            ∃ t : State, exec (.parkedPacketComplete u ring) s = .next (t.unpark u.val ring.val 0 [word_ (f.versionOf comp bank)])
              ∧ t.board.flash.active.get 0 (activeKey comp 4) = bank
              ∧ t.board.flash.floor.get 0 comp = max (f.floor.get 0 comp) (f.minverOf comp bank))
          ∧ (f.bankOk comp bank = false →
            exec (.parkedPacketComplete u ring) s = .next (s.unpark u.val ring.val 0x20 [])))
        ∧ (x.ready = false → x.pkt.opc = 0x80 → u.val = 4 → x.pkt.w 0 % 8 = 4 →
          ∃ t : State, exec (.parkedPacketComplete u ring) s = .next t ∧ t.board.standby = true ∧ t.board.mainlandOn = false
            ∧ ∀ j < 4, (t.die j).powered = false)

/-! ### Straits and the reduction (R306 to R336) -/

/-- Once a step runs under a record in force, a die stage adds the partials of its two dies; a node stage takes the next group of a
segment, in order, once its operands are present; a step whose segments have all gone up and come down ends: every engine goes to the
next step with its counts at 0. -/
def Obligations.ReductionStages : Prop :=
  (∀ (s v w : State) (r : TreeRec) (die : Fin 4) (seg grp : Nat) (a b : GroupVal),
      s.inForce = some r → (die = 1 ∨ die = 3) → (s.eng die.val).state = 2 → r.update = false → seg < r.nseg →
      let e := (s.eng die.val).tab.get [] seg
      e ≠ [] → grp < Seg.groups e → (s.eng die.val).stage.get none (stageKey seg grp) = none →
      s.partial_ r die.val (die.val - 1) e grp = (some a, v) → v.partial_ r die.val die.val e grp = (some b, w) →
      ∃ t : State, exec (.dieStageAdd die seg grp) s = .next t
        ∧ (t.eng die.val).stage.get none (stageKey seg grp) = some (addGroup a b).1
        ∧ (t.die die.val).sr 0x582 = (w.die die.val).sr 0x582 ||| (addGroup a b).2.setWidth 64 ∧ t.dram = w.dram)
    ∧ (∀ (s u : State) (r : TreeRec) (l : List (Nat × Seg)) (e : Seg) (seg grp : Nat)
        (o : (GroupVal × Flags) × (GroupVal × Flags) × GroupVal × GroupVal),
      let h := r.head % 4
      s.inForce = some r → (s.eng h).state = 2 → seg < r.nseg → (s.eng h).ndone.get 0 seg = grp →
      s.segTable r = (some l, u) → (l.find? fun x => x.1 == seg) = some (seg, e) → grp < Seg.groups e → (r.owns e = true → r.parent = none → u.noticesFull h = false) →
      u.operands r seg grp = some o →
      ∃ t : State, exec (.nodeGroupAdd seg grp) s = .next t ∧ (t.eng h).ndone.get 0 seg = grp + 1
        ∧ ((nodeSum o).1.isSome = true → (t.eng h).present.get false seg = true))
    ∧ (∀ (s u : State) (r : TreeRec) (l : List (Nat × Seg)),
      let e := s.eng (r.head % 4)
      s.inForce = some r → (e.state = 2 ∨ e.state = 3) → s.segTable r = (some l, u) →
      e.rseg = (activeOf l).length → e.pseg = (activeOf l).length →
      (∀ p < 8, (u.port p).qTree = [] ∧ (u.port p).rx = []) →
      ∃ t : State, exec .stepEnd s = .next t
        ∧ ∀ d < 4, (t.eng d).step = ((u.eng d).step + 1) % 2 ^ 32 ∧ (t.eng d).state = 1 ∧ (t.eng d).rseg = 0
          ∧ (t.eng d).pseg = 0 ∧ (t.eng d).doneCnt = 0 ∧ (t.die d).meters.steps = (u.die d).meters.steps + 1)

/-- A port that is UP sends its oldest NOTICE frame with whole credits, and a resent frame before any other, and first the control
codeword that is due; it appends a sound frame in sequence to its receive buffer, corrected where it can be, and asks for a replay of
one that is lost, has a bad CRC or is out of sequence, and takes no frame from a cell that starts none; a cell whose CSEQ is not the one
due starts a discarding of the byte stream, which the next cell of KIND 1 ends; control codewords return credits up to the buffer's size, but for a lost one;
silence, lost lane lock and a ninth replay without progress make it FAILED; a port that is not UP does
none of this. These are the model's choices: what of a port's link one command shows (notes/assumptions/52), nothing on a port that is
not UP (2), credits and acknowledgements as they ride in a codeword (115, 148), the cells of a resynchronisation (174), and a replay asked
for anew where a damaged frame comes before it (194). -/
def Obligations.StraitPorts : Prop :=
  ∀ (s : State) (port : Fin 8),
    let p := s.port port.val
    (p.state = 3 →
        (∀ f rest, p.resendQ = [] → p.qNotice = f :: rest → payCost f ≤ p.pcred → 1 ≤ p.hcred → p.replay.length < 128 →
          ∃ t : State, exec (.frameSend port) s = .next t ∧ (t.port port.val).qNotice = rest
            ∧ (t.port port.val).pcred = p.pcred - payCost f ∧ (t.port port.val).hcred = p.hcred - 1
            ∧ (t.port port.val).txSeq = (p.txSeq + 1) % 65536
            ∧ (t.port port.val).replay = p.replay ++ [{ f with lseq := BitVec.ofNat 16 p.txSeq }])
        ∧ (∀ f rest, p.resendQ = f :: rest → ∃ t : State, exec (.frameSend port) s = .next t
          ∧ (t.port port.val).resendQ = rest ∧ (t.port port.val).replayCnt = min (p.replayCnt + 1) 0xFFFFFFFF
          ∧ (t.port port.val).pcred = p.pcred)
        ∧ (s.silenced port.val = false → (p.ackDue = true ∨ p.nakDue = true) → (p.qSnap = [] ∨ s.inForce = none) →
          ∃ t : State, exec (.frameSend port) s = .next t ∧ (t.port port.val).ackDue = false ∧ (t.port port.val).nakDue = false
            ∧ (t.port port.val).ctlOut = some {
                ack := if p.ackDue then some (BitVec.ofNat 16 (p.rxSeq + 65535)) else none
                nak := if p.nakDue then some (BitVec.ofNat 16 p.rxSeq) else none
                payloadCredits := BitVec.ofNat 12 (min p.freedPay 4095), headerCredits := BitVec.ofNat 8 (min p.freedHdr 255) })
        ∧ (∀ f : Frame, s.armed.get [] (port.val / 2) = [] → s.inForce = none →
          let sound := frameCrc f
          (∀ cell, cellKind cell = 1 →
          (f.lseq.toNat = p.rxSeq → frameFits f = true → ∃ t : State, exec (.frameReceive port f ⟨sound, .clean, cell⟩) s = .next t
            ∧ (t.port port.val).rx = p.rx ++ [f] ∧ (t.port port.val).rxSeq = (p.rxSeq + 1) % 65536
            ∧ (t.port port.val).discarding = false)
          ∧ (f.lseq.toNat = p.rxSeq → frameFits f = true → ∃ t : State, exec (.frameReceive port f ⟨sound, .corrected, cell⟩) s = .next t
            ∧ (t.port port.val).rx = p.rx ++ [f] ∧ (t.port port.val).fecCorr = min (p.fecCorr + 1) 0xFFFFFFFF)
          ∧ (f.lseq.toNat = p.rxSeq → frameFits f = false → ∃ t : State, exec (.frameReceive port f ⟨sound, .clean, cell⟩) s = .next t
            ∧ (t.port port.val).rx = p.rx ∧ (t.port port.val).badfrm = min (p.badfrm + 1) 0xFFFFFFFF)
          ∧ (f.lseq.toNat ≠ p.rxSeq → ∃ t : State, exec (.frameReceive port f ⟨sound, .clean, cell⟩) s = .next t
            ∧ (t.port port.val).rx = p.rx ∧ (t.port port.val).rxSeq = p.rxSeq ∧ (t.port port.val).nakSent = true)
          ∧ (∀ crc, crc ≠ sound → ∃ t : State, exec (.frameReceive port f ⟨crc, .clean, cell⟩) s = .next t
            ∧ (t.port port.val).rx = p.rx ∧ (t.port port.val).rxSeq = p.rxSeq ∧ (t.port port.val).nakDue = true))
          ∧ (∀ cell crc, cellKind cell ≠ 1 → ∃ t : State, exec (.frameReceive port f ⟨crc, .clean, cell⟩) s = .next t
            ∧ (t.port port.val).rx = p.rx ∧ (t.port port.val).rxSeq = p.rxSeq
            ∧ (t.port port.val).rxCseq = (cellSeq cell + 1) % 256
            ∧ (cellSeq cell ≠ p.rxCseq → (t.port port.val).discarding = true))
          ∧ ∀ crc cell, ∃ t : State, exec (.frameReceive port f ⟨crc, .uncorrectable, cell⟩) s = .next t
            ∧ (t.port port.val).rx = p.rx ∧ (t.port port.val).rxSeq = p.rxSeq ∧ (t.port port.val).nakDue = true
            ∧ (t.port port.val).fecUncorr = min (p.fecUncorr + 1) 0xFFFFFFFF)
        ∧ (∀ k : Control, s.armed.get [] (port.val / 2) = [] →
          (k.nak = none → ∃ t : State, exec (.controlCodeword port ⟨k, .clean⟩) s = .next t ∧ (t.port port.val).state = 3
            ∧ (t.port port.val).pcred = min 256 (p.pcred + k.payloadCredits.toNat)
            ∧ (t.port port.val).hcred = min 128 (p.hcred + k.headerCredits.toNat))
          ∧ (k.nak.isSome = true → k.ack = none → p.resends = 8 → ∃ t : State, exec (.controlCodeword port ⟨k, .clean⟩) s = .next t
            ∧ (t.port port.val).state = 4 ∧ (t.port port.val).fcause = 1)
          ∧ ∃ t : State, exec (.controlCodeword port ⟨k, .uncorrectable⟩) s = .next t ∧ (t.port port.val).state = 3
            ∧ (t.port port.val).pcred = p.pcred ∧ (t.port port.val).hcred = p.hcred
            ∧ (t.port port.val).fecUncorr = min (p.fecUncorr + 1) 0xFFFFFFFF)
        ∧ (∀ q : BitVec 8, ∃ t : State, exec (.cseqOutOfSequence port q) s = .next t
          ∧ (t.port port.val).discarding = (p.discarding || decide (q.toNat ≠ p.rxCseq))
          ∧ (t.port port.val).rxCseq = (q.toNat + 1) % 256 ∧ (t.port port.val).rxSeq = p.rxSeq)
        ∧ (∃ t : State, exec (.portControlSilence port) s = .next t ∧ (t.port port.val).state = 4 ∧ (t.port port.val).fcause = 2)
        ∧ ∃ t : State, exec (.portLaneLockLoss port) s = .next t ∧ (t.port port.val).state = 4 ∧ (t.port port.val).fcause = 3)
      ∧ (p.state ≠ 3 → exec (.frameSend port) s = .next s ∧ (∀ f b, exec (.frameReceive port f b) s = .next s)
        ∧ (∀ k, exec (.controlCodeword port k) s = .next s) ∧ (∀ q, exec (.cseqOutOfSequence port q) s = .next s)
        ∧ exec (.portControlSilence port) s = .next s ∧ exec (.portLaneLockLoss port) s = .next s)

/-! ### Power, resets, sensors, debug and ports to the outside (R384, R400 to R407, R419 to R442) -/

namespace Sys2Proof.Claims

/-- Every domain but the service domain is off. -/
def dark (t : State) : Prop := t.board.mainlandOn = false ∧ t.board.mioOn = false ∧ ∀ d < 4, (t.die d).powered = false

end Sys2Proof.Claims

/-- A rising input starts the service domain and a falling one switches everything off, with boot flash and the queue kept; a cold reset
starts the board anew; losing the root PLL is as losing the input. Power-good counts the power-on and, with valid firmware, powers every
die and the mainland and starts the service core; a wake powers every die and the mainland from standby and from emergency off. PERST#
takes the PCIe link down and clears its window table, the TAP reset clears the TAPs' instructions, the service watchdog starts the
service core at M at its reset address, and a die controller's watchdog raises NOTICE 0x0314 where the service core can take it. These
are the model's choices: a whole boot in one command (notes/assumptions/19) with self-tests that pass (18), the notice held at once (97),
nothing where a command does not apply (2), what the service watchdog keeps (20), the state after loss of the root clock (90), and a
supply that fails as a boot or wake enables it, which stops the sequence with emergency off (168). -/
def Obligations.PowerOnBootAndReset : Prop :=
  ∀ s : State,
    (s.board.inputOn = false → ∃ t : State, exec .inputPowerOn s = .next t ∧ t.board.inputOn = true ∧ t.board.servicePowered = true
        ∧ t.board.serviceGood = false ∧ t.cores = [] ∧ t.dram.bytes = [] ∧ dark t ∧ t.board.flash = s.board.flash
        ∧ t.pending = s.pending)
      ∧ (s.board.inputOn = true → exec .inputPowerOn s = .next s)
      ∧ (∃ t : State, exec .inputBelow40v s = .next t ∧ t.board.inputOn = false ∧ t.board.servicePowered = false ∧ dark t
        ∧ t.board.flash = s.board.flash ∧ t.pending = s.pending)
      ∧ (∀ src, s.board.inputOn = true → s.board.servicePowered = true →
        ∃ t : State, exec (.coldReset src) s = .next t ∧ t.board.inputOn = true ∧ t.board.serviceGood = false ∧ dark t
          ∧ t.board.flash = s.board.flash)
      ∧ (s.board.servicePowered = true → ∃ t : State, exec .rootPllLockLoss s = .next t ∧ t.board.inputOn = false
        ∧ t.board.servicePowered = false ∧ dark t)
      ∧ (∀ b, s.board.servicePowered = true → s.board.serviceGood = false → s.board.flash.crashValid = false →
        s.bootBank 1 0 = some b → (∀ n ∈ sequence, s.board.failsNext.get false n = false) →
        ∃ t : State, exec .servicePowerGood s = .next t ∧ t.board.serviceGood = true
          ∧ t.board.flash.boots = (s.board.flash.boots + 1) % 2 ^ 32 ∧ t.board.mainlandOn = true
          ∧ (t.core 596).run = .running ∧ (t.core 596).level = .m ∧ ∀ d < 4, (t.die d).powered = true)
      ∧ (∀ src n, s.unitUp 4 = true → (s.board.standby = true ∨ s.board.emergencyOff = true) → s.board.hot = [] → s.board.leak = [] →
        n ∈ sequence → s.board.failsNext.get false n = true →
        ∃ t : State, exec (.wakeRequest src) s = .next t ∧ t.board.standby = false ∧ t.board.emergencyOff = true ∧ dark t)
      ∧ (∀ src, s.unitUp 4 = true → (s.board.standby = true ∨ s.board.emergencyOff = true) → s.board.hot = [] → s.board.leak = [] →
        (∀ n ∈ sequence, s.board.failsNext.get false n = false) →
        ∃ t : State, exec (.wakeRequest src) s = .next t ∧ t.board.standby = false ∧ t.board.emergencyOff = false
          ∧ t.board.mainlandOn = true ∧ ∀ d < 4, (t.die d).powered = true)
      ∧ (∃ t : State, exec .pcieReset s = .next t ∧ t.board.pcieUp = false ∧ t.board.pcieTable = [] ∧ t.board.pcieBars = [] ∧ t.cores = s.cores
        ∧ t.dram = s.dram)
      ∧ (∃ t : State, exec .tapReset s = .next t ∧ t.board.tapIr = [] ∧ t.cores = s.cores ∧ t.dram = s.dram)
      ∧ (s.unitUp 4 = true → ∃ t : State, exec .serviceWatchdog s = .next t ∧ (t.core 596).run = .running
        ∧ (t.core 596).level = .m ∧ (t.core 596).pc = 0x3FFFFFF00000 ∧ t.dram = s.dram ∧ t.dies = s.dies)
      ∧ ∀ die : Fin 4, (s.die die.val).up = true → (s.die die.val).ctlRunning = true →
        ∃ t : State, exec (.dieControllerWatchdog die) s = .next t ∧ t.dram = s.dram ∧ t.ports = s.ports
          ∧ (ctlFree s 4 → (t.core 576).notices.getLast? = some 0x314)

/-- The input outside its limits, a sensor above its critical limit, a leak and a failed regulator of a domain that the board
cannot do without, of IBUS or of a VIN rail switch off every domain but the service domain; an atoll's regulator takes that atoll
offline, a drive's that drive, and an OSFP cage's rail its die's strait SerDes group; the fault of a domain that is off waits until it
is enabled; a leak sensor that stops reporting is forgotten; a temperature within its limits and a power sample are kept, with the
fraction of a millijoule, and an armed injection makes the power sample leave its limits. These are the model's choices: a sample's
energy as voltage times current over 1 ms (notes/assumptions/93), a fault that waits for its supply and what an OSFP rail's fault does
(155, 168), what an injection changes of a sample (70), a leak's entry (138), and nothing where a command does not apply (2). -/
def Obligations.EmergencyOff : Prop :=
  ∀ s : State, s.board.servicePowered = true →
    let gone := fun (o : Out) => ∃ t : State, o = .next t ∧ t.board.emergencyOff = true ∧ dark t
    (∀ mv, (mv < 46000 → gone (exec (.inputUndervoltage mv) s)) ∧ (62000 < mv → gone (exec (.inputOvervoltage mv) s)))
      ∧ (∀ mv, s.armed.get [] 4 = [] → (46000 ≤ mv → exec (.inputUndervoltage mv) s = .next s)
        ∧ (mv ≤ 62000 → exec (.inputOvervoltage mv) s = .next s))
      ∧ (∀ (n : Fin 52) (t warn crit : Int), (tempLimits n.val warn crit).2 < t → gone (exec (.temperatureSample n t warn crit) s))
      ∧ (∀ (n : Fin 52) (t warn crit : Int), s.armed.get [] 4 = [] → t ≤ (tempLimits n.val warn crit).1 →
        t ≤ (tempLimits n.val warn crit).2 →
        ∃ u : State, exec (.temperatureSample n t warn crit) s = .next u ∧ u.board.temps.get 0 n.val = t
          ∧ u.board.emergencyOff = s.board.emergencyOff ∧ u.cores = s.cores)
      ∧ (∀ n : Fin 4, gone (exec (.leakDetect (.reports n)) s) ∧ ∃ t : State, exec (.leakDetect (.stops n)) s = .next t
        ∧ (∀ m, t.board.leak.get false m = (if m = n.val then false else s.board.leak.get false m)) ∧ t.cores = s.cores)
      ∧ (∀ mv ma, (∃ a ∈ s.armed.get [] 4, a.num = 0x601 ∧ a.loc = 0) → gone (exec (.powerMonitorSample mv ma) s))
      ∧ (∀ mv ma, s.armed.get [] 4 = [] → ∃ t : State, exec (.powerMonitorSample mv ma) s = .next t ∧ t.board.lastMv = mv ∧ t.board.lastMa = ma
        ∧ t.board.meters.energy = s.board.meters.energy + (s.board.meters.energyRest + mv * ma) / 1000000
        ∧ t.board.meters.energyRest = (s.board.meters.energyRest + mv * ma) % 1000000 ∧ t.cores = s.cores)
      ∧ (∀ p : Fin 8, s.unitUp 4 = true → s.board.standby = false → s.board.emergencyOff = false →
        s.board.osfpFailed.get false p.val = false →
        let off := fun (o : Out) => ∃ t : State, o = .next t ∧ t.board.osfpFailed.get false p.val = true
          ∧ (t.die (p.val / 2)).serdes = false ∧ t.board.emergencyOff = false
        off (exec (.regulatorFault (.osfp p)) s) ∧ off (exec (.railNotGoodTimeout (.osfp p)) s))
      ∧ (∀ q : Supply, (q = .ibus ∨ ∃ i, q = .vin i) → s.unitUp 4 = true → s.board.standby = false → s.board.emergencyOff = false →
        gone (exec (.regulatorFault q) s) ∧ gone (exec (.railNotGoodTimeout q) s))
      ∧ ∀ n : Fin 59,
        let both := fun (P : Out → Prop) => P (exec (.regulatorFault (.domain n)) s) ∧ P (exec (.railNotGoodTimeout (.domain n)) s)
        (s.domainOn n.val = false → both fun o =>
          o = .next (s.updBoard fun b => { b with failsNext := b.failsNext.set false n.val true }))
        ∧ (s.domainOn n.val = true →
        (n.val < 48 → n.val % 12 < 9 → both fun o => ∃ t : State, o = .next t
            ∧ (t.atoll (n.val / 12 * 9 + n.val % 12)).powered = false
            ∧ ∀ a, (s.die (n.val / 12)).logicalAt (n.val % 12) = some a → (t.die (n.val / 12)).isOffline a = true)
          ∧ (55 ≤ n.val → both fun o => ∃ t : State, o = .next t ∧ t.board.nvmeOn.get false (n.val - 55) = false)
          ∧ (n.val < 55 → n.val ≠ 50 → (48 ≤ n.val ∨ 9 ≤ n.val % 12) → both gone))

/-- A request's head with the CRC-32C over OPC, TARGET, LEN and payload, in the order of R441. -/
def Sys2Proof.Claims.headFor (opc : Nat) (target : BitVec 16) (ws : List W64) : DebugHead :=
  { target := target
    crc := BitVec.ofNat 32 (crc32c (leBytes 1 opc ++ leBytes 2 target.toNat ++ leBytes 2 ws.length ++ ws.flatMap fun w => leBytes 8 w.toNat)) }

/-- The payload of READ (R441). -/
def Sys2Proof.Claims.readWords (lv : BitVec 2) (regs : List (BitVec 12)) : List W64 := word_ lv.toNat :: regs.map fun n => word_ n.toNat

/-- Requests of the debug header: one whose CRC fails answers BAD_CRC and does nothing else; all are denied in SEALED; allowed ones act on the core and answer; a HALT of a core whose domain is off
waits; STATUS answers in every state. A boundary scan needs VENDOR and a domain that is off; IDCODE and BYPASS work always. These are
the model's choices: the targets and refusals that no rule gives (notes/assumptions/75), the codes of the TAP instructions and what
traces and scans hold (77), and the fields that keep a reply and TDO (117). -/
def Obligations.DebugRequests : Prop :=
  ∀ (s : State) (target : BitVec 16), s.unitUp 4 = true →
    let k := s.debugTarget target
    let x := s.core k
    (∀ crc : BitVec 32,
        let bad := fun (i : DebugHead → Instr) (good : DebugHead) => crc ≠ good.crc →
          ∃ t : State, exec (i { target := target, crc := crc }) s = .next t ∧ t.board.debugReply = some (1, []) ∧ t.cores = s.cores
        bad .debugHalt (headFor 1 target []) ∧ bad .debugStep (headFor 2 target []) ∧ bad .debugRun (headFor 3 target [])
          ∧ (∀ lv regs, bad (fun h => .debugRead h lv regs) (headFor 4 target (readWords lv regs)))
          ∧ (∀ pa n, bad (fun h => .traceOn h pa n) (headFor 5 target [word_ pa, word_ n]))
          ∧ bad .traceOff (headFor 6 target []) ∧ bad .debugStatus (headFor 7 target []))
      ∧ (target.getLsbD 15 = false → s.board.security = 0 →
        (∃ t : State, exec (.debugHalt (headFor 1 target [])) s = .next t ∧ t.board.debugReply = some (0x30, []) ∧ t.cores = s.cores)
        ∧ (∃ t : State, exec (.debugStep (headFor 2 target [])) s = .next t ∧ t.board.debugReply = some (0x30, []) ∧ t.cores = s.cores)
        ∧ (∃ t : State, exec (.debugRun (headFor 3 target [])) s = .next t ∧ t.board.debugReply = some (0x30, []) ∧ t.cores = s.cores)
        ∧ (∃ t : State, exec (.traceOff (headFor 6 target [])) s = .next t ∧ t.board.debugReply = some (0x30, []) ∧ t.cores = s.cores)
        ∧ (∀ pa n, ∃ t : State, exec (.traceOn (headFor 5 target [word_ pa, word_ n]) pa n) s = .next t ∧ t.board.debugReply = some (0x30, []) ∧ t.cores = s.cores)
        ∧ (∀ lv regs, ∃ t : State, exec (.debugRead (headFor 4 target (readWords lv regs)) lv regs) s = .next t ∧ t.board.debugReply = some (0x30, [])
          ∧ t.cores = s.cores))
      ∧ (target.getLsbD 15 = false → (s.board.security = 1 ∨ s.board.security = 2) → s.column k ≤ 1 →
        (x.dbgHalted = false → ∃ t : State, exec (.debugHalt (headFor 1 target [])) s = .next t ∧ (t.core k).dbgHaltReq = true
            ∧ t.board.debugReply = some (0, []))
        ∧ (x.dbgHalted = true → ∃ t : State, exec (.debugStep (headFor 2 target [])) s = .next t ∧ (t.core k).dbgStep = true
            ∧ (t.core k).dbgHalted = false ∧ t.board.debugReply = some (0, []))
        ∧ (∃ t : State, exec (.debugRun (headFor 3 target [])) s = .next t ∧ (t.core k).dbgHalted = false ∧ (t.core k).dbgHaltReq = false
            ∧ t.board.debugReply = some (0, []))
        ∧ (∀ (lv : BitVec 2) (regs : List (BitVec 12)), lv.toNat < 2 → x.dbgHalted = true → k ≠ 596 →
          (∀ n ∈ regs, sysPresent k n.toNat = true ∧ sysReadLevel n.toNat ≤ lv.toNat) →
          ∃ t : State, exec (.debugRead (headFor 4 target (readWords lv regs)) lv regs) s = .next t ∧ ∃ ws, t.board.debugReply = some (0, ws)
            ∧ ws.length = regs.length)
        ∧ (∀ pa n, s.inUsable pa n = true → ∃ t : State, exec (.traceOn (headFor 5 target [word_ pa, word_ n]) pa n) s = .next t
            ∧ (t.core k).trace.isSome = true ∧ (¬ (s.board.security = 1 ∧ x.level = .m) →
              (t.core k).trace = some { pa := pa, bytes := n, used := 0, records := [] }))
        ∧ (∃ t : State, exec (.traceOff (headFor 6 target [])) s = .next t ∧ (t.core k).trace = none))
      ∧ (target.getLsbD 15 = false → (s.board.security = 1 ∨ s.board.security = 2) → 1 < s.column k →
        ∃ t : State, exec (.debugHalt (headFor 1 target [])) s = .next t ∧ (t.core k).dbgDeferred = some .halt)
      ∧ (∃ t : State, exec (.debugStatus (headFor 7 target [])) s = .next t ∧ t.board.debugReply
          = some (0, [s.stateWord (min 4 (target.toNat / 128))]) ∧ t.cores = s.cores)
      ∧ (∀ (die : Fin 5) (i : ScanInstr), (s.board.security = 2 → 3 ≤ s.scanColumn die.val →
          ∃ t : State, exec (.boundaryScan die i) s = .next t ∧ t.board.debugReply = some (0, []) ∧ t.cores = s.cores)
        ∧ (s.board.security < 2 → ∃ t : State, exec (.boundaryScan die i) s = .next t ∧ t.board.debugReply = some (0x30, [])
          ∧ t.dram = s.dram))
      ∧ ∀ tap : Fin 5, s.board.servicePowered = true →
        (∃ t : State, exec (.idcodeBypass tap .idcode) s = .next t ∧ t.board.tapOut.length = 32 ∧ t.board.tapIr.get 0 tap.val = 0
          ∧ t.cores = s.cores)
        ∧ ∃ t : State, exec (.idcodeBypass tap .bypass) s = .next t ∧ t.board.tapOut = [false] ∧ t.board.tapIr.get 0 tap.val = 1

/-- The board's ports: SMBus answers voltage and current with the board's state; console input is kept outside SEALED only; a BAR reads
back what configuration wrote, and the power state follows its word, whose place is the model's choice (notes/assumptions/173); the PCIe
window writes the page its table names, and a link error is counted; a drive moves bytes to and from memory; an address beyond 46 bits
ends the run. The link that is up after a request (notes/assumptions/21), the fault beyond 46 bits (110) and the PEC byte of SMBus (171)
are the model's choices. -/
def Obligations.OutsidePorts : Prop :=
  ∀ s : State,
    (s.board.servicePowered = true →
        (∃ t : State, exec .smbusBlockRead s = .next t ∧ t.board.smbusReply.length = 18 ∧ t.board.smbusReply.head? = some 16
          ∧ (t.board.smbusReply.drop 1).take 8 = leBytes 4 s.board.lastMv ++ leBytes 4 s.board.lastMa ∧ t.cores = s.cores)
        ∧ (∀ b, s.board.security ≠ 0 → ∃ t : State, exec (.consoleRx b) s = .next t ∧ t.board.console = s.board.console ++ [b])
        ∧ (∀ b, s.board.security = 0 → exec (.consoleRx b) s = .next s))
      ∧ (s.board.mioOn = true →
        (∀ off, ∃ t : State, exec (.pcieInboundRequest (.configRead off)) s = .next t ∧ t.board.lastReply.length = 4)
        ∧ (∀ v : W32, ∃ t u : State, exec (.pcieInboundRequest (.configWrite 0x1C v)) s = .next t
          ∧ exec (.pcieInboundRequest (.configRead 0x1C)) t = .next u ∧ u.board.lastReply = leBytes 4 v.toNat
          ∧ t.board.pcieD3 = s.board.pcieD3 ∧ t.dram = s.dram)
        ∧ (∃ t : State, exec (.pcieInboundRequest (.configWrite pciePmcsrAt 3)) s = .next t ∧ t.board.pcieD3 = true)
        ∧ (∃ t : State, exec (.pcieInboundRequest (.configWrite pciePmcsrAt 0)) s = .next t ∧ t.board.pcieD3 = false)
        ∧ (∃ t : State, exec (.pcieInboundRequest .enterD3hot) s = .next t ∧ t.board.pcieD3 = true)
        ∧ (∃ t : State, exec (.pcieInboundRequest .enterD0) s = .next t ∧ t.board.pcieD3 = false)
        ∧ (∀ c port, ∃ t : State, exec (.pcieInboundRequest (.linkError c port)) s = .next t ∧ t.dram = s.dram
          ∧ (t.dets.get {} (detKey 4 0x0608)).count = min ((s.dets.get {} (detKey 4 0x0608)).count + 1) 0xFFFFFFFF)
        ∧ (s.board.pcieD3 = false → ∀ (off page : Nat) (bytes : List Byte), 0 < bytes.length →
          off % (2 * 2 ^ 20) + bytes.length ≤ 2 * 2 ^ 20 → off + bytes.length ≤ 64 * 2 ^ 30 →
          s.board.pcieTable.get 0 (off / (2 * 2 ^ 20)) = page + 1 →
          (page * (2 * 2 ^ 20) + off % (2 * 2 ^ 20) + bytes.length ≤ 2 ^ 46 →
            exec (.pcieInboundRequest (.write off bytes)) s = .next ((s.updBoard fun b => { b with pcieUp := true }).physWrite
              mainlandPlace (page * (2 * 2 ^ 20) + off % (2 * 2 ^ 20)) bytes 0 1))
          ∧ (2 ^ 46 < page * (2 * 2 ^ 20) + off % (2 * 2 ^ 20) + bytes.length →
            exec (.pcieInboundRequest (.write off bytes)) s
              = .fault (.outsideAddressSpace (page * (2 * 2 ^ 20) + off % (2 * 2 ^ 20) + bytes.length - 1))))
        ∧ ∀ slot : Fin 4, s.board.nvmeOn.get false slot.val = true →
          (∀ pa bytes snapshot, pa + List.length bytes ≤ 2 ^ 46 → exec (.nvmePathTransfer (.toDram slot pa bytes snapshot)) s
            = .next (s.physWrite mainlandPlace pa bytes (if snapshot = true then 3 else 4) 5))
          ∧ (∀ pa n snapshot, pa + n ≤ 2 ^ 46 → ∃ t : State, exec (.nvmePathTransfer (.fromDram slot pa n snapshot)) s = .next t
            ∧ t.board.lastReply = readBytes s.dram.bytes pa n)
          ∧ ∀ pa n snapshot, 2 ^ 46 < pa + n →
            exec (.nvmePathTransfer (.fromDram slot pa n snapshot)) s = .fault (.outsideAddressSpace (pa + n - 1)))
end

