-- ==== Sys2Proof/Laws/Maps.lean ====
section
/-! SUPPORT. The sparse map: a read after a write, and the canonical form that every write keeps. -/

namespace Sys2Proof
variable {α : Type}

theorem SMap.get_put_same (d : α) (m : SMap α) (i : Nat) (v : α) : SMap.get d (SMap.put m i v) i = v := by
  induction m with
  | nil => simp [SMap.put, SMap.get]
  | cons p m ih =>
    obtain ⟨k, w⟩ := p
    simp only [SMap.put]
    split
    · simp [SMap.get]
    · split
      · simp [SMap.get]
      · rename_i h1 h2; simp [SMap.get, h2, ih]

theorem SMap.get_put_other (d : α) (m : SMap α) {i j : Nat} (h : j ≠ i) (v : α) :
    SMap.get d (SMap.put m i v) j = SMap.get d m j := by
  induction m with
  | nil => simp [SMap.put, SMap.get, h]
  | cons p m ih =>
    obtain ⟨k, w⟩ := p
    simp only [SMap.put]
    split
    · simp [SMap.get, h]
    · split
      · rename_i h1 h2; subst h2; simp [SMap.get, h]
      · simp [SMap.get, ih]

theorem SMap.get_del_same (d : α) (m : SMap α) (i : Nat) : SMap.get d (SMap.del m i) i = d := by
  induction m with
  | nil => simp [SMap.del, SMap.get]
  | cons p m ih =>
    obtain ⟨k, w⟩ := p
    simp only [SMap.del] at ih ⊢
    by_cases h : k = i
    · simp [h, ih]
    · have hk : ¬ i = k := fun e => h e.symm
      simp [h, hk, SMap.get, ih]

theorem SMap.get_del_other (d : α) (m : SMap α) {i j : Nat} (h : j ≠ i) :
    SMap.get d (SMap.del m i) j = SMap.get d m j := by
  induction m with
  | nil => simp [SMap.del, SMap.get]
  | cons p m ih =>
    obtain ⟨k, w⟩ := p
    simp only [SMap.del] at ih ⊢
    by_cases hk : k = i
    · subst hk; simp [SMap.get, h, ih]
    · simp [hk, SMap.get, ih]

variable [DecidableEq α]

/-- A read gives what was written there last. -/
@[simp] theorem SMap.get_set_same (d : α) (m : SMap α) (i : Nat) (v : α) : SMap.get d (SMap.set d m i v) i = v := by
  unfold SMap.set
  split
  · rename_i h; rw [SMap.get_del_same, h]
  · exact SMap.get_put_same ..

/-- A write leaves every other key alone. -/
theorem SMap.get_set_other (d : α) (m : SMap α) {i j : Nat} (h : j ≠ i) {e : α} (v : α) :
    SMap.get d (SMap.set e m i v) j = SMap.get d m j := by
  unfold SMap.set
  split
  · exact SMap.get_del_other d m h
  · exact SMap.get_put_other d m h v

theorem SMap.get_set (d : α) (m : SMap α) (i j : Nat) (v : α) :
    SMap.get d (SMap.set d m i v) j = if j = i then v else SMap.get d m j := by
  split
  · rename_i h; subst h; simp
  · rename_i h; exact SMap.get_set_other d m h v

/-! ### The canonical form -/

/-- The canonical form as a property of every pair and every two neighbours. -/
theorem SMap.wf_cons {d : Nat → α} {k : Nat} {v : α} {m : SMap α} :
    SMap.wf d ((k, v) :: m) = true ↔ v ≠ d k ∧ (∀ p ∈ m, k < p.1) ∧ SMap.wf d m = true := by
  induction m generalizing k v with
  | nil => simp [SMap.wf]
  | cons p m ih =>
    obtain ⟨k', v'⟩ := p
    simp only [SMap.wf, Bool.and_eq_true, bne_iff_ne, decide_eq_true_eq, List.mem_cons, forall_eq_or_imp]
    constructor
    · rintro ⟨⟨h1, h2⟩, h3⟩
      exact ⟨h1, ⟨h2, fun q hq => Nat.lt_trans h2 ((ih.mp h3).2.1 q hq)⟩, h3⟩
    · rintro ⟨h1, ⟨h2, -⟩, h3⟩
      exact ⟨⟨h1, h2⟩, h3⟩

omit [DecidableEq α] in
theorem SMap.mem_put_key {m : SMap α} {i : Nat} {v : α} {q : Nat × α} (h : q ∈ SMap.put m i v) : q.1 = i ∨ q ∈ m := by
  induction m with
  | nil => simp only [SMap.put, List.mem_singleton] at h; exact .inl (by rw [h])
  | cons p m ih =>
    obtain ⟨k, w⟩ := p
    simp only [SMap.put] at h
    split at h
    · rcases List.mem_cons.mp h with rfl | h
      · exact .inl rfl
      · exact .inr h
    · split at h
      · rcases List.mem_cons.mp h with rfl | h
        · exact .inl rfl
        · exact .inr (List.mem_cons_of_mem _ h)
      · rcases List.mem_cons.mp h with rfl | h
        · exact .inr (List.mem_cons_self ..)
        · rcases ih h with h | h
          · exact .inl h
          · exact .inr (List.mem_cons_of_mem _ h)

theorem SMap.wf_put {d : Nat → α} {m : SMap α} {i : Nat} {v : α} (h : SMap.wf d m = true) (hv : v ≠ d i) :
    SMap.wf d (SMap.put m i v) = true := by
  induction m with
  | nil => simpa [SMap.put, SMap.wf] using hv
  | cons p m ih =>
    obtain ⟨k, w⟩ := p
    have hc := SMap.wf_cons.mp h
    simp only [SMap.put]
    split
    · rename_i hlt
      refine SMap.wf_cons.mpr ⟨hv, ?_, h⟩
      intro q hq
      rcases List.mem_cons.mp hq with rfl | hq
      · exact hlt
      · exact Nat.lt_trans hlt (hc.2.1 q hq)
    · split
      · rename_i h1 h2
        subst h2
        exact SMap.wf_cons.mpr ⟨hv, hc.2.1, hc.2.2⟩
      · rename_i h1 h2
        refine SMap.wf_cons.mpr ⟨hc.1, ?_, ih hc.2.2⟩
        intro q hq
        rcases SMap.mem_put_key hq with hq | hq
        · omega
        · exact hc.2.1 q hq

theorem SMap.wf_del {d : Nat → α} {m : SMap α} {i : Nat} (h : SMap.wf d m = true) : SMap.wf d (SMap.del m i) = true := by
  induction m with
  | nil => simp [SMap.del, SMap.wf]
  | cons p m ih =>
    obtain ⟨k, w⟩ := p
    have hc := SMap.wf_cons.mp h
    have hi := ih hc.2.2
    simp only [SMap.del] at hi ⊢
    by_cases hk : k = i
    · simpa [hk] using hi
    · simp only [List.filter_cons, bne_iff_ne, ne_eq, hk, not_false_eq_true, if_true]
      exact SMap.wf_cons.mpr ⟨hc.1, fun q hq => hc.2.1 q (List.mem_filter.mp hq).1, hi⟩

/-- Every write keeps the canonical form. -/
theorem SMap.wf_set {e : α} {m : SMap α} {i : Nat} {v : α} (h : SMap.wf (fun _ => e) m = true) :
    SMap.wf (fun _ => e) (SMap.set e m i v) = true := by
  unfold SMap.set
  split
  · exact SMap.wf_del h
  · rename_i hv; exact SMap.wf_put h hv

/-- Writing bytes keeps the canonical form. -/
theorem writeBytes_wf {m : SMap Byte} {a : Nat} {bs : List Byte} (h : SMap.wf (fun _ => 0) m = true) :
    SMap.wf (fun _ => 0) (writeBytes m a bs) = true := by
  induction bs generalizing m a with
  | nil => exact h
  | cons b bs ih => exact ih (SMap.wf_set h)

/-- A byte outside the bytes written reads as before. -/
theorem writeBytes_other {m : SMap Byte} {a i : Nat} {bs : List Byte} (h : i < a ∨ a + bs.length ≤ i) :
    SMap.get 0 (writeBytes m a bs) i = SMap.get 0 m i := by
  induction bs generalizing m a with
  | nil => rfl
  | cons b bs ih =>
    simp only [List.length_cons] at h
    rw [writeBytes, ih (by omega), SMap.get_set_other 0 m (by omega)]

end Sys2Proof
end

