-- ==== Sys2Proof/Laws/State.lean ====
section
/-! SUPPORT. One lemma for each field and each update of the state and of a core, so that no proof unfolds a record update; and
reads after writes of the parts that the state holds in maps. -/

namespace Sys2Proof.Machine
open Sys2Proof

/-! ### Core -/

@[simp] theorem State.setCore_atolls (s : State) (k : Nat) (v : Core) : (s.setCore k v).atolls = s.atolls := rfl
@[simp] theorem State.updCore_atolls (s : State) (k : Nat) (g : Core → Core) : (s.updCore k g).atolls = s.atolls := rfl
@[simp] theorem State.setCore_dies (s : State) (k : Nat) (v : Core) : (s.setCore k v).dies = s.dies := rfl
@[simp] theorem State.updCore_dies (s : State) (k : Nat) (g : Core → Core) : (s.updCore k g).dies = s.dies := rfl
@[simp] theorem State.setCore_ports (s : State) (k : Nat) (v : Core) : (s.setCore k v).ports = s.ports := rfl
@[simp] theorem State.updCore_ports (s : State) (k : Nat) (g : Core → Core) : (s.updCore k g).ports = s.ports := rfl
@[simp] theorem State.setCore_punits (s : State) (k : Nat) (v : Core) : (s.setCore k v).punits = s.punits := rfl
@[simp] theorem State.updCore_punits (s : State) (k : Nat) (g : Core → Core) : (s.updCore k g).punits = s.punits := rfl
@[simp] theorem State.setCore_recs (s : State) (k : Nat) (v : Core) : (s.setCore k v).recs = s.recs := rfl
@[simp] theorem State.updCore_recs (s : State) (k : Nat) (g : Core → Core) : (s.updCore k g).recs = s.recs := rfl
@[simp] theorem State.setCore_dets (s : State) (k : Nat) (v : Core) : (s.setCore k v).dets = s.dets := rfl
@[simp] theorem State.updCore_dets (s : State) (k : Nat) (g : Core → Core) : (s.updCore k g).dets = s.dets := rfl
@[simp] theorem State.setCore_armed (s : State) (k : Nat) (v : Core) : (s.setCore k v).armed = s.armed := rfl
@[simp] theorem State.updCore_armed (s : State) (k : Nat) (g : Core → Core) : (s.updCore k g).armed = s.armed := rfl
@[simp] theorem State.setCore_dram (s : State) (k : Nat) (v : Core) : (s.setCore k v).dram = s.dram := rfl
@[simp] theorem State.updCore_dram (s : State) (k : Nat) (g : Core → Core) : (s.updCore k g).dram = s.dram := rfl
@[simp] theorem State.setCore_wireMsgs (s : State) (k : Nat) (v : Core) : (s.setCore k v).wireMsgs = s.wireMsgs := rfl
@[simp] theorem State.updCore_wireMsgs (s : State) (k : Nat) (g : Core → Core) : (s.updCore k g).wireMsgs = s.wireMsgs := rfl
@[simp] theorem State.setCore_wireAcks (s : State) (k : Nat) (v : Core) : (s.setCore k v).wireAcks = s.wireAcks := rfl
@[simp] theorem State.updCore_wireAcks (s : State) (k : Nat) (g : Core → Core) : (s.updCore k g).wireAcks = s.wireAcks := rfl
@[simp] theorem State.setCore_wireWakes (s : State) (k : Nat) (v : Core) : (s.setCore k v).wireWakes = s.wireWakes := rfl
@[simp] theorem State.updCore_wireWakes (s : State) (k : Nat) (g : Core → Core) : (s.updCore k g).wireWakes = s.wireWakes := rfl
@[simp] theorem State.setCore_snap (s : State) (k : Nat) (v : Core) : (s.setCore k v).snap = s.snap := rfl
@[simp] theorem State.updCore_snap (s : State) (k : Nat) (g : Core → Core) : (s.updCore k g).snap = s.snap := rfl
@[simp] theorem State.setCore_restore (s : State) (k : Nat) (v : Core) : (s.setCore k v).restore = s.restore := rfl
@[simp] theorem State.updCore_restore (s : State) (k : Nat) (g : Core → Core) : (s.updCore k g).restore = s.restore := rfl
@[simp] theorem State.setCore_board (s : State) (k : Nat) (v : Core) : (s.setCore k v).board = s.board := rfl
@[simp] theorem State.updCore_board (s : State) (k : Nat) (g : Core → Core) : (s.updCore k g).board = s.board := rfl
@[simp] theorem State.setCore_free (s : State) (k : Nat) (v : Core) : (s.setCore k v).free = s.free := rfl
@[simp] theorem State.updCore_free (s : State) (k : Nat) (g : Core → Core) : (s.updCore k g).free = s.free := rfl
@[simp] theorem State.setCore_pending (s : State) (k : Nat) (v : Core) : (s.setCore k v).pending = s.pending := rfl
@[simp] theorem State.updCore_pending (s : State) (k : Nat) (g : Core → Core) : (s.updCore k g).pending = s.pending := rfl
@[simp] theorem State.core_setCore_same (s : State) (k : Nat) (v : Core) : (s.setCore k v).core k = v := SMap.get_set_same ..
theorem State.core_setCore_other (s : State) {k j : Nat} (h : j ≠ k) (v : Core) : (s.setCore k v).core j = s.core j :=
  SMap.get_set_other _ _ h _
@[simp] theorem State.core_updCore_same (s : State) (k : Nat) (g : Core → Core) : (s.updCore k g).core k = g (s.core k) := SMap.get_set_same ..
theorem State.core_updCore_other (s : State) {k j : Nat} (h : j ≠ k) (g : Core → Core) : (s.updCore k g).core j = s.core j :=
  SMap.get_set_other _ _ h _
@[simp] theorem State.atoll_setCore (s : State) (k j : Nat) (v : Core) : (s.setCore k v).atoll j = s.atoll j := rfl
@[simp] theorem State.atoll_updCore (s : State) (k j : Nat) (g : Core → Core) : (s.updCore k g).atoll j = s.atoll j := rfl
@[simp] theorem State.die_setCore (s : State) (k j : Nat) (v : Core) : (s.setCore k v).die j = s.die j := rfl
@[simp] theorem State.die_updCore (s : State) (k j : Nat) (g : Core → Core) : (s.updCore k g).die j = s.die j := rfl
@[simp] theorem State.port_setCore (s : State) (k j : Nat) (v : Core) : (s.setCore k v).port j = s.port j := rfl
@[simp] theorem State.port_updCore (s : State) (k j : Nat) (g : Core → Core) : (s.updCore k g).port j = s.port j := rfl
@[simp] theorem State.punit_setCore (s : State) (k j : Nat) (v : Core) : (s.setCore k v).punit j = s.punit j := rfl
@[simp] theorem State.punit_updCore (s : State) (k j : Nat) (g : Core → Core) : (s.updCore k g).punit j = s.punit j := rfl
@[simp] theorem State.recorder_setCore (s : State) (k j : Nat) (v : Core) : (s.setCore k v).recorder j = s.recorder j := rfl
@[simp] theorem State.recorder_updCore (s : State) (k j : Nat) (g : Core → Core) : (s.updCore k g).recorder j = s.recorder j := rfl

/-! ### Atoll -/

@[simp] theorem State.setAtoll_cores (s : State) (k : Nat) (v : Atoll) : (s.setAtoll k v).cores = s.cores := rfl
@[simp] theorem State.updAtoll_cores (s : State) (k : Nat) (g : Atoll → Atoll) : (s.updAtoll k g).cores = s.cores := rfl
@[simp] theorem State.setAtoll_dies (s : State) (k : Nat) (v : Atoll) : (s.setAtoll k v).dies = s.dies := rfl
@[simp] theorem State.updAtoll_dies (s : State) (k : Nat) (g : Atoll → Atoll) : (s.updAtoll k g).dies = s.dies := rfl
@[simp] theorem State.setAtoll_ports (s : State) (k : Nat) (v : Atoll) : (s.setAtoll k v).ports = s.ports := rfl
@[simp] theorem State.updAtoll_ports (s : State) (k : Nat) (g : Atoll → Atoll) : (s.updAtoll k g).ports = s.ports := rfl
@[simp] theorem State.setAtoll_punits (s : State) (k : Nat) (v : Atoll) : (s.setAtoll k v).punits = s.punits := rfl
@[simp] theorem State.updAtoll_punits (s : State) (k : Nat) (g : Atoll → Atoll) : (s.updAtoll k g).punits = s.punits := rfl
@[simp] theorem State.setAtoll_recs (s : State) (k : Nat) (v : Atoll) : (s.setAtoll k v).recs = s.recs := rfl
@[simp] theorem State.updAtoll_recs (s : State) (k : Nat) (g : Atoll → Atoll) : (s.updAtoll k g).recs = s.recs := rfl
@[simp] theorem State.setAtoll_dets (s : State) (k : Nat) (v : Atoll) : (s.setAtoll k v).dets = s.dets := rfl
@[simp] theorem State.updAtoll_dets (s : State) (k : Nat) (g : Atoll → Atoll) : (s.updAtoll k g).dets = s.dets := rfl
@[simp] theorem State.setAtoll_armed (s : State) (k : Nat) (v : Atoll) : (s.setAtoll k v).armed = s.armed := rfl
@[simp] theorem State.updAtoll_armed (s : State) (k : Nat) (g : Atoll → Atoll) : (s.updAtoll k g).armed = s.armed := rfl
@[simp] theorem State.setAtoll_dram (s : State) (k : Nat) (v : Atoll) : (s.setAtoll k v).dram = s.dram := rfl
@[simp] theorem State.updAtoll_dram (s : State) (k : Nat) (g : Atoll → Atoll) : (s.updAtoll k g).dram = s.dram := rfl
@[simp] theorem State.setAtoll_wireMsgs (s : State) (k : Nat) (v : Atoll) : (s.setAtoll k v).wireMsgs = s.wireMsgs := rfl
@[simp] theorem State.updAtoll_wireMsgs (s : State) (k : Nat) (g : Atoll → Atoll) : (s.updAtoll k g).wireMsgs = s.wireMsgs := rfl
@[simp] theorem State.setAtoll_wireAcks (s : State) (k : Nat) (v : Atoll) : (s.setAtoll k v).wireAcks = s.wireAcks := rfl
@[simp] theorem State.updAtoll_wireAcks (s : State) (k : Nat) (g : Atoll → Atoll) : (s.updAtoll k g).wireAcks = s.wireAcks := rfl
@[simp] theorem State.setAtoll_wireWakes (s : State) (k : Nat) (v : Atoll) : (s.setAtoll k v).wireWakes = s.wireWakes := rfl
@[simp] theorem State.updAtoll_wireWakes (s : State) (k : Nat) (g : Atoll → Atoll) : (s.updAtoll k g).wireWakes = s.wireWakes := rfl
@[simp] theorem State.setAtoll_snap (s : State) (k : Nat) (v : Atoll) : (s.setAtoll k v).snap = s.snap := rfl
@[simp] theorem State.updAtoll_snap (s : State) (k : Nat) (g : Atoll → Atoll) : (s.updAtoll k g).snap = s.snap := rfl
@[simp] theorem State.setAtoll_restore (s : State) (k : Nat) (v : Atoll) : (s.setAtoll k v).restore = s.restore := rfl
@[simp] theorem State.updAtoll_restore (s : State) (k : Nat) (g : Atoll → Atoll) : (s.updAtoll k g).restore = s.restore := rfl
@[simp] theorem State.setAtoll_board (s : State) (k : Nat) (v : Atoll) : (s.setAtoll k v).board = s.board := rfl
@[simp] theorem State.updAtoll_board (s : State) (k : Nat) (g : Atoll → Atoll) : (s.updAtoll k g).board = s.board := rfl
@[simp] theorem State.setAtoll_free (s : State) (k : Nat) (v : Atoll) : (s.setAtoll k v).free = s.free := rfl
@[simp] theorem State.updAtoll_free (s : State) (k : Nat) (g : Atoll → Atoll) : (s.updAtoll k g).free = s.free := rfl
@[simp] theorem State.setAtoll_pending (s : State) (k : Nat) (v : Atoll) : (s.setAtoll k v).pending = s.pending := rfl
@[simp] theorem State.updAtoll_pending (s : State) (k : Nat) (g : Atoll → Atoll) : (s.updAtoll k g).pending = s.pending := rfl
@[simp] theorem State.atoll_setAtoll_same (s : State) (k : Nat) (v : Atoll) : (s.setAtoll k v).atoll k = v := SMap.get_set_same ..
theorem State.atoll_setAtoll_other (s : State) {k j : Nat} (h : j ≠ k) (v : Atoll) : (s.setAtoll k v).atoll j = s.atoll j :=
  SMap.get_set_other _ _ h _
@[simp] theorem State.atoll_updAtoll_same (s : State) (k : Nat) (g : Atoll → Atoll) : (s.updAtoll k g).atoll k = g (s.atoll k) := SMap.get_set_same ..
theorem State.atoll_updAtoll_other (s : State) {k j : Nat} (h : j ≠ k) (g : Atoll → Atoll) : (s.updAtoll k g).atoll j = s.atoll j :=
  SMap.get_set_other _ _ h _
@[simp] theorem State.core_setAtoll (s : State) (k j : Nat) (v : Atoll) : (s.setAtoll k v).core j = s.core j := rfl
@[simp] theorem State.core_updAtoll (s : State) (k j : Nat) (g : Atoll → Atoll) : (s.updAtoll k g).core j = s.core j := rfl
@[simp] theorem State.die_setAtoll (s : State) (k j : Nat) (v : Atoll) : (s.setAtoll k v).die j = s.die j := rfl
@[simp] theorem State.die_updAtoll (s : State) (k j : Nat) (g : Atoll → Atoll) : (s.updAtoll k g).die j = s.die j := rfl
@[simp] theorem State.port_setAtoll (s : State) (k j : Nat) (v : Atoll) : (s.setAtoll k v).port j = s.port j := rfl
@[simp] theorem State.port_updAtoll (s : State) (k j : Nat) (g : Atoll → Atoll) : (s.updAtoll k g).port j = s.port j := rfl
@[simp] theorem State.punit_setAtoll (s : State) (k j : Nat) (v : Atoll) : (s.setAtoll k v).punit j = s.punit j := rfl
@[simp] theorem State.punit_updAtoll (s : State) (k j : Nat) (g : Atoll → Atoll) : (s.updAtoll k g).punit j = s.punit j := rfl
@[simp] theorem State.recorder_setAtoll (s : State) (k j : Nat) (v : Atoll) : (s.setAtoll k v).recorder j = s.recorder j := rfl
@[simp] theorem State.recorder_updAtoll (s : State) (k j : Nat) (g : Atoll → Atoll) : (s.updAtoll k g).recorder j = s.recorder j := rfl

/-! ### Die -/

@[simp] theorem State.setDie_cores (s : State) (k : Nat) (v : Die) : (s.setDie k v).cores = s.cores := rfl
@[simp] theorem State.updDie_cores (s : State) (k : Nat) (g : Die → Die) : (s.updDie k g).cores = s.cores := rfl
@[simp] theorem State.setDie_atolls (s : State) (k : Nat) (v : Die) : (s.setDie k v).atolls = s.atolls := rfl
@[simp] theorem State.updDie_atolls (s : State) (k : Nat) (g : Die → Die) : (s.updDie k g).atolls = s.atolls := rfl
@[simp] theorem State.setDie_ports (s : State) (k : Nat) (v : Die) : (s.setDie k v).ports = s.ports := rfl
@[simp] theorem State.updDie_ports (s : State) (k : Nat) (g : Die → Die) : (s.updDie k g).ports = s.ports := rfl
@[simp] theorem State.setDie_punits (s : State) (k : Nat) (v : Die) : (s.setDie k v).punits = s.punits := rfl
@[simp] theorem State.updDie_punits (s : State) (k : Nat) (g : Die → Die) : (s.updDie k g).punits = s.punits := rfl
@[simp] theorem State.setDie_recs (s : State) (k : Nat) (v : Die) : (s.setDie k v).recs = s.recs := rfl
@[simp] theorem State.updDie_recs (s : State) (k : Nat) (g : Die → Die) : (s.updDie k g).recs = s.recs := rfl
@[simp] theorem State.setDie_dets (s : State) (k : Nat) (v : Die) : (s.setDie k v).dets = s.dets := rfl
@[simp] theorem State.updDie_dets (s : State) (k : Nat) (g : Die → Die) : (s.updDie k g).dets = s.dets := rfl
@[simp] theorem State.setDie_armed (s : State) (k : Nat) (v : Die) : (s.setDie k v).armed = s.armed := rfl
@[simp] theorem State.updDie_armed (s : State) (k : Nat) (g : Die → Die) : (s.updDie k g).armed = s.armed := rfl
@[simp] theorem State.setDie_dram (s : State) (k : Nat) (v : Die) : (s.setDie k v).dram = s.dram := rfl
@[simp] theorem State.updDie_dram (s : State) (k : Nat) (g : Die → Die) : (s.updDie k g).dram = s.dram := rfl
@[simp] theorem State.setDie_wireMsgs (s : State) (k : Nat) (v : Die) : (s.setDie k v).wireMsgs = s.wireMsgs := rfl
@[simp] theorem State.updDie_wireMsgs (s : State) (k : Nat) (g : Die → Die) : (s.updDie k g).wireMsgs = s.wireMsgs := rfl
@[simp] theorem State.setDie_wireAcks (s : State) (k : Nat) (v : Die) : (s.setDie k v).wireAcks = s.wireAcks := rfl
@[simp] theorem State.updDie_wireAcks (s : State) (k : Nat) (g : Die → Die) : (s.updDie k g).wireAcks = s.wireAcks := rfl
@[simp] theorem State.setDie_wireWakes (s : State) (k : Nat) (v : Die) : (s.setDie k v).wireWakes = s.wireWakes := rfl
@[simp] theorem State.updDie_wireWakes (s : State) (k : Nat) (g : Die → Die) : (s.updDie k g).wireWakes = s.wireWakes := rfl
@[simp] theorem State.setDie_snap (s : State) (k : Nat) (v : Die) : (s.setDie k v).snap = s.snap := rfl
@[simp] theorem State.updDie_snap (s : State) (k : Nat) (g : Die → Die) : (s.updDie k g).snap = s.snap := rfl
@[simp] theorem State.setDie_restore (s : State) (k : Nat) (v : Die) : (s.setDie k v).restore = s.restore := rfl
@[simp] theorem State.updDie_restore (s : State) (k : Nat) (g : Die → Die) : (s.updDie k g).restore = s.restore := rfl
@[simp] theorem State.setDie_board (s : State) (k : Nat) (v : Die) : (s.setDie k v).board = s.board := rfl
@[simp] theorem State.updDie_board (s : State) (k : Nat) (g : Die → Die) : (s.updDie k g).board = s.board := rfl
@[simp] theorem State.setDie_free (s : State) (k : Nat) (v : Die) : (s.setDie k v).free = s.free := rfl
@[simp] theorem State.updDie_free (s : State) (k : Nat) (g : Die → Die) : (s.updDie k g).free = s.free := rfl
@[simp] theorem State.setDie_pending (s : State) (k : Nat) (v : Die) : (s.setDie k v).pending = s.pending := rfl
@[simp] theorem State.updDie_pending (s : State) (k : Nat) (g : Die → Die) : (s.updDie k g).pending = s.pending := rfl
@[simp] theorem State.die_setDie_same (s : State) (k : Nat) (v : Die) : (s.setDie k v).die k = v := SMap.get_set_same ..
theorem State.die_setDie_other (s : State) {k j : Nat} (h : j ≠ k) (v : Die) : (s.setDie k v).die j = s.die j :=
  SMap.get_set_other _ _ h _
@[simp] theorem State.die_updDie_same (s : State) (k : Nat) (g : Die → Die) : (s.updDie k g).die k = g (s.die k) := SMap.get_set_same ..
theorem State.die_updDie_other (s : State) {k j : Nat} (h : j ≠ k) (g : Die → Die) : (s.updDie k g).die j = s.die j :=
  SMap.get_set_other _ _ h _
@[simp] theorem State.core_setDie (s : State) (k j : Nat) (v : Die) : (s.setDie k v).core j = s.core j := rfl
@[simp] theorem State.core_updDie (s : State) (k j : Nat) (g : Die → Die) : (s.updDie k g).core j = s.core j := rfl
@[simp] theorem State.atoll_setDie (s : State) (k j : Nat) (v : Die) : (s.setDie k v).atoll j = s.atoll j := rfl
@[simp] theorem State.atoll_updDie (s : State) (k j : Nat) (g : Die → Die) : (s.updDie k g).atoll j = s.atoll j := rfl
@[simp] theorem State.port_setDie (s : State) (k j : Nat) (v : Die) : (s.setDie k v).port j = s.port j := rfl
@[simp] theorem State.port_updDie (s : State) (k j : Nat) (g : Die → Die) : (s.updDie k g).port j = s.port j := rfl
@[simp] theorem State.punit_setDie (s : State) (k j : Nat) (v : Die) : (s.setDie k v).punit j = s.punit j := rfl
@[simp] theorem State.punit_updDie (s : State) (k j : Nat) (g : Die → Die) : (s.updDie k g).punit j = s.punit j := rfl
@[simp] theorem State.recorder_setDie (s : State) (k j : Nat) (v : Die) : (s.setDie k v).recorder j = s.recorder j := rfl
@[simp] theorem State.recorder_updDie (s : State) (k j : Nat) (g : Die → Die) : (s.updDie k g).recorder j = s.recorder j := rfl

/-! ### Port -/

@[simp] theorem State.setPort_cores (s : State) (k : Nat) (v : Port) : (s.setPort k v).cores = s.cores := rfl
@[simp] theorem State.updPort_cores (s : State) (k : Nat) (g : Port → Port) : (s.updPort k g).cores = s.cores := rfl
@[simp] theorem State.setPort_atolls (s : State) (k : Nat) (v : Port) : (s.setPort k v).atolls = s.atolls := rfl
@[simp] theorem State.updPort_atolls (s : State) (k : Nat) (g : Port → Port) : (s.updPort k g).atolls = s.atolls := rfl
@[simp] theorem State.setPort_dies (s : State) (k : Nat) (v : Port) : (s.setPort k v).dies = s.dies := rfl
@[simp] theorem State.updPort_dies (s : State) (k : Nat) (g : Port → Port) : (s.updPort k g).dies = s.dies := rfl
@[simp] theorem State.setPort_punits (s : State) (k : Nat) (v : Port) : (s.setPort k v).punits = s.punits := rfl
@[simp] theorem State.updPort_punits (s : State) (k : Nat) (g : Port → Port) : (s.updPort k g).punits = s.punits := rfl
@[simp] theorem State.setPort_recs (s : State) (k : Nat) (v : Port) : (s.setPort k v).recs = s.recs := rfl
@[simp] theorem State.updPort_recs (s : State) (k : Nat) (g : Port → Port) : (s.updPort k g).recs = s.recs := rfl
@[simp] theorem State.setPort_dets (s : State) (k : Nat) (v : Port) : (s.setPort k v).dets = s.dets := rfl
@[simp] theorem State.updPort_dets (s : State) (k : Nat) (g : Port → Port) : (s.updPort k g).dets = s.dets := rfl
@[simp] theorem State.setPort_armed (s : State) (k : Nat) (v : Port) : (s.setPort k v).armed = s.armed := rfl
@[simp] theorem State.updPort_armed (s : State) (k : Nat) (g : Port → Port) : (s.updPort k g).armed = s.armed := rfl
@[simp] theorem State.setPort_dram (s : State) (k : Nat) (v : Port) : (s.setPort k v).dram = s.dram := rfl
@[simp] theorem State.updPort_dram (s : State) (k : Nat) (g : Port → Port) : (s.updPort k g).dram = s.dram := rfl
@[simp] theorem State.setPort_wireMsgs (s : State) (k : Nat) (v : Port) : (s.setPort k v).wireMsgs = s.wireMsgs := rfl
@[simp] theorem State.updPort_wireMsgs (s : State) (k : Nat) (g : Port → Port) : (s.updPort k g).wireMsgs = s.wireMsgs := rfl
@[simp] theorem State.setPort_wireAcks (s : State) (k : Nat) (v : Port) : (s.setPort k v).wireAcks = s.wireAcks := rfl
@[simp] theorem State.updPort_wireAcks (s : State) (k : Nat) (g : Port → Port) : (s.updPort k g).wireAcks = s.wireAcks := rfl
@[simp] theorem State.setPort_wireWakes (s : State) (k : Nat) (v : Port) : (s.setPort k v).wireWakes = s.wireWakes := rfl
@[simp] theorem State.updPort_wireWakes (s : State) (k : Nat) (g : Port → Port) : (s.updPort k g).wireWakes = s.wireWakes := rfl
@[simp] theorem State.setPort_snap (s : State) (k : Nat) (v : Port) : (s.setPort k v).snap = s.snap := rfl
@[simp] theorem State.updPort_snap (s : State) (k : Nat) (g : Port → Port) : (s.updPort k g).snap = s.snap := rfl
@[simp] theorem State.setPort_restore (s : State) (k : Nat) (v : Port) : (s.setPort k v).restore = s.restore := rfl
@[simp] theorem State.updPort_restore (s : State) (k : Nat) (g : Port → Port) : (s.updPort k g).restore = s.restore := rfl
@[simp] theorem State.setPort_board (s : State) (k : Nat) (v : Port) : (s.setPort k v).board = s.board := rfl
@[simp] theorem State.updPort_board (s : State) (k : Nat) (g : Port → Port) : (s.updPort k g).board = s.board := rfl
@[simp] theorem State.setPort_free (s : State) (k : Nat) (v : Port) : (s.setPort k v).free = s.free := rfl
@[simp] theorem State.updPort_free (s : State) (k : Nat) (g : Port → Port) : (s.updPort k g).free = s.free := rfl
@[simp] theorem State.setPort_pending (s : State) (k : Nat) (v : Port) : (s.setPort k v).pending = s.pending := rfl
@[simp] theorem State.updPort_pending (s : State) (k : Nat) (g : Port → Port) : (s.updPort k g).pending = s.pending := rfl
@[simp] theorem State.port_setPort_same (s : State) (k : Nat) (v : Port) : (s.setPort k v).port k = v := SMap.get_set_same ..
theorem State.port_setPort_other (s : State) {k j : Nat} (h : j ≠ k) (v : Port) : (s.setPort k v).port j = s.port j :=
  SMap.get_set_other _ _ h _
@[simp] theorem State.port_updPort_same (s : State) (k : Nat) (g : Port → Port) : (s.updPort k g).port k = g (s.port k) := SMap.get_set_same ..
theorem State.port_updPort_other (s : State) {k j : Nat} (h : j ≠ k) (g : Port → Port) : (s.updPort k g).port j = s.port j :=
  SMap.get_set_other _ _ h _
@[simp] theorem State.core_setPort (s : State) (k j : Nat) (v : Port) : (s.setPort k v).core j = s.core j := rfl
@[simp] theorem State.core_updPort (s : State) (k j : Nat) (g : Port → Port) : (s.updPort k g).core j = s.core j := rfl
@[simp] theorem State.atoll_setPort (s : State) (k j : Nat) (v : Port) : (s.setPort k v).atoll j = s.atoll j := rfl
@[simp] theorem State.atoll_updPort (s : State) (k j : Nat) (g : Port → Port) : (s.updPort k g).atoll j = s.atoll j := rfl
@[simp] theorem State.die_setPort (s : State) (k j : Nat) (v : Port) : (s.setPort k v).die j = s.die j := rfl
@[simp] theorem State.die_updPort (s : State) (k j : Nat) (g : Port → Port) : (s.updPort k g).die j = s.die j := rfl
@[simp] theorem State.punit_setPort (s : State) (k j : Nat) (v : Port) : (s.setPort k v).punit j = s.punit j := rfl
@[simp] theorem State.punit_updPort (s : State) (k j : Nat) (g : Port → Port) : (s.updPort k g).punit j = s.punit j := rfl
@[simp] theorem State.recorder_setPort (s : State) (k j : Nat) (v : Port) : (s.setPort k v).recorder j = s.recorder j := rfl
@[simp] theorem State.recorder_updPort (s : State) (k j : Nat) (g : Port → Port) : (s.updPort k g).recorder j = s.recorder j := rfl

/-! ### PUnit -/

@[simp] theorem State.setPunit_cores (s : State) (k : Nat) (v : PUnit) : (s.setPunit k v).cores = s.cores := rfl
@[simp] theorem State.updPunit_cores (s : State) (k : Nat) (g : PUnit → PUnit) : (s.updPunit k g).cores = s.cores := rfl
@[simp] theorem State.setPunit_atolls (s : State) (k : Nat) (v : PUnit) : (s.setPunit k v).atolls = s.atolls := rfl
@[simp] theorem State.updPunit_atolls (s : State) (k : Nat) (g : PUnit → PUnit) : (s.updPunit k g).atolls = s.atolls := rfl
@[simp] theorem State.setPunit_dies (s : State) (k : Nat) (v : PUnit) : (s.setPunit k v).dies = s.dies := rfl
@[simp] theorem State.updPunit_dies (s : State) (k : Nat) (g : PUnit → PUnit) : (s.updPunit k g).dies = s.dies := rfl
@[simp] theorem State.setPunit_ports (s : State) (k : Nat) (v : PUnit) : (s.setPunit k v).ports = s.ports := rfl
@[simp] theorem State.updPunit_ports (s : State) (k : Nat) (g : PUnit → PUnit) : (s.updPunit k g).ports = s.ports := rfl
@[simp] theorem State.setPunit_recs (s : State) (k : Nat) (v : PUnit) : (s.setPunit k v).recs = s.recs := rfl
@[simp] theorem State.updPunit_recs (s : State) (k : Nat) (g : PUnit → PUnit) : (s.updPunit k g).recs = s.recs := rfl
@[simp] theorem State.setPunit_dets (s : State) (k : Nat) (v : PUnit) : (s.setPunit k v).dets = s.dets := rfl
@[simp] theorem State.updPunit_dets (s : State) (k : Nat) (g : PUnit → PUnit) : (s.updPunit k g).dets = s.dets := rfl
@[simp] theorem State.setPunit_armed (s : State) (k : Nat) (v : PUnit) : (s.setPunit k v).armed = s.armed := rfl
@[simp] theorem State.updPunit_armed (s : State) (k : Nat) (g : PUnit → PUnit) : (s.updPunit k g).armed = s.armed := rfl
@[simp] theorem State.setPunit_dram (s : State) (k : Nat) (v : PUnit) : (s.setPunit k v).dram = s.dram := rfl
@[simp] theorem State.updPunit_dram (s : State) (k : Nat) (g : PUnit → PUnit) : (s.updPunit k g).dram = s.dram := rfl
@[simp] theorem State.setPunit_wireMsgs (s : State) (k : Nat) (v : PUnit) : (s.setPunit k v).wireMsgs = s.wireMsgs := rfl
@[simp] theorem State.updPunit_wireMsgs (s : State) (k : Nat) (g : PUnit → PUnit) : (s.updPunit k g).wireMsgs = s.wireMsgs := rfl
@[simp] theorem State.setPunit_wireAcks (s : State) (k : Nat) (v : PUnit) : (s.setPunit k v).wireAcks = s.wireAcks := rfl
@[simp] theorem State.updPunit_wireAcks (s : State) (k : Nat) (g : PUnit → PUnit) : (s.updPunit k g).wireAcks = s.wireAcks := rfl
@[simp] theorem State.setPunit_wireWakes (s : State) (k : Nat) (v : PUnit) : (s.setPunit k v).wireWakes = s.wireWakes := rfl
@[simp] theorem State.updPunit_wireWakes (s : State) (k : Nat) (g : PUnit → PUnit) : (s.updPunit k g).wireWakes = s.wireWakes := rfl
@[simp] theorem State.setPunit_snap (s : State) (k : Nat) (v : PUnit) : (s.setPunit k v).snap = s.snap := rfl
@[simp] theorem State.updPunit_snap (s : State) (k : Nat) (g : PUnit → PUnit) : (s.updPunit k g).snap = s.snap := rfl
@[simp] theorem State.setPunit_restore (s : State) (k : Nat) (v : PUnit) : (s.setPunit k v).restore = s.restore := rfl
@[simp] theorem State.updPunit_restore (s : State) (k : Nat) (g : PUnit → PUnit) : (s.updPunit k g).restore = s.restore := rfl
@[simp] theorem State.setPunit_board (s : State) (k : Nat) (v : PUnit) : (s.setPunit k v).board = s.board := rfl
@[simp] theorem State.updPunit_board (s : State) (k : Nat) (g : PUnit → PUnit) : (s.updPunit k g).board = s.board := rfl
@[simp] theorem State.setPunit_free (s : State) (k : Nat) (v : PUnit) : (s.setPunit k v).free = s.free := rfl
@[simp] theorem State.updPunit_free (s : State) (k : Nat) (g : PUnit → PUnit) : (s.updPunit k g).free = s.free := rfl
@[simp] theorem State.setPunit_pending (s : State) (k : Nat) (v : PUnit) : (s.setPunit k v).pending = s.pending := rfl
@[simp] theorem State.updPunit_pending (s : State) (k : Nat) (g : PUnit → PUnit) : (s.updPunit k g).pending = s.pending := rfl
@[simp] theorem State.punit_setPunit_same (s : State) (k : Nat) (v : PUnit) : (s.setPunit k v).punit k = v := SMap.get_set_same ..
theorem State.punit_setPunit_other (s : State) {k j : Nat} (h : j ≠ k) (v : PUnit) : (s.setPunit k v).punit j = s.punit j :=
  SMap.get_set_other _ _ h _
@[simp] theorem State.punit_updPunit_same (s : State) (k : Nat) (g : PUnit → PUnit) : (s.updPunit k g).punit k = g (s.punit k) := SMap.get_set_same ..
theorem State.punit_updPunit_other (s : State) {k j : Nat} (h : j ≠ k) (g : PUnit → PUnit) : (s.updPunit k g).punit j = s.punit j :=
  SMap.get_set_other _ _ h _
@[simp] theorem State.core_setPunit (s : State) (k j : Nat) (v : PUnit) : (s.setPunit k v).core j = s.core j := rfl
@[simp] theorem State.core_updPunit (s : State) (k j : Nat) (g : PUnit → PUnit) : (s.updPunit k g).core j = s.core j := rfl
@[simp] theorem State.atoll_setPunit (s : State) (k j : Nat) (v : PUnit) : (s.setPunit k v).atoll j = s.atoll j := rfl
@[simp] theorem State.atoll_updPunit (s : State) (k j : Nat) (g : PUnit → PUnit) : (s.updPunit k g).atoll j = s.atoll j := rfl
@[simp] theorem State.die_setPunit (s : State) (k j : Nat) (v : PUnit) : (s.setPunit k v).die j = s.die j := rfl
@[simp] theorem State.die_updPunit (s : State) (k j : Nat) (g : PUnit → PUnit) : (s.updPunit k g).die j = s.die j := rfl
@[simp] theorem State.port_setPunit (s : State) (k j : Nat) (v : PUnit) : (s.setPunit k v).port j = s.port j := rfl
@[simp] theorem State.port_updPunit (s : State) (k j : Nat) (g : PUnit → PUnit) : (s.updPunit k g).port j = s.port j := rfl
@[simp] theorem State.recorder_setPunit (s : State) (k j : Nat) (v : PUnit) : (s.setPunit k v).recorder j = s.recorder j := rfl
@[simp] theorem State.recorder_updPunit (s : State) (k j : Nat) (g : PUnit → PUnit) : (s.updPunit k g).recorder j = s.recorder j := rfl

/-! ### Recorder -/

@[simp] theorem State.setRec_cores (s : State) (k : Nat) (v : Recorder) : (s.setRec k v).cores = s.cores := rfl
@[simp] theorem State.updRec_cores (s : State) (k : Nat) (g : Recorder → Recorder) : (s.updRec k g).cores = s.cores := rfl
@[simp] theorem State.setRec_atolls (s : State) (k : Nat) (v : Recorder) : (s.setRec k v).atolls = s.atolls := rfl
@[simp] theorem State.updRec_atolls (s : State) (k : Nat) (g : Recorder → Recorder) : (s.updRec k g).atolls = s.atolls := rfl
@[simp] theorem State.setRec_dies (s : State) (k : Nat) (v : Recorder) : (s.setRec k v).dies = s.dies := rfl
@[simp] theorem State.updRec_dies (s : State) (k : Nat) (g : Recorder → Recorder) : (s.updRec k g).dies = s.dies := rfl
@[simp] theorem State.setRec_ports (s : State) (k : Nat) (v : Recorder) : (s.setRec k v).ports = s.ports := rfl
@[simp] theorem State.updRec_ports (s : State) (k : Nat) (g : Recorder → Recorder) : (s.updRec k g).ports = s.ports := rfl
@[simp] theorem State.setRec_punits (s : State) (k : Nat) (v : Recorder) : (s.setRec k v).punits = s.punits := rfl
@[simp] theorem State.updRec_punits (s : State) (k : Nat) (g : Recorder → Recorder) : (s.updRec k g).punits = s.punits := rfl
@[simp] theorem State.setRec_dets (s : State) (k : Nat) (v : Recorder) : (s.setRec k v).dets = s.dets := rfl
@[simp] theorem State.updRec_dets (s : State) (k : Nat) (g : Recorder → Recorder) : (s.updRec k g).dets = s.dets := rfl
@[simp] theorem State.setRec_armed (s : State) (k : Nat) (v : Recorder) : (s.setRec k v).armed = s.armed := rfl
@[simp] theorem State.updRec_armed (s : State) (k : Nat) (g : Recorder → Recorder) : (s.updRec k g).armed = s.armed := rfl
@[simp] theorem State.setRec_dram (s : State) (k : Nat) (v : Recorder) : (s.setRec k v).dram = s.dram := rfl
@[simp] theorem State.updRec_dram (s : State) (k : Nat) (g : Recorder → Recorder) : (s.updRec k g).dram = s.dram := rfl
@[simp] theorem State.setRec_wireMsgs (s : State) (k : Nat) (v : Recorder) : (s.setRec k v).wireMsgs = s.wireMsgs := rfl
@[simp] theorem State.updRec_wireMsgs (s : State) (k : Nat) (g : Recorder → Recorder) : (s.updRec k g).wireMsgs = s.wireMsgs := rfl
@[simp] theorem State.setRec_wireAcks (s : State) (k : Nat) (v : Recorder) : (s.setRec k v).wireAcks = s.wireAcks := rfl
@[simp] theorem State.updRec_wireAcks (s : State) (k : Nat) (g : Recorder → Recorder) : (s.updRec k g).wireAcks = s.wireAcks := rfl
@[simp] theorem State.setRec_wireWakes (s : State) (k : Nat) (v : Recorder) : (s.setRec k v).wireWakes = s.wireWakes := rfl
@[simp] theorem State.updRec_wireWakes (s : State) (k : Nat) (g : Recorder → Recorder) : (s.updRec k g).wireWakes = s.wireWakes := rfl
@[simp] theorem State.setRec_snap (s : State) (k : Nat) (v : Recorder) : (s.setRec k v).snap = s.snap := rfl
@[simp] theorem State.updRec_snap (s : State) (k : Nat) (g : Recorder → Recorder) : (s.updRec k g).snap = s.snap := rfl
@[simp] theorem State.setRec_restore (s : State) (k : Nat) (v : Recorder) : (s.setRec k v).restore = s.restore := rfl
@[simp] theorem State.updRec_restore (s : State) (k : Nat) (g : Recorder → Recorder) : (s.updRec k g).restore = s.restore := rfl
@[simp] theorem State.setRec_board (s : State) (k : Nat) (v : Recorder) : (s.setRec k v).board = s.board := rfl
@[simp] theorem State.updRec_board (s : State) (k : Nat) (g : Recorder → Recorder) : (s.updRec k g).board = s.board := rfl
@[simp] theorem State.setRec_free (s : State) (k : Nat) (v : Recorder) : (s.setRec k v).free = s.free := rfl
@[simp] theorem State.updRec_free (s : State) (k : Nat) (g : Recorder → Recorder) : (s.updRec k g).free = s.free := rfl
@[simp] theorem State.setRec_pending (s : State) (k : Nat) (v : Recorder) : (s.setRec k v).pending = s.pending := rfl
@[simp] theorem State.updRec_pending (s : State) (k : Nat) (g : Recorder → Recorder) : (s.updRec k g).pending = s.pending := rfl
@[simp] theorem State.recorder_setRec_same (s : State) (k : Nat) (v : Recorder) : (s.setRec k v).recorder k = v := SMap.get_set_same ..
theorem State.recorder_setRec_other (s : State) {k j : Nat} (h : j ≠ k) (v : Recorder) : (s.setRec k v).recorder j = s.recorder j :=
  SMap.get_set_other _ _ h _
@[simp] theorem State.recorder_updRec_same (s : State) (k : Nat) (g : Recorder → Recorder) : (s.updRec k g).recorder k = g (s.recorder k) := SMap.get_set_same ..
theorem State.recorder_updRec_other (s : State) {k j : Nat} (h : j ≠ k) (g : Recorder → Recorder) : (s.updRec k g).recorder j = s.recorder j :=
  SMap.get_set_other _ _ h _
@[simp] theorem State.core_setRec (s : State) (k j : Nat) (v : Recorder) : (s.setRec k v).core j = s.core j := rfl
@[simp] theorem State.core_updRec (s : State) (k j : Nat) (g : Recorder → Recorder) : (s.updRec k g).core j = s.core j := rfl
@[simp] theorem State.atoll_setRec (s : State) (k j : Nat) (v : Recorder) : (s.setRec k v).atoll j = s.atoll j := rfl
@[simp] theorem State.atoll_updRec (s : State) (k j : Nat) (g : Recorder → Recorder) : (s.updRec k g).atoll j = s.atoll j := rfl
@[simp] theorem State.die_setRec (s : State) (k j : Nat) (v : Recorder) : (s.setRec k v).die j = s.die j := rfl
@[simp] theorem State.die_updRec (s : State) (k j : Nat) (g : Recorder → Recorder) : (s.updRec k g).die j = s.die j := rfl
@[simp] theorem State.port_setRec (s : State) (k j : Nat) (v : Recorder) : (s.setRec k v).port j = s.port j := rfl
@[simp] theorem State.port_updRec (s : State) (k j : Nat) (g : Recorder → Recorder) : (s.updRec k g).port j = s.port j := rfl
@[simp] theorem State.punit_setRec (s : State) (k j : Nat) (v : Recorder) : (s.setRec k v).punit j = s.punit j := rfl
@[simp] theorem State.punit_updRec (s : State) (k j : Nat) (g : Recorder → Recorder) : (s.updRec k g).punit j = s.punit j := rfl

/-! ### The board and the snapshot -/

@[simp] theorem State.updBoard_cores (s : State) (g : Board → Board) : (s.updBoard g).cores = s.cores := rfl
@[simp] theorem State.updBoard_atolls (s : State) (g : Board → Board) : (s.updBoard g).atolls = s.atolls := rfl
@[simp] theorem State.updBoard_dies (s : State) (g : Board → Board) : (s.updBoard g).dies = s.dies := rfl
@[simp] theorem State.updBoard_ports (s : State) (g : Board → Board) : (s.updBoard g).ports = s.ports := rfl
@[simp] theorem State.updBoard_punits (s : State) (g : Board → Board) : (s.updBoard g).punits = s.punits := rfl
@[simp] theorem State.updBoard_recs (s : State) (g : Board → Board) : (s.updBoard g).recs = s.recs := rfl
@[simp] theorem State.updBoard_dets (s : State) (g : Board → Board) : (s.updBoard g).dets = s.dets := rfl
@[simp] theorem State.updBoard_armed (s : State) (g : Board → Board) : (s.updBoard g).armed = s.armed := rfl
@[simp] theorem State.updBoard_dram (s : State) (g : Board → Board) : (s.updBoard g).dram = s.dram := rfl
@[simp] theorem State.updBoard_wireMsgs (s : State) (g : Board → Board) : (s.updBoard g).wireMsgs = s.wireMsgs := rfl
@[simp] theorem State.updBoard_wireAcks (s : State) (g : Board → Board) : (s.updBoard g).wireAcks = s.wireAcks := rfl
@[simp] theorem State.updBoard_wireWakes (s : State) (g : Board → Board) : (s.updBoard g).wireWakes = s.wireWakes := rfl
@[simp] theorem State.updBoard_snap (s : State) (g : Board → Board) : (s.updBoard g).snap = s.snap := rfl
@[simp] theorem State.updBoard_restore (s : State) (g : Board → Board) : (s.updBoard g).restore = s.restore := rfl
@[simp] theorem State.updBoard_board (s : State) (g : Board → Board) : (s.updBoard g).board = g s.board := rfl
@[simp] theorem State.updBoard_free (s : State) (g : Board → Board) : (s.updBoard g).free = s.free := rfl
@[simp] theorem State.updBoard_pending (s : State) (g : Board → Board) : (s.updBoard g).pending = s.pending := rfl
@[simp] theorem State.core_updBoard (s : State) (j : Nat) (g : Board → Board) : (s.updBoard g).core j = s.core j := rfl
@[simp] theorem State.atoll_updBoard (s : State) (j : Nat) (g : Board → Board) : (s.updBoard g).atoll j = s.atoll j := rfl
@[simp] theorem State.die_updBoard (s : State) (j : Nat) (g : Board → Board) : (s.updBoard g).die j = s.die j := rfl
@[simp] theorem State.port_updBoard (s : State) (j : Nat) (g : Board → Board) : (s.updBoard g).port j = s.port j := rfl
@[simp] theorem State.punit_updBoard (s : State) (j : Nat) (g : Board → Board) : (s.updBoard g).punit j = s.punit j := rfl
@[simp] theorem State.recorder_updBoard (s : State) (j : Nat) (g : Board → Board) : (s.updBoard g).recorder j = s.recorder j := rfl
@[simp] theorem State.updSnap_cores (s : State) (g : Snap → Snap) : (s.updSnap g).cores = s.cores := rfl
@[simp] theorem State.updSnap_atolls (s : State) (g : Snap → Snap) : (s.updSnap g).atolls = s.atolls := rfl
@[simp] theorem State.updSnap_dies (s : State) (g : Snap → Snap) : (s.updSnap g).dies = s.dies := rfl
@[simp] theorem State.updSnap_ports (s : State) (g : Snap → Snap) : (s.updSnap g).ports = s.ports := rfl
@[simp] theorem State.updSnap_punits (s : State) (g : Snap → Snap) : (s.updSnap g).punits = s.punits := rfl
@[simp] theorem State.updSnap_recs (s : State) (g : Snap → Snap) : (s.updSnap g).recs = s.recs := rfl
@[simp] theorem State.updSnap_dets (s : State) (g : Snap → Snap) : (s.updSnap g).dets = s.dets := rfl
@[simp] theorem State.updSnap_armed (s : State) (g : Snap → Snap) : (s.updSnap g).armed = s.armed := rfl
@[simp] theorem State.updSnap_dram (s : State) (g : Snap → Snap) : (s.updSnap g).dram = s.dram := rfl
@[simp] theorem State.updSnap_wireMsgs (s : State) (g : Snap → Snap) : (s.updSnap g).wireMsgs = s.wireMsgs := rfl
@[simp] theorem State.updSnap_wireAcks (s : State) (g : Snap → Snap) : (s.updSnap g).wireAcks = s.wireAcks := rfl
@[simp] theorem State.updSnap_wireWakes (s : State) (g : Snap → Snap) : (s.updSnap g).wireWakes = s.wireWakes := rfl
@[simp] theorem State.updSnap_snap (s : State) (g : Snap → Snap) : (s.updSnap g).snap = g s.snap := rfl
@[simp] theorem State.updSnap_restore (s : State) (g : Snap → Snap) : (s.updSnap g).restore = s.restore := rfl
@[simp] theorem State.updSnap_board (s : State) (g : Snap → Snap) : (s.updSnap g).board = s.board := rfl
@[simp] theorem State.updSnap_free (s : State) (g : Snap → Snap) : (s.updSnap g).free = s.free := rfl
@[simp] theorem State.updSnap_pending (s : State) (g : Snap → Snap) : (s.updSnap g).pending = s.pending := rfl
@[simp] theorem State.core_updSnap (s : State) (j : Nat) (g : Snap → Snap) : (s.updSnap g).core j = s.core j := rfl
@[simp] theorem State.atoll_updSnap (s : State) (j : Nat) (g : Snap → Snap) : (s.updSnap g).atoll j = s.atoll j := rfl
@[simp] theorem State.die_updSnap (s : State) (j : Nat) (g : Snap → Snap) : (s.updSnap g).die j = s.die j := rfl
@[simp] theorem State.port_updSnap (s : State) (j : Nat) (g : Snap → Snap) : (s.updSnap g).port j = s.port j := rfl
@[simp] theorem State.punit_updSnap (s : State) (j : Nat) (g : Snap → Snap) : (s.updSnap g).punit j = s.punit j := rfl
@[simp] theorem State.recorder_updSnap (s : State) (j : Nat) (g : Snap → Snap) : (s.updSnap g).recorder j = s.recorder j := rfl

/-! ### Registers of a core -/

@[simp] theorem Core.wf_x (c : Core) (r : Reg) (v : W32) : (c.wf r v).x = c.x := rfl
@[simp] theorem Core.setSr_x (c : Core) (n : Nat) (v : W64) : (c.setSr n v).x = c.x := rfl
@[simp] theorem Core.setMail_x (c : Core) (m : Nat) (l : List Msg) : (c.setMail m l).x = c.x := rfl
@[simp] theorem Core.setL1_x (c : Core) (n : Nat) (l : L1Line) : (c.setL1 n l).x = c.x := rfl
@[simp] theorem Core.setDescWord_x (c : Core) (k i : Nat) (v : W64) : (c.setDescWord k i v).x = c.x := rfl
@[simp] theorem Core.endLoop_x (c : Core) (lv : Nat) : (c.endLoop lv).x = c.x := rfl
@[simp] theorem Core.wx_f (c : Core) (r : Reg) (v : W64) : (c.wx r v).f = c.f := by unfold Core.wx; split <;> rfl
@[simp] theorem Core.setSr_f (c : Core) (n : Nat) (v : W64) : (c.setSr n v).f = c.f := rfl
@[simp] theorem Core.setMail_f (c : Core) (m : Nat) (l : List Msg) : (c.setMail m l).f = c.f := rfl
@[simp] theorem Core.setL1_f (c : Core) (n : Nat) (l : L1Line) : (c.setL1 n l).f = c.f := rfl
@[simp] theorem Core.setDescWord_f (c : Core) (k i : Nat) (v : W64) : (c.setDescWord k i v).f = c.f := rfl
@[simp] theorem Core.endLoop_f (c : Core) (lv : Nat) : (c.endLoop lv).f = c.f := rfl
@[simp] theorem Core.wx_pc (c : Core) (r : Reg) (v : W64) : (c.wx r v).pc = c.pc := by unfold Core.wx; split <;> rfl
@[simp] theorem Core.wf_pc (c : Core) (r : Reg) (v : W32) : (c.wf r v).pc = c.pc := rfl
@[simp] theorem Core.setSr_pc (c : Core) (n : Nat) (v : W64) : (c.setSr n v).pc = c.pc := rfl
@[simp] theorem Core.setMail_pc (c : Core) (m : Nat) (l : List Msg) : (c.setMail m l).pc = c.pc := rfl
@[simp] theorem Core.setL1_pc (c : Core) (n : Nat) (l : L1Line) : (c.setL1 n l).pc = c.pc := rfl
@[simp] theorem Core.setDescWord_pc (c : Core) (k i : Nat) (v : W64) : (c.setDescWord k i v).pc = c.pc := rfl
@[simp] theorem Core.endLoop_pc (c : Core) (lv : Nat) : (c.endLoop lv).pc = c.pc := rfl
@[simp] theorem Core.wx_level (c : Core) (r : Reg) (v : W64) : (c.wx r v).level = c.level := by unfold Core.wx; split <;> rfl
@[simp] theorem Core.wf_level (c : Core) (r : Reg) (v : W32) : (c.wf r v).level = c.level := rfl
@[simp] theorem Core.setSr_level (c : Core) (n : Nat) (v : W64) : (c.setSr n v).level = c.level := rfl
@[simp] theorem Core.setMail_level (c : Core) (m : Nat) (l : List Msg) : (c.setMail m l).level = c.level := rfl
@[simp] theorem Core.setL1_level (c : Core) (n : Nat) (l : L1Line) : (c.setL1 n l).level = c.level := rfl
@[simp] theorem Core.setDescWord_level (c : Core) (k i : Nat) (v : W64) : (c.setDescWord k i v).level = c.level := rfl
@[simp] theorem Core.endLoop_level (c : Core) (lv : Nat) : (c.endLoop lv).level = c.level := rfl
@[simp] theorem Core.wx_ieS (c : Core) (r : Reg) (v : W64) : (c.wx r v).ieS = c.ieS := by unfold Core.wx; split <;> rfl
@[simp] theorem Core.wf_ieS (c : Core) (r : Reg) (v : W32) : (c.wf r v).ieS = c.ieS := rfl
@[simp] theorem Core.setSr_ieS (c : Core) (n : Nat) (v : W64) : (c.setSr n v).ieS = c.ieS := rfl
@[simp] theorem Core.setMail_ieS (c : Core) (m : Nat) (l : List Msg) : (c.setMail m l).ieS = c.ieS := rfl
@[simp] theorem Core.setL1_ieS (c : Core) (n : Nat) (l : L1Line) : (c.setL1 n l).ieS = c.ieS := rfl
@[simp] theorem Core.setDescWord_ieS (c : Core) (k i : Nat) (v : W64) : (c.setDescWord k i v).ieS = c.ieS := rfl
@[simp] theorem Core.endLoop_ieS (c : Core) (lv : Nat) : (c.endLoop lv).ieS = c.ieS := rfl
@[simp] theorem Core.wx_ieM (c : Core) (r : Reg) (v : W64) : (c.wx r v).ieM = c.ieM := by unfold Core.wx; split <;> rfl
@[simp] theorem Core.wf_ieM (c : Core) (r : Reg) (v : W32) : (c.wf r v).ieM = c.ieM := rfl
@[simp] theorem Core.setSr_ieM (c : Core) (n : Nat) (v : W64) : (c.setSr n v).ieM = c.ieM := rfl
@[simp] theorem Core.setMail_ieM (c : Core) (m : Nat) (l : List Msg) : (c.setMail m l).ieM = c.ieM := rfl
@[simp] theorem Core.setL1_ieM (c : Core) (n : Nat) (l : L1Line) : (c.setL1 n l).ieM = c.ieM := rfl
@[simp] theorem Core.setDescWord_ieM (c : Core) (k i : Nat) (v : W64) : (c.setDescWord k i v).ieM = c.ieM := rfl
@[simp] theorem Core.endLoop_ieM (c : Core) (lv : Nat) : (c.endLoop lv).ieM = c.ieM := rfl
@[simp] theorem Core.wx_sys (c : Core) (r : Reg) (v : W64) : (c.wx r v).sys = c.sys := by unfold Core.wx; split <;> rfl
@[simp] theorem Core.wf_sys (c : Core) (r : Reg) (v : W32) : (c.wf r v).sys = c.sys := rfl
@[simp] theorem Core.setMail_sys (c : Core) (m : Nat) (l : List Msg) : (c.setMail m l).sys = c.sys := rfl
@[simp] theorem Core.setL1_sys (c : Core) (n : Nat) (l : L1Line) : (c.setL1 n l).sys = c.sys := rfl
@[simp] theorem Core.setDescWord_sys (c : Core) (k i : Nat) (v : W64) : (c.setDescWord k i v).sys = c.sys := rfl
@[simp] theorem Core.wx_run (c : Core) (r : Reg) (v : W64) : (c.wx r v).run = c.run := by unfold Core.wx; split <;> rfl
@[simp] theorem Core.wf_run (c : Core) (r : Reg) (v : W32) : (c.wf r v).run = c.run := rfl
@[simp] theorem Core.setSr_run (c : Core) (n : Nat) (v : W64) : (c.setSr n v).run = c.run := rfl
@[simp] theorem Core.setMail_run (c : Core) (m : Nat) (l : List Msg) : (c.setMail m l).run = c.run := rfl
@[simp] theorem Core.setL1_run (c : Core) (n : Nat) (l : L1Line) : (c.setL1 n l).run = c.run := rfl
@[simp] theorem Core.setDescWord_run (c : Core) (k i : Nat) (v : W64) : (c.setDescWord k i v).run = c.run := rfl
@[simp] theorem Core.endLoop_run (c : Core) (lv : Nat) : (c.endLoop lv).run = c.run := rfl
@[simp] theorem Core.wx_mfw (c : Core) (r : Reg) (v : W64) : (c.wx r v).mfw = c.mfw := by unfold Core.wx; split <;> rfl
@[simp] theorem Core.wf_mfw (c : Core) (r : Reg) (v : W32) : (c.wf r v).mfw = c.mfw := rfl
@[simp] theorem Core.setSr_mfw (c : Core) (n : Nat) (v : W64) : (c.setSr n v).mfw = c.mfw := rfl
@[simp] theorem Core.setMail_mfw (c : Core) (m : Nat) (l : List Msg) : (c.setMail m l).mfw = c.mfw := rfl
@[simp] theorem Core.setL1_mfw (c : Core) (n : Nat) (l : L1Line) : (c.setL1 n l).mfw = c.mfw := rfl
@[simp] theorem Core.setDescWord_mfw (c : Core) (k i : Nat) (v : W64) : (c.setDescWord k i v).mfw = c.mfw := rfl
@[simp] theorem Core.endLoop_mfw (c : Core) (lv : Nat) : (c.endLoop lv).mfw = c.mfw := rfl
@[simp] theorem Core.wx_dbgHalted (c : Core) (r : Reg) (v : W64) : (c.wx r v).dbgHalted = c.dbgHalted := by unfold Core.wx; split <;> rfl
@[simp] theorem Core.wf_dbgHalted (c : Core) (r : Reg) (v : W32) : (c.wf r v).dbgHalted = c.dbgHalted := rfl
@[simp] theorem Core.setSr_dbgHalted (c : Core) (n : Nat) (v : W64) : (c.setSr n v).dbgHalted = c.dbgHalted := rfl
@[simp] theorem Core.setMail_dbgHalted (c : Core) (m : Nat) (l : List Msg) : (c.setMail m l).dbgHalted = c.dbgHalted := rfl
@[simp] theorem Core.setL1_dbgHalted (c : Core) (n : Nat) (l : L1Line) : (c.setL1 n l).dbgHalted = c.dbgHalted := rfl
@[simp] theorem Core.setDescWord_dbgHalted (c : Core) (k i : Nat) (v : W64) : (c.setDescWord k i v).dbgHalted = c.dbgHalted := rfl
@[simp] theorem Core.endLoop_dbgHalted (c : Core) (lv : Nat) : (c.endLoop lv).dbgHalted = c.dbgHalted := rfl
@[simp] theorem Core.wx_dbgHaltReq (c : Core) (r : Reg) (v : W64) : (c.wx r v).dbgHaltReq = c.dbgHaltReq := by unfold Core.wx; split <;> rfl
@[simp] theorem Core.wf_dbgHaltReq (c : Core) (r : Reg) (v : W32) : (c.wf r v).dbgHaltReq = c.dbgHaltReq := rfl
@[simp] theorem Core.setSr_dbgHaltReq (c : Core) (n : Nat) (v : W64) : (c.setSr n v).dbgHaltReq = c.dbgHaltReq := rfl
@[simp] theorem Core.setMail_dbgHaltReq (c : Core) (m : Nat) (l : List Msg) : (c.setMail m l).dbgHaltReq = c.dbgHaltReq := rfl
@[simp] theorem Core.setL1_dbgHaltReq (c : Core) (n : Nat) (l : L1Line) : (c.setL1 n l).dbgHaltReq = c.dbgHaltReq := rfl
@[simp] theorem Core.setDescWord_dbgHaltReq (c : Core) (k i : Nat) (v : W64) : (c.setDescWord k i v).dbgHaltReq = c.dbgHaltReq := rfl
@[simp] theorem Core.endLoop_dbgHaltReq (c : Core) (lv : Nat) : (c.endLoop lv).dbgHaltReq = c.dbgHaltReq := rfl
@[simp] theorem Core.wx_dbgStep (c : Core) (r : Reg) (v : W64) : (c.wx r v).dbgStep = c.dbgStep := by unfold Core.wx; split <;> rfl
@[simp] theorem Core.wf_dbgStep (c : Core) (r : Reg) (v : W32) : (c.wf r v).dbgStep = c.dbgStep := rfl
@[simp] theorem Core.setSr_dbgStep (c : Core) (n : Nat) (v : W64) : (c.setSr n v).dbgStep = c.dbgStep := rfl
@[simp] theorem Core.setMail_dbgStep (c : Core) (m : Nat) (l : List Msg) : (c.setMail m l).dbgStep = c.dbgStep := rfl
@[simp] theorem Core.setL1_dbgStep (c : Core) (n : Nat) (l : L1Line) : (c.setL1 n l).dbgStep = c.dbgStep := rfl
@[simp] theorem Core.setDescWord_dbgStep (c : Core) (k i : Nat) (v : W64) : (c.setDescWord k i v).dbgStep = c.dbgStep := rfl
@[simp] theorem Core.endLoop_dbgStep (c : Core) (lv : Nat) : (c.endLoop lv).dbgStep = c.dbgStep := rfl
@[simp] theorem Core.wx_vtrapDue (c : Core) (r : Reg) (v : W64) : (c.wx r v).vtrapDue = c.vtrapDue := by unfold Core.wx; split <;> rfl
@[simp] theorem Core.wf_vtrapDue (c : Core) (r : Reg) (v : W32) : (c.wf r v).vtrapDue = c.vtrapDue := rfl
@[simp] theorem Core.setSr_vtrapDue (c : Core) (n : Nat) (v : W64) : (c.setSr n v).vtrapDue = c.vtrapDue := rfl
@[simp] theorem Core.setMail_vtrapDue (c : Core) (m : Nat) (l : List Msg) : (c.setMail m l).vtrapDue = c.vtrapDue := rfl
@[simp] theorem Core.setL1_vtrapDue (c : Core) (n : Nat) (l : L1Line) : (c.setL1 n l).vtrapDue = c.vtrapDue := rfl
@[simp] theorem Core.setDescWord_vtrapDue (c : Core) (k i : Nat) (v : W64) : (c.setDescWord k i v).vtrapDue = c.vtrapDue := rfl
@[simp] theorem Core.endLoop_vtrapDue (c : Core) (lv : Nat) : (c.endLoop lv).vtrapDue = c.vtrapDue := rfl
@[simp] theorem Core.wx_wait (c : Core) (r : Reg) (v : W64) : (c.wx r v).wait = c.wait := by unfold Core.wx; split <;> rfl
@[simp] theorem Core.wf_wait (c : Core) (r : Reg) (v : W32) : (c.wf r v).wait = c.wait := rfl
@[simp] theorem Core.setSr_wait (c : Core) (n : Nat) (v : W64) : (c.setSr n v).wait = c.wait := rfl
@[simp] theorem Core.setMail_wait (c : Core) (m : Nat) (l : List Msg) : (c.setMail m l).wait = c.wait := rfl
@[simp] theorem Core.setL1_wait (c : Core) (n : Nat) (l : L1Line) : (c.setL1 n l).wait = c.wait := rfl
@[simp] theorem Core.setDescWord_wait (c : Core) (k i : Nat) (v : W64) : (c.setDescWord k i v).wait = c.wait := rfl
@[simp] theorem Core.endLoop_wait (c : Core) (lv : Nat) : (c.endLoop lv).wait = c.wait := rfl
@[simp] theorem Core.wx_mchk (c : Core) (r : Reg) (v : W64) : (c.wx r v).mchk = c.mchk := by unfold Core.wx; split <;> rfl
@[simp] theorem Core.wf_mchk (c : Core) (r : Reg) (v : W32) : (c.wf r v).mchk = c.mchk := rfl
@[simp] theorem Core.setSr_mchk (c : Core) (n : Nat) (v : W64) : (c.setSr n v).mchk = c.mchk := rfl
@[simp] theorem Core.setMail_mchk (c : Core) (m : Nat) (l : List Msg) : (c.setMail m l).mchk = c.mchk := rfl
@[simp] theorem Core.setL1_mchk (c : Core) (n : Nat) (l : L1Line) : (c.setL1 n l).mchk = c.mchk := rfl
@[simp] theorem Core.setDescWord_mchk (c : Core) (k i : Nat) (v : W64) : (c.setDescWord k i v).mchk = c.mchk := rfl
@[simp] theorem Core.endLoop_mchk (c : Core) (lv : Nat) : (c.endLoop lv).mchk = c.mchk := rfl
@[simp] theorem Core.wx_notices (c : Core) (r : Reg) (v : W64) : (c.wx r v).notices = c.notices := by unfold Core.wx; split <;> rfl
@[simp] theorem Core.wf_notices (c : Core) (r : Reg) (v : W32) : (c.wf r v).notices = c.notices := rfl
@[simp] theorem Core.setSr_notices (c : Core) (n : Nat) (v : W64) : (c.setSr n v).notices = c.notices := rfl
@[simp] theorem Core.setMail_notices (c : Core) (m : Nat) (l : List Msg) : (c.setMail m l).notices = c.notices := rfl
@[simp] theorem Core.setL1_notices (c : Core) (n : Nat) (l : L1Line) : (c.setL1 n l).notices = c.notices := rfl
@[simp] theorem Core.setDescWord_notices (c : Core) (k i : Nat) (v : W64) : (c.setDescWord k i v).notices = c.notices := rfl
@[simp] theorem Core.endLoop_notices (c : Core) (lv : Nat) : (c.endLoop lv).notices = c.notices := rfl
@[simp] theorem Core.wx_trace (c : Core) (r : Reg) (v : W64) : (c.wx r v).trace = c.trace := by unfold Core.wx; split <;> rfl
@[simp] theorem Core.wf_trace (c : Core) (r : Reg) (v : W32) : (c.wf r v).trace = c.trace := rfl
@[simp] theorem Core.setSr_trace (c : Core) (n : Nat) (v : W64) : (c.setSr n v).trace = c.trace := rfl
@[simp] theorem Core.setMail_trace (c : Core) (m : Nat) (l : List Msg) : (c.setMail m l).trace = c.trace := rfl
@[simp] theorem Core.setL1_trace (c : Core) (n : Nat) (l : L1Line) : (c.setL1 n l).trace = c.trace := rfl
@[simp] theorem Core.setDescWord_trace (c : Core) (k i : Nat) (v : W64) : (c.setDescWord k i v).trace = c.trace := rfl
@[simp] theorem Core.endLoop_trace (c : Core) (lv : Nat) : (c.endLoop lv).trace = c.trace := rfl
@[simp] theorem Core.wx_dbgDeferred (c : Core) (r : Reg) (v : W64) : (c.wx r v).dbgDeferred = c.dbgDeferred := by unfold Core.wx; split <;> rfl
@[simp] theorem Core.wf_dbgDeferred (c : Core) (r : Reg) (v : W32) : (c.wf r v).dbgDeferred = c.dbgDeferred := rfl
@[simp] theorem Core.setSr_dbgDeferred (c : Core) (n : Nat) (v : W64) : (c.setSr n v).dbgDeferred = c.dbgDeferred := rfl
@[simp] theorem Core.setMail_dbgDeferred (c : Core) (m : Nat) (l : List Msg) : (c.setMail m l).dbgDeferred = c.dbgDeferred := rfl
@[simp] theorem Core.setL1_dbgDeferred (c : Core) (n : Nat) (l : L1Line) : (c.setL1 n l).dbgDeferred = c.dbgDeferred := rfl
@[simp] theorem Core.setDescWord_dbgDeferred (c : Core) (k i : Nat) (v : W64) : (c.setDescWord k i v).dbgDeferred = c.dbgDeferred := rfl
@[simp] theorem Core.endLoop_dbgDeferred (c : Core) (lv : Nat) : (c.endLoop lv).dbgDeferred = c.dbgDeferred := rfl
@[simp] theorem Core.wx_mbx (c : Core) (r : Reg) (v : W64) : (c.wx r v).mbx = c.mbx := by unfold Core.wx; split <;> rfl
@[simp] theorem Core.wf_mbx (c : Core) (r : Reg) (v : W32) : (c.wf r v).mbx = c.mbx := rfl
@[simp] theorem Core.setSr_mbx (c : Core) (n : Nat) (v : W64) : (c.setSr n v).mbx = c.mbx := rfl
@[simp] theorem Core.setL1_mbx (c : Core) (n : Nat) (l : L1Line) : (c.setL1 n l).mbx = c.mbx := rfl
@[simp] theorem Core.setDescWord_mbx (c : Core) (k i : Nat) (v : W64) : (c.setDescWord k i v).mbx = c.mbx := rfl
@[simp] theorem Core.endLoop_mbx (c : Core) (lv : Nat) : (c.endLoop lv).mbx = c.mbx := rfl
@[simp] theorem Core.wx_outq (c : Core) (r : Reg) (v : W64) : (c.wx r v).outq = c.outq := by unfold Core.wx; split <;> rfl
@[simp] theorem Core.wf_outq (c : Core) (r : Reg) (v : W32) : (c.wf r v).outq = c.outq := rfl
@[simp] theorem Core.setSr_outq (c : Core) (n : Nat) (v : W64) : (c.setSr n v).outq = c.outq := rfl
@[simp] theorem Core.setMail_outq (c : Core) (m : Nat) (l : List Msg) : (c.setMail m l).outq = c.outq := rfl
@[simp] theorem Core.setL1_outq (c : Core) (n : Nat) (l : L1Line) : (c.setL1 n l).outq = c.outq := rfl
@[simp] theorem Core.setDescWord_outq (c : Core) (k i : Nat) (v : W64) : (c.setDescWord k i v).outq = c.outq := rfl
@[simp] theorem Core.endLoop_outq (c : Core) (lv : Nat) : (c.endLoop lv).outq = c.outq := rfl
@[simp] theorem Core.wx_waitlist (c : Core) (r : Reg) (v : W64) : (c.wx r v).waitlist = c.waitlist := by unfold Core.wx; split <;> rfl
@[simp] theorem Core.wf_waitlist (c : Core) (r : Reg) (v : W32) : (c.wf r v).waitlist = c.waitlist := rfl
@[simp] theorem Core.setSr_waitlist (c : Core) (n : Nat) (v : W64) : (c.setSr n v).waitlist = c.waitlist := rfl
@[simp] theorem Core.setMail_waitlist (c : Core) (m : Nat) (l : List Msg) : (c.setMail m l).waitlist = c.waitlist := rfl
@[simp] theorem Core.setL1_waitlist (c : Core) (n : Nat) (l : L1Line) : (c.setL1 n l).waitlist = c.waitlist := rfl
@[simp] theorem Core.setDescWord_waitlist (c : Core) (k i : Nat) (v : W64) : (c.setDescWord k i v).waitlist = c.waitlist := rfl
@[simp] theorem Core.endLoop_waitlist (c : Core) (lv : Nat) : (c.endLoop lv).waitlist = c.waitlist := rfl
@[simp] theorem Core.wx_reserved (c : Core) (r : Reg) (v : W64) : (c.wx r v).reserved = c.reserved := by unfold Core.wx; split <;> rfl
@[simp] theorem Core.wf_reserved (c : Core) (r : Reg) (v : W32) : (c.wf r v).reserved = c.reserved := rfl
@[simp] theorem Core.setSr_reserved (c : Core) (n : Nat) (v : W64) : (c.setSr n v).reserved = c.reserved := rfl
@[simp] theorem Core.setMail_reserved (c : Core) (m : Nat) (l : List Msg) : (c.setMail m l).reserved = c.reserved := rfl
@[simp] theorem Core.setL1_reserved (c : Core) (n : Nat) (l : L1Line) : (c.setL1 n l).reserved = c.reserved := rfl
@[simp] theorem Core.setDescWord_reserved (c : Core) (k i : Nat) (v : W64) : (c.setDescWord k i v).reserved = c.reserved := rfl
@[simp] theorem Core.endLoop_reserved (c : Core) (lv : Nat) : (c.endLoop lv).reserved = c.reserved := rfl
@[simp] theorem Core.wx_staleRun (c : Core) (r : Reg) (v : W64) : (c.wx r v).staleRun = c.staleRun := by unfold Core.wx; split <;> rfl
@[simp] theorem Core.wf_staleRun (c : Core) (r : Reg) (v : W32) : (c.wf r v).staleRun = c.staleRun := rfl
@[simp] theorem Core.setSr_staleRun (c : Core) (n : Nat) (v : W64) : (c.setSr n v).staleRun = c.staleRun := rfl
@[simp] theorem Core.setMail_staleRun (c : Core) (m : Nat) (l : List Msg) : (c.setMail m l).staleRun = c.staleRun := rfl
@[simp] theorem Core.setL1_staleRun (c : Core) (n : Nat) (l : L1Line) : (c.setL1 n l).staleRun = c.staleRun := rfl
@[simp] theorem Core.setDescWord_staleRun (c : Core) (k i : Nat) (v : W64) : (c.setDescWord k i v).staleRun = c.staleRun := rfl
@[simp] theorem Core.endLoop_staleRun (c : Core) (lv : Nat) : (c.endLoop lv).staleRun = c.staleRun := rfl
@[simp] theorem Core.wx_oc (c : Core) (r : Reg) (v : W64) : (c.wx r v).oc = c.oc := by unfold Core.wx; split <;> rfl
@[simp] theorem Core.wf_oc (c : Core) (r : Reg) (v : W32) : (c.wf r v).oc = c.oc := rfl
@[simp] theorem Core.setSr_oc (c : Core) (n : Nat) (v : W64) : (c.setSr n v).oc = c.oc := rfl
@[simp] theorem Core.setMail_oc (c : Core) (m : Nat) (l : List Msg) : (c.setMail m l).oc = c.oc := rfl
@[simp] theorem Core.setL1_oc (c : Core) (n : Nat) (l : L1Line) : (c.setL1 n l).oc = c.oc := rfl
@[simp] theorem Core.setDescWord_oc (c : Core) (k i : Nat) (v : W64) : (c.setDescWord k i v).oc = c.oc := rfl
@[simp] theorem Core.endLoop_oc (c : Core) (lv : Nat) : (c.endLoop lv).oc = c.oc := rfl
@[simp] theorem Core.wx_ocBad (c : Core) (r : Reg) (v : W64) : (c.wx r v).ocBad = c.ocBad := by unfold Core.wx; split <;> rfl
@[simp] theorem Core.wf_ocBad (c : Core) (r : Reg) (v : W32) : (c.wf r v).ocBad = c.ocBad := rfl
@[simp] theorem Core.setSr_ocBad (c : Core) (n : Nat) (v : W64) : (c.setSr n v).ocBad = c.ocBad := rfl
@[simp] theorem Core.setMail_ocBad (c : Core) (m : Nat) (l : List Msg) : (c.setMail m l).ocBad = c.ocBad := rfl
@[simp] theorem Core.setL1_ocBad (c : Core) (n : Nat) (l : L1Line) : (c.setL1 n l).ocBad = c.ocBad := rfl
@[simp] theorem Core.setDescWord_ocBad (c : Core) (k i : Nat) (v : W64) : (c.setDescWord k i v).ocBad = c.ocBad := rfl
@[simp] theorem Core.endLoop_ocBad (c : Core) (lv : Nat) : (c.endLoop lv).ocBad = c.ocBad := rfl
@[simp] theorem Core.wx_desc (c : Core) (r : Reg) (v : W64) : (c.wx r v).desc = c.desc := by unfold Core.wx; split <;> rfl
@[simp] theorem Core.wf_desc (c : Core) (r : Reg) (v : W32) : (c.wf r v).desc = c.desc := rfl
@[simp] theorem Core.setSr_desc (c : Core) (n : Nat) (v : W64) : (c.setSr n v).desc = c.desc := rfl
@[simp] theorem Core.setMail_desc (c : Core) (m : Nat) (l : List Msg) : (c.setMail m l).desc = c.desc := rfl
@[simp] theorem Core.setL1_desc (c : Core) (n : Nat) (l : L1Line) : (c.setL1 n l).desc = c.desc := rfl
@[simp] theorem Core.endLoop_desc (c : Core) (lv : Nat) : (c.endLoop lv).desc = c.desc := rfl
@[simp] theorem Core.wx_units (c : Core) (r : Reg) (v : W64) : (c.wx r v).units = c.units := by unfold Core.wx; split <;> rfl
@[simp] theorem Core.wf_units (c : Core) (r : Reg) (v : W32) : (c.wf r v).units = c.units := rfl
@[simp] theorem Core.setSr_units (c : Core) (n : Nat) (v : W64) : (c.setSr n v).units = c.units := rfl
@[simp] theorem Core.setMail_units (c : Core) (m : Nat) (l : List Msg) : (c.setMail m l).units = c.units := rfl
@[simp] theorem Core.setL1_units (c : Core) (n : Nat) (l : L1Line) : (c.setL1 n l).units = c.units := rfl
@[simp] theorem Core.setDescWord_units (c : Core) (k i : Nat) (v : W64) : (c.setDescWord k i v).units = c.units := rfl
@[simp] theorem Core.endLoop_units (c : Core) (lv : Nat) : (c.endLoop lv).units = c.units := rfl
@[simp] theorem Core.wx_rr (c : Core) (r : Reg) (v : W64) : (c.wx r v).rr = c.rr := by unfold Core.wx; split <;> rfl
@[simp] theorem Core.wf_rr (c : Core) (r : Reg) (v : W32) : (c.wf r v).rr = c.rr := rfl
@[simp] theorem Core.setSr_rr (c : Core) (n : Nat) (v : W64) : (c.setSr n v).rr = c.rr := rfl
@[simp] theorem Core.setMail_rr (c : Core) (m : Nat) (l : List Msg) : (c.setMail m l).rr = c.rr := rfl
@[simp] theorem Core.setL1_rr (c : Core) (n : Nat) (l : L1Line) : (c.setL1 n l).rr = c.rr := rfl
@[simp] theorem Core.setDescWord_rr (c : Core) (k i : Nat) (v : W64) : (c.setDescWord k i v).rr = c.rr := rfl
@[simp] theorem Core.endLoop_rr (c : Core) (lv : Nat) : (c.endLoop lv).rr = c.rr := rfl
@[simp] theorem Core.wx_tiles (c : Core) (r : Reg) (v : W64) : (c.wx r v).tiles = c.tiles := by unfold Core.wx; split <;> rfl
@[simp] theorem Core.wf_tiles (c : Core) (r : Reg) (v : W32) : (c.wf r v).tiles = c.tiles := rfl
@[simp] theorem Core.setSr_tiles (c : Core) (n : Nat) (v : W64) : (c.setSr n v).tiles = c.tiles := rfl
@[simp] theorem Core.setMail_tiles (c : Core) (m : Nat) (l : List Msg) : (c.setMail m l).tiles = c.tiles := rfl
@[simp] theorem Core.setL1_tiles (c : Core) (n : Nat) (l : L1Line) : (c.setL1 n l).tiles = c.tiles := rfl
@[simp] theorem Core.setDescWord_tiles (c : Core) (k i : Nat) (v : W64) : (c.setDescWord k i v).tiles = c.tiles := rfl
@[simp] theorem Core.endLoop_tiles (c : Core) (lv : Nat) : (c.endLoop lv).tiles = c.tiles := rfl
@[simp] theorem Core.wx_cells0 (c : Core) (r : Reg) (v : W64) : (c.wx r v).cells0 = c.cells0 := by unfold Core.wx; split <;> rfl
@[simp] theorem Core.wf_cells0 (c : Core) (r : Reg) (v : W32) : (c.wf r v).cells0 = c.cells0 := rfl
@[simp] theorem Core.setSr_cells0 (c : Core) (n : Nat) (v : W64) : (c.setSr n v).cells0 = c.cells0 := rfl
@[simp] theorem Core.setMail_cells0 (c : Core) (m : Nat) (l : List Msg) : (c.setMail m l).cells0 = c.cells0 := rfl
@[simp] theorem Core.setL1_cells0 (c : Core) (n : Nat) (l : L1Line) : (c.setL1 n l).cells0 = c.cells0 := rfl
@[simp] theorem Core.setDescWord_cells0 (c : Core) (k i : Nat) (v : W64) : (c.setDescWord k i v).cells0 = c.cells0 := rfl
@[simp] theorem Core.endLoop_cells0 (c : Core) (lv : Nat) : (c.endLoop lv).cells0 = c.cells0 := rfl
@[simp] theorem Core.wx_cells1 (c : Core) (r : Reg) (v : W64) : (c.wx r v).cells1 = c.cells1 := by unfold Core.wx; split <;> rfl
@[simp] theorem Core.wf_cells1 (c : Core) (r : Reg) (v : W32) : (c.wf r v).cells1 = c.cells1 := rfl
@[simp] theorem Core.setSr_cells1 (c : Core) (n : Nat) (v : W64) : (c.setSr n v).cells1 = c.cells1 := rfl
@[simp] theorem Core.setMail_cells1 (c : Core) (m : Nat) (l : List Msg) : (c.setMail m l).cells1 = c.cells1 := rfl
@[simp] theorem Core.setL1_cells1 (c : Core) (n : Nat) (l : L1Line) : (c.setL1 n l).cells1 = c.cells1 := rfl
@[simp] theorem Core.setDescWord_cells1 (c : Core) (k i : Nat) (v : W64) : (c.setDescWord k i v).cells1 = c.cells1 := rfl
@[simp] theorem Core.endLoop_cells1 (c : Core) (lv : Nat) : (c.endLoop lv).cells1 = c.cells1 := rfl
@[simp] theorem Core.wx_transp0 (c : Core) (r : Reg) (v : W64) : (c.wx r v).transp0 = c.transp0 := by unfold Core.wx; split <;> rfl
@[simp] theorem Core.wf_transp0 (c : Core) (r : Reg) (v : W32) : (c.wf r v).transp0 = c.transp0 := rfl
@[simp] theorem Core.setSr_transp0 (c : Core) (n : Nat) (v : W64) : (c.setSr n v).transp0 = c.transp0 := rfl
@[simp] theorem Core.setMail_transp0 (c : Core) (m : Nat) (l : List Msg) : (c.setMail m l).transp0 = c.transp0 := rfl
@[simp] theorem Core.setL1_transp0 (c : Core) (n : Nat) (l : L1Line) : (c.setL1 n l).transp0 = c.transp0 := rfl
@[simp] theorem Core.setDescWord_transp0 (c : Core) (k i : Nat) (v : W64) : (c.setDescWord k i v).transp0 = c.transp0 := rfl
@[simp] theorem Core.endLoop_transp0 (c : Core) (lv : Nat) : (c.endLoop lv).transp0 = c.transp0 := rfl
@[simp] theorem Core.wx_mode1 (c : Core) (r : Reg) (v : W64) : (c.wx r v).mode1 = c.mode1 := by unfold Core.wx; split <;> rfl
@[simp] theorem Core.wf_mode1 (c : Core) (r : Reg) (v : W32) : (c.wf r v).mode1 = c.mode1 := rfl
@[simp] theorem Core.setSr_mode1 (c : Core) (n : Nat) (v : W64) : (c.setSr n v).mode1 = c.mode1 := rfl
@[simp] theorem Core.setMail_mode1 (c : Core) (m : Nat) (l : List Msg) : (c.setMail m l).mode1 = c.mode1 := rfl
@[simp] theorem Core.setL1_mode1 (c : Core) (n : Nat) (l : L1Line) : (c.setL1 n l).mode1 = c.mode1 := rfl
@[simp] theorem Core.setDescWord_mode1 (c : Core) (k i : Nat) (v : W64) : (c.setDescWord k i v).mode1 = c.mode1 := rfl
@[simp] theorem Core.endLoop_mode1 (c : Core) (lv : Nat) : (c.endLoop lv).mode1 = c.mode1 := rfl
@[simp] theorem Core.wx_acc (c : Core) (r : Reg) (v : W64) : (c.wx r v).acc = c.acc := by unfold Core.wx; split <;> rfl
@[simp] theorem Core.wf_acc (c : Core) (r : Reg) (v : W32) : (c.wf r v).acc = c.acc := rfl
@[simp] theorem Core.setSr_acc (c : Core) (n : Nat) (v : W64) : (c.setSr n v).acc = c.acc := rfl
@[simp] theorem Core.setMail_acc (c : Core) (m : Nat) (l : List Msg) : (c.setMail m l).acc = c.acc := rfl
@[simp] theorem Core.setL1_acc (c : Core) (n : Nat) (l : L1Line) : (c.setL1 n l).acc = c.acc := rfl
@[simp] theorem Core.setDescWord_acc (c : Core) (k i : Nat) (v : W64) : (c.setDescWord k i v).acc = c.acc := rfl
@[simp] theorem Core.endLoop_acc (c : Core) (lv : Nat) : (c.endLoop lv).acc = c.acc := rfl
@[simp] theorem Core.wx_shadow (c : Core) (r : Reg) (v : W64) : (c.wx r v).shadow = c.shadow := by unfold Core.wx; split <;> rfl
@[simp] theorem Core.wf_shadow (c : Core) (r : Reg) (v : W32) : (c.wf r v).shadow = c.shadow := rfl
@[simp] theorem Core.setSr_shadow (c : Core) (n : Nat) (v : W64) : (c.setSr n v).shadow = c.shadow := rfl
@[simp] theorem Core.setMail_shadow (c : Core) (m : Nat) (l : List Msg) : (c.setMail m l).shadow = c.shadow := rfl
@[simp] theorem Core.setL1_shadow (c : Core) (n : Nat) (l : L1Line) : (c.setL1 n l).shadow = c.shadow := rfl
@[simp] theorem Core.setDescWord_shadow (c : Core) (k i : Nat) (v : W64) : (c.setDescWord k i v).shadow = c.shadow := rfl
@[simp] theorem Core.endLoop_shadow (c : Core) (lv : Nat) : (c.endLoop lv).shadow = c.shadow := rfl
@[simp] theorem Core.wx_atok (c : Core) (r : Reg) (v : W64) : (c.wx r v).atok = c.atok := by unfold Core.wx; split <;> rfl
@[simp] theorem Core.wf_atok (c : Core) (r : Reg) (v : W32) : (c.wf r v).atok = c.atok := rfl
@[simp] theorem Core.setSr_atok (c : Core) (n : Nat) (v : W64) : (c.setSr n v).atok = c.atok := rfl
@[simp] theorem Core.setMail_atok (c : Core) (m : Nat) (l : List Msg) : (c.setMail m l).atok = c.atok := rfl
@[simp] theorem Core.setL1_atok (c : Core) (n : Nat) (l : L1Line) : (c.setL1 n l).atok = c.atok := rfl
@[simp] theorem Core.setDescWord_atok (c : Core) (k i : Nat) (v : W64) : (c.setDescWord k i v).atok = c.atok := rfl
@[simp] theorem Core.endLoop_atok (c : Core) (lv : Nat) : (c.endLoop lv).atok = c.atok := rfl
@[simp] theorem Core.wx_apois (c : Core) (r : Reg) (v : W64) : (c.wx r v).apois = c.apois := by unfold Core.wx; split <;> rfl
@[simp] theorem Core.wf_apois (c : Core) (r : Reg) (v : W32) : (c.wf r v).apois = c.apois := rfl
@[simp] theorem Core.setSr_apois (c : Core) (n : Nat) (v : W64) : (c.setSr n v).apois = c.apois := rfl
@[simp] theorem Core.setMail_apois (c : Core) (m : Nat) (l : List Msg) : (c.setMail m l).apois = c.apois := rfl
@[simp] theorem Core.setL1_apois (c : Core) (n : Nat) (l : L1Line) : (c.setL1 n l).apois = c.apois := rfl
@[simp] theorem Core.setDescWord_apois (c : Core) (k i : Nat) (v : W64) : (c.setDescWord k i v).apois = c.apois := rfl
@[simp] theorem Core.endLoop_apois (c : Core) (lv : Nat) : (c.endLoop lv).apois = c.apois := rfl
@[simp] theorem Core.wx_mxflags (c : Core) (r : Reg) (v : W64) : (c.wx r v).mxflags = c.mxflags := by unfold Core.wx; split <;> rfl
@[simp] theorem Core.wf_mxflags (c : Core) (r : Reg) (v : W32) : (c.wf r v).mxflags = c.mxflags := rfl
@[simp] theorem Core.setSr_mxflags (c : Core) (n : Nat) (v : W64) : (c.setSr n v).mxflags = c.mxflags := rfl
@[simp] theorem Core.setMail_mxflags (c : Core) (m : Nat) (l : List Msg) : (c.setMail m l).mxflags = c.mxflags := rfl
@[simp] theorem Core.setL1_mxflags (c : Core) (n : Nat) (l : L1Line) : (c.setL1 n l).mxflags = c.mxflags := rfl
@[simp] theorem Core.setDescWord_mxflags (c : Core) (k i : Nat) (v : W64) : (c.setDescWord k i v).mxflags = c.mxflags := rfl
@[simp] theorem Core.endLoop_mxflags (c : Core) (lv : Nat) : (c.endLoop lv).mxflags = c.mxflags := rfl
@[simp] theorem Core.wx_bg (c : Core) (r : Reg) (v : W64) : (c.wx r v).bg = c.bg := by unfold Core.wx; split <;> rfl
@[simp] theorem Core.wf_bg (c : Core) (r : Reg) (v : W32) : (c.wf r v).bg = c.bg := rfl
@[simp] theorem Core.setSr_bg (c : Core) (n : Nat) (v : W64) : (c.setSr n v).bg = c.bg := rfl
@[simp] theorem Core.setMail_bg (c : Core) (m : Nat) (l : List Msg) : (c.setMail m l).bg = c.bg := rfl
@[simp] theorem Core.setL1_bg (c : Core) (n : Nat) (l : L1Line) : (c.setL1 n l).bg = c.bg := rfl
@[simp] theorem Core.setDescWord_bg (c : Core) (k i : Nat) (v : W64) : (c.setDescWord k i v).bg = c.bg := rfl
@[simp] theorem Core.endLoop_bg (c : Core) (lv : Nat) : (c.endLoop lv).bg = c.bg := rfl
@[simp] theorem Core.wx_gather0 (c : Core) (r : Reg) (v : W64) : (c.wx r v).gather0 = c.gather0 := by unfold Core.wx; split <;> rfl
@[simp] theorem Core.wf_gather0 (c : Core) (r : Reg) (v : W32) : (c.wf r v).gather0 = c.gather0 := rfl
@[simp] theorem Core.setSr_gather0 (c : Core) (n : Nat) (v : W64) : (c.setSr n v).gather0 = c.gather0 := rfl
@[simp] theorem Core.setMail_gather0 (c : Core) (m : Nat) (l : List Msg) : (c.setMail m l).gather0 = c.gather0 := rfl
@[simp] theorem Core.setL1_gather0 (c : Core) (n : Nat) (l : L1Line) : (c.setL1 n l).gather0 = c.gather0 := rfl
@[simp] theorem Core.setDescWord_gather0 (c : Core) (k i : Nat) (v : W64) : (c.setDescWord k i v).gather0 = c.gather0 := rfl
@[simp] theorem Core.endLoop_gather0 (c : Core) (lv : Nat) : (c.endLoop lv).gather0 = c.gather0 := rfl
@[simp] theorem Core.wx_gather1 (c : Core) (r : Reg) (v : W64) : (c.wx r v).gather1 = c.gather1 := by unfold Core.wx; split <;> rfl
@[simp] theorem Core.wf_gather1 (c : Core) (r : Reg) (v : W32) : (c.wf r v).gather1 = c.gather1 := rfl
@[simp] theorem Core.setSr_gather1 (c : Core) (n : Nat) (v : W64) : (c.setSr n v).gather1 = c.gather1 := rfl
@[simp] theorem Core.setMail_gather1 (c : Core) (m : Nat) (l : List Msg) : (c.setMail m l).gather1 = c.gather1 := rfl
@[simp] theorem Core.setL1_gather1 (c : Core) (n : Nat) (l : L1Line) : (c.setL1 n l).gather1 = c.gather1 := rfl
@[simp] theorem Core.setDescWord_gather1 (c : Core) (k i : Nat) (v : W64) : (c.setDescWord k i v).gather1 = c.gather1 := rfl
@[simp] theorem Core.endLoop_gather1 (c : Core) (lv : Nat) : (c.endLoop lv).gather1 = c.gather1 := rfl
@[simp] theorem Core.wx_gbuf (c : Core) (r : Reg) (v : W64) : (c.wx r v).gbuf = c.gbuf := by unfold Core.wx; split <;> rfl
@[simp] theorem Core.wf_gbuf (c : Core) (r : Reg) (v : W32) : (c.wf r v).gbuf = c.gbuf := rfl
@[simp] theorem Core.setSr_gbuf (c : Core) (n : Nat) (v : W64) : (c.setSr n v).gbuf = c.gbuf := rfl
@[simp] theorem Core.setMail_gbuf (c : Core) (m : Nat) (l : List Msg) : (c.setMail m l).gbuf = c.gbuf := rfl
@[simp] theorem Core.setL1_gbuf (c : Core) (n : Nat) (l : L1Line) : (c.setL1 n l).gbuf = c.gbuf := rfl
@[simp] theorem Core.setDescWord_gbuf (c : Core) (k i : Nat) (v : W64) : (c.setDescWord k i v).gbuf = c.gbuf := rfl
@[simp] theorem Core.endLoop_gbuf (c : Core) (lv : Nat) : (c.endLoop lv).gbuf = c.gbuf := rfl
@[simp] theorem Core.wx_gbpois (c : Core) (r : Reg) (v : W64) : (c.wx r v).gbpois = c.gbpois := by unfold Core.wx; split <;> rfl
@[simp] theorem Core.wf_gbpois (c : Core) (r : Reg) (v : W32) : (c.wf r v).gbpois = c.gbpois := rfl
@[simp] theorem Core.setSr_gbpois (c : Core) (n : Nat) (v : W64) : (c.setSr n v).gbpois = c.gbpois := rfl
@[simp] theorem Core.setMail_gbpois (c : Core) (m : Nat) (l : List Msg) : (c.setMail m l).gbpois = c.gbpois := rfl
@[simp] theorem Core.setL1_gbpois (c : Core) (n : Nat) (l : L1Line) : (c.setL1 n l).gbpois = c.gbpois := rfl
@[simp] theorem Core.setDescWord_gbpois (c : Core) (k i : Nat) (v : W64) : (c.setDescWord k i v).gbpois = c.gbpois := rfl
@[simp] theorem Core.endLoop_gbpois (c : Core) (lv : Nat) : (c.endLoop lv).gbpois = c.gbpois := rfl
@[simp] theorem Core.wx_gbBad (c : Core) (r : Reg) (v : W64) : (c.wx r v).gbBad = c.gbBad := by unfold Core.wx; split <;> rfl
@[simp] theorem Core.wf_gbBad (c : Core) (r : Reg) (v : W32) : (c.wf r v).gbBad = c.gbBad := rfl
@[simp] theorem Core.setSr_gbBad (c : Core) (n : Nat) (v : W64) : (c.setSr n v).gbBad = c.gbBad := rfl
@[simp] theorem Core.setMail_gbBad (c : Core) (m : Nat) (l : List Msg) : (c.setMail m l).gbBad = c.gbBad := rfl
@[simp] theorem Core.setL1_gbBad (c : Core) (n : Nat) (l : L1Line) : (c.setL1 n l).gbBad = c.gbBad := rfl
@[simp] theorem Core.setDescWord_gbBad (c : Core) (k i : Nat) (v : W64) : (c.setDescWord k i v).gbBad = c.gbBad := rfl
@[simp] theorem Core.endLoop_gbBad (c : Core) (lv : Nat) : (c.endLoop lv).gbBad = c.gbBad := rfl
@[simp] theorem Core.wx_tldStops (c : Core) (r : Reg) (v : W64) : (c.wx r v).tldStops = c.tldStops := by unfold Core.wx; split <;> rfl
@[simp] theorem Core.wf_tldStops (c : Core) (r : Reg) (v : W32) : (c.wf r v).tldStops = c.tldStops := rfl
@[simp] theorem Core.setSr_tldStops (c : Core) (n : Nat) (v : W64) : (c.setSr n v).tldStops = c.tldStops := rfl
@[simp] theorem Core.setMail_tldStops (c : Core) (m : Nat) (l : List Msg) : (c.setMail m l).tldStops = c.tldStops := rfl
@[simp] theorem Core.setL1_tldStops (c : Core) (n : Nat) (l : L1Line) : (c.setL1 n l).tldStops = c.tldStops := rfl
@[simp] theorem Core.setDescWord_tldStops (c : Core) (k i : Nat) (v : W64) : (c.setDescWord k i v).tldStops = c.tldStops := rfl
@[simp] theorem Core.endLoop_tldStops (c : Core) (lv : Nat) : (c.endLoop lv).tldStops = c.tldStops := rfl
@[simp] theorem Core.wx_l1 (c : Core) (r : Reg) (v : W64) : (c.wx r v).l1 = c.l1 := by unfold Core.wx; split <;> rfl
@[simp] theorem Core.wf_l1 (c : Core) (r : Reg) (v : W32) : (c.wf r v).l1 = c.l1 := rfl
@[simp] theorem Core.setSr_l1 (c : Core) (n : Nat) (v : W64) : (c.setSr n v).l1 = c.l1 := rfl
@[simp] theorem Core.setMail_l1 (c : Core) (m : Nat) (l : List Msg) : (c.setMail m l).l1 = c.l1 := rfl
@[simp] theorem Core.setDescWord_l1 (c : Core) (k i : Nat) (v : W64) : (c.setDescWord k i v).l1 = c.l1 := rfl
@[simp] theorem Core.endLoop_l1 (c : Core) (lv : Nat) : (c.endLoop lv).l1 = c.l1 := rfl
@[simp] theorem Core.wx_l1clock (c : Core) (r : Reg) (v : W64) : (c.wx r v).l1clock = c.l1clock := by unfold Core.wx; split <;> rfl
@[simp] theorem Core.wf_l1clock (c : Core) (r : Reg) (v : W32) : (c.wf r v).l1clock = c.l1clock := rfl
@[simp] theorem Core.setSr_l1clock (c : Core) (n : Nat) (v : W64) : (c.setSr n v).l1clock = c.l1clock := rfl
@[simp] theorem Core.setMail_l1clock (c : Core) (m : Nat) (l : List Msg) : (c.setMail m l).l1clock = c.l1clock := rfl
@[simp] theorem Core.setL1_l1clock (c : Core) (n : Nat) (l : L1Line) : (c.setL1 n l).l1clock = c.l1clock := rfl
@[simp] theorem Core.setDescWord_l1clock (c : Core) (k i : Nat) (v : W64) : (c.setDescWord k i v).l1clock = c.l1clock := rfl
@[simp] theorem Core.endLoop_l1clock (c : Core) (lv : Nat) : (c.endLoop lv).l1clock = c.l1clock := rfl
@[simp] theorem Core.wx_icache (c : Core) (r : Reg) (v : W64) : (c.wx r v).icache = c.icache := by unfold Core.wx; split <;> rfl
@[simp] theorem Core.wf_icache (c : Core) (r : Reg) (v : W32) : (c.wf r v).icache = c.icache := rfl
@[simp] theorem Core.setSr_icache (c : Core) (n : Nat) (v : W64) : (c.setSr n v).icache = c.icache := rfl
@[simp] theorem Core.setMail_icache (c : Core) (m : Nat) (l : List Msg) : (c.setMail m l).icache = c.icache := rfl
@[simp] theorem Core.setL1_icache (c : Core) (n : Nat) (l : L1Line) : (c.setL1 n l).icache = c.icache := rfl
@[simp] theorem Core.setDescWord_icache (c : Core) (k i : Nat) (v : W64) : (c.setDescWord k i v).icache = c.icache := rfl
@[simp] theorem Core.endLoop_icache (c : Core) (lv : Nat) : (c.endLoop lv).icache = c.icache := rfl
@[simp] theorem Core.wx_icClock (c : Core) (r : Reg) (v : W64) : (c.wx r v).icClock = c.icClock := by unfold Core.wx; split <;> rfl
@[simp] theorem Core.wf_icClock (c : Core) (r : Reg) (v : W32) : (c.wf r v).icClock = c.icClock := rfl
@[simp] theorem Core.setSr_icClock (c : Core) (n : Nat) (v : W64) : (c.setSr n v).icClock = c.icClock := rfl
@[simp] theorem Core.setMail_icClock (c : Core) (m : Nat) (l : List Msg) : (c.setMail m l).icClock = c.icClock := rfl
@[simp] theorem Core.setL1_icClock (c : Core) (n : Nat) (l : L1Line) : (c.setL1 n l).icClock = c.icClock := rfl
@[simp] theorem Core.setDescWord_icClock (c : Core) (k i : Nat) (v : W64) : (c.setDescWord k i v).icClock = c.icClock := rfl
@[simp] theorem Core.endLoop_icClock (c : Core) (lv : Nat) : (c.endLoop lv).icClock = c.icClock := rfl
@[simp] theorem Core.wx_itlb (c : Core) (r : Reg) (v : W64) : (c.wx r v).itlb = c.itlb := by unfold Core.wx; split <;> rfl
@[simp] theorem Core.wf_itlb (c : Core) (r : Reg) (v : W32) : (c.wf r v).itlb = c.itlb := rfl
@[simp] theorem Core.setSr_itlb (c : Core) (n : Nat) (v : W64) : (c.setSr n v).itlb = c.itlb := rfl
@[simp] theorem Core.setMail_itlb (c : Core) (m : Nat) (l : List Msg) : (c.setMail m l).itlb = c.itlb := rfl
@[simp] theorem Core.setL1_itlb (c : Core) (n : Nat) (l : L1Line) : (c.setL1 n l).itlb = c.itlb := rfl
@[simp] theorem Core.setDescWord_itlb (c : Core) (k i : Nat) (v : W64) : (c.setDescWord k i v).itlb = c.itlb := rfl
@[simp] theorem Core.endLoop_itlb (c : Core) (lv : Nat) : (c.endLoop lv).itlb = c.itlb := rfl
@[simp] theorem Core.wx_dtlb (c : Core) (r : Reg) (v : W64) : (c.wx r v).dtlb = c.dtlb := by unfold Core.wx; split <;> rfl
@[simp] theorem Core.wf_dtlb (c : Core) (r : Reg) (v : W32) : (c.wf r v).dtlb = c.dtlb := rfl
@[simp] theorem Core.setSr_dtlb (c : Core) (n : Nat) (v : W64) : (c.setSr n v).dtlb = c.dtlb := rfl
@[simp] theorem Core.setMail_dtlb (c : Core) (m : Nat) (l : List Msg) : (c.setMail m l).dtlb = c.dtlb := rfl
@[simp] theorem Core.setL1_dtlb (c : Core) (n : Nat) (l : L1Line) : (c.setL1 n l).dtlb = c.dtlb := rfl
@[simp] theorem Core.setDescWord_dtlb (c : Core) (k i : Nat) (v : W64) : (c.setDescWord k i v).dtlb = c.dtlb := rfl
@[simp] theorem Core.endLoop_dtlb (c : Core) (lv : Nat) : (c.endLoop lv).dtlb = c.dtlb := rfl
@[simp] theorem Core.wx_stlb (c : Core) (r : Reg) (v : W64) : (c.wx r v).stlb = c.stlb := by unfold Core.wx; split <;> rfl
@[simp] theorem Core.wf_stlb (c : Core) (r : Reg) (v : W32) : (c.wf r v).stlb = c.stlb := rfl
@[simp] theorem Core.setSr_stlb (c : Core) (n : Nat) (v : W64) : (c.setSr n v).stlb = c.stlb := rfl
@[simp] theorem Core.setMail_stlb (c : Core) (m : Nat) (l : List Msg) : (c.setMail m l).stlb = c.stlb := rfl
@[simp] theorem Core.setL1_stlb (c : Core) (n : Nat) (l : L1Line) : (c.setL1 n l).stlb = c.stlb := rfl
@[simp] theorem Core.setDescWord_stlb (c : Core) (k i : Nat) (v : W64) : (c.setDescWord k i v).stlb = c.stlb := rfl
@[simp] theorem Core.endLoop_stlb (c : Core) (lv : Nat) : (c.endLoop lv).stlb = c.stlb := rfl
@[simp] theorem Core.wx_taskArrived (c : Core) (r : Reg) (v : W64) : (c.wx r v).taskArrived = c.taskArrived := by unfold Core.wx; split <;> rfl
@[simp] theorem Core.wf_taskArrived (c : Core) (r : Reg) (v : W32) : (c.wf r v).taskArrived = c.taskArrived := rfl
@[simp] theorem Core.setSr_taskArrived (c : Core) (n : Nat) (v : W64) : (c.setSr n v).taskArrived = c.taskArrived := rfl
@[simp] theorem Core.setMail_taskArrived (c : Core) (m : Nat) (l : List Msg) : (c.setMail m l).taskArrived = c.taskArrived := rfl
@[simp] theorem Core.setL1_taskArrived (c : Core) (n : Nat) (l : L1Line) : (c.setL1 n l).taskArrived = c.taskArrived := rfl
@[simp] theorem Core.setDescWord_taskArrived (c : Core) (k i : Nat) (v : W64) : (c.setDescWord k i v).taskArrived = c.taskArrived := rfl
@[simp] theorem Core.endLoop_taskArrived (c : Core) (lv : Nat) : (c.endLoop lv).taskArrived = c.taskArrived := rfl
@[simp] theorem Core.wx_taskRan (c : Core) (r : Reg) (v : W64) : (c.wx r v).taskRan = c.taskRan := by unfold Core.wx; split <;> rfl
@[simp] theorem Core.wf_taskRan (c : Core) (r : Reg) (v : W32) : (c.wf r v).taskRan = c.taskRan := rfl
@[simp] theorem Core.setSr_taskRan (c : Core) (n : Nat) (v : W64) : (c.setSr n v).taskRan = c.taskRan := rfl
@[simp] theorem Core.setMail_taskRan (c : Core) (m : Nat) (l : List Msg) : (c.setMail m l).taskRan = c.taskRan := rfl
@[simp] theorem Core.setL1_taskRan (c : Core) (n : Nat) (l : L1Line) : (c.setL1 n l).taskRan = c.taskRan := rfl
@[simp] theorem Core.setDescWord_taskRan (c : Core) (k i : Nat) (v : W64) : (c.setDescWord k i v).taskRan = c.taskRan := rfl
@[simp] theorem Core.endLoop_taskRan (c : Core) (lv : Nat) : (c.endLoop lv).taskRan = c.taskRan := rfl
@[simp] theorem Core.wx_parity (c : Core) (r : Reg) (v : W64) : (c.wx r v).parity = c.parity := by unfold Core.wx; split <;> rfl
@[simp] theorem Core.wf_parity (c : Core) (r : Reg) (v : W32) : (c.wf r v).parity = c.parity := rfl
@[simp] theorem Core.setSr_parity (c : Core) (n : Nat) (v : W64) : (c.setSr n v).parity = c.parity := rfl
@[simp] theorem Core.setMail_parity (c : Core) (m : Nat) (l : List Msg) : (c.setMail m l).parity = c.parity := rfl
@[simp] theorem Core.setL1_parity (c : Core) (n : Nat) (l : L1Line) : (c.setL1 n l).parity = c.parity := rfl
@[simp] theorem Core.setDescWord_parity (c : Core) (k i : Nat) (v : W64) : (c.setDescWord k i v).parity = c.parity := rfl
@[simp] theorem Core.endLoop_parity (c : Core) (lv : Nat) : (c.endLoop lv).parity = c.parity := rfl
@[simp] theorem Core.wx_ctlBody (c : Core) (r : Reg) (v : W64) : (c.wx r v).ctlBody = c.ctlBody := by unfold Core.wx; split <;> rfl
@[simp] theorem Core.wf_ctlBody (c : Core) (r : Reg) (v : W32) : (c.wf r v).ctlBody = c.ctlBody := rfl
@[simp] theorem Core.setSr_ctlBody (c : Core) (n : Nat) (v : W64) : (c.setSr n v).ctlBody = c.ctlBody := rfl
@[simp] theorem Core.setMail_ctlBody (c : Core) (m : Nat) (l : List Msg) : (c.setMail m l).ctlBody = c.ctlBody := rfl
@[simp] theorem Core.setL1_ctlBody (c : Core) (n : Nat) (l : L1Line) : (c.setL1 n l).ctlBody = c.ctlBody := rfl
@[simp] theorem Core.setDescWord_ctlBody (c : Core) (k i : Nat) (v : W64) : (c.setDescWord k i v).ctlBody = c.ctlBody := rfl
@[simp] theorem Core.endLoop_ctlBody (c : Core) (lv : Nat) : (c.endLoop lv).ctlBody = c.ctlBody := rfl
@[simp] theorem Core.wx_ctlMem (c : Core) (r : Reg) (v : W64) : (c.wx r v).ctlMem = c.ctlMem := by unfold Core.wx; split <;> rfl
@[simp] theorem Core.wf_ctlMem (c : Core) (r : Reg) (v : W32) : (c.wf r v).ctlMem = c.ctlMem := rfl
@[simp] theorem Core.setSr_ctlMem (c : Core) (n : Nat) (v : W64) : (c.setSr n v).ctlMem = c.ctlMem := rfl
@[simp] theorem Core.setMail_ctlMem (c : Core) (m : Nat) (l : List Msg) : (c.setMail m l).ctlMem = c.ctlMem := rfl
@[simp] theorem Core.setL1_ctlMem (c : Core) (n : Nat) (l : L1Line) : (c.setL1 n l).ctlMem = c.ctlMem := rfl
@[simp] theorem Core.setDescWord_ctlMem (c : Core) (k i : Nat) (v : W64) : (c.setDescWord k i v).ctlMem = c.ctlMem := rfl
@[simp] theorem Core.endLoop_ctlMem (c : Core) (lv : Nat) : (c.endLoop lv).ctlMem = c.ctlMem := rfl

@[simp] theorem Core.rx_zero (c : Core) : c.rx 0 = 0 := rfl
@[simp] theorem Core.rx_wx_same (c : Core) {r : Reg} (h : r ≠ 0) (v : W64) : (c.wx r v).rx r = v := by
  simp only [Core.rx, Core.wx, if_neg h]; exact SMap.get_set_same ..
theorem Core.rx_wx_other (c : Core) {r q : Reg} (h : q ≠ r) (v : W64) : (c.wx r v).rx q = c.rx q := by
  have h' : q.toNat ≠ r.toNat := fun e => h (BitVec.eq_of_toNat_eq e)
  unfold Core.rx Core.wx
  split
  · rfl
  · split
    · rfl
    · exact SMap.get_set_other 0 c.x h' v
@[simp] theorem Core.rf_wf_same (c : Core) (r : Reg) (v : W32) : (c.wf r v).rf r = v := SMap.get_set_same ..
theorem Core.rf_wf_other (c : Core) {r q : Reg} (h : q ≠ r) (v : W32) : (c.wf r v).rf q = c.rf q :=
  SMap.get_set_other 0 c.f (fun e => h (BitVec.eq_of_toNat_eq e)) v
@[simp] theorem Core.rf_wx (c : Core) (r q : Reg) (v : W64) : (c.wx r v).rf q = c.rf q := by simp [Core.rf]
@[simp] theorem Core.rx_wf (c : Core) (r q : Reg) (v : W32) : (c.wf r v).rx q = c.rx q := by simp [Core.rx]
@[simp] theorem Core.rx_setSr (c : Core) (n : Nat) (q : Reg) (v : W64) : (c.setSr n v).rx q = c.rx q := rfl
@[simp] theorem Core.rf_setSr (c : Core) (n : Nat) (q : Reg) (v : W64) : (c.setSr n v).rf q = c.rf q := rfl
@[simp] theorem Core.sr_wx (c : Core) (n : Nat) (q : Reg) (v : W64) : (c.wx q v).sr n = c.sr n := by simp [Core.sr]
@[simp] theorem Core.sr_wf (c : Core) (n : Nat) (q : Reg) (v : W32) : (c.wf q v).sr n = c.sr n := rfl
@[simp] theorem Core.sr_setSr_same (c : Core) (n : Nat) (v : W64) : (c.setSr n v).sr n = v := by simp [Core.sr, Core.setSr]
theorem Core.sr_setSr_other (c : Core) {n m : Nat} (h : m ≠ n) (v : W64) : (c.setSr n v).sr m = c.sr m :=
  SMap.get_set_other _ _ h _

/-! ### The queue and the count of free values -/

@[simp] theorem State.draw_cores (s : State) : s.draw.2.cores = s.cores := rfl
@[simp] theorem State.draw_atolls (s : State) : s.draw.2.atolls = s.atolls := rfl
@[simp] theorem State.draw_dies (s : State) : s.draw.2.dies = s.dies := rfl
@[simp] theorem State.draw_ports (s : State) : s.draw.2.ports = s.ports := rfl
@[simp] theorem State.draw_punits (s : State) : s.draw.2.punits = s.punits := rfl
@[simp] theorem State.draw_recs (s : State) : s.draw.2.recs = s.recs := rfl
@[simp] theorem State.draw_dets (s : State) : s.draw.2.dets = s.dets := rfl
@[simp] theorem State.draw_armed (s : State) : s.draw.2.armed = s.armed := rfl
@[simp] theorem State.draw_dram (s : State) : s.draw.2.dram = s.dram := rfl
@[simp] theorem State.draw_wireMsgs (s : State) : s.draw.2.wireMsgs = s.wireMsgs := rfl
@[simp] theorem State.draw_wireAcks (s : State) : s.draw.2.wireAcks = s.wireAcks := rfl
@[simp] theorem State.draw_wireWakes (s : State) : s.draw.2.wireWakes = s.wireWakes := rfl
@[simp] theorem State.draw_snap (s : State) : s.draw.2.snap = s.snap := rfl
@[simp] theorem State.draw_restore (s : State) : s.draw.2.restore = s.restore := rfl
@[simp] theorem State.draw_board (s : State) : s.draw.2.board = s.board := rfl
@[simp] theorem State.draw_pending (s : State) : s.draw.2.pending = s.pending := rfl
@[simp] theorem State.draw_free (s : State) : s.draw.2.free = s.free + 1 := rfl

end Sys2Proof.Machine
end

