-- ==== Sys2Proof/Laws/Dram.lean ====
section
/-! SUPPORT. What every operation over memory keeps: DRAM stays in its canonical form and the queue is untouched. -/

namespace Sys2Proof.Machine
open Sys2Proof

/-- A change of the state that leaves the queue alone and DRAM canonical. -/
def State.Keeps (s t : State) : Prop := t.pending = s.pending ∧ (s.dram.wf = true → t.dram.wf = true)

theorem State.Keeps.refl (s : State) : s.Keeps s := ⟨rfl, id⟩

theorem State.Keeps.trans {s t u : State} (h : s.Keeps t) (g : t.Keeps u) : s.Keeps u :=
  ⟨g.1.trans h.1, fun w => g.2 (h.2 w)⟩

/-- A change of neither memory nor the queue. -/
theorem State.Keeps.of_eq {s t : State} (hp : t.pending = s.pending) (hd : t.dram = s.dram) : s.Keeps t :=
  ⟨hp, fun w => hd ▸ w⟩

/-- A fold of keeping changes keeps. -/
theorem State.keeps_foldl {α : Type} (f : State → α → State) (h : ∀ (s : State) (a : α), s.Keeps (f s a)) (l : List α) (s : State) :
    s.Keeps (l.foldl f s) := by
  induction l generalizing s with
  | nil => exact .refl s
  | cons a l ih => exact (h s a).trans (ih _)

/-- A fold whose accumulator carries the state beside a result keeps, where each turn does. -/
theorem State.keeps_foldl_snd {α β : Type} (f : β × State → α → β × State) (h : ∀ (b : β × State) (a : α), b.2.Keeps (f b a).2) (l : List α)
    (b : β × State) : b.2.Keeps (l.foldl f b).2 := by
  induction l generalizing b with
  | nil => exact .refl _
  | cons a l ih => exact (h b a).trans (ih _)

theorem Dram.wf_iff (m : Dram) : m.wf = true ↔ SMap.wf (fun _ => 0) m.bytes = true ∧ SMap.wf (fun _ => 0) m.ecc = true := by
  simp [Dram.wf]

theorem SMap.wf_filter {α : Type} [DecidableEq α] {d : Nat → α} (p : Nat × α → Bool) {m : SMap α} (h : SMap.wf d m = true) :
    SMap.wf d (m.filter p) = true := by
  induction m with
  | nil => simp [SMap.wf]
  | cons x m ih =>
    obtain ⟨h1, h2, h3⟩ := SMap.wf_cons.mp h
    simp only [List.filter_cons]
    split
    · exact SMap.wf_cons.mpr ⟨h1, fun q hq => h2 q (List.mem_of_mem_filter hq), ih h3⟩
    · exact ih h3

/-! ### Arbiters -/

/-- A request that enters an arbiter changes its die alone. -/
@[simp] theorem State.postAt_dram (s : State) (c : Nat) (r : List Nat) : (s.postAt c r).dram = s.dram := by
  unfold State.postAt; split
  · rfl
  · split_ifs <;> rfl
@[simp] theorem State.postAt_pending (s : State) (c : Nat) (r : List Nat) : (s.postAt c r).pending = s.pending := by
  unfold State.postAt; split
  · rfl
  · split_ifs <;> rfl
@[simp] theorem State.postRecorder_dram (s : State) (u c l : Nat) : (s.postRecorder u c l).dram = s.dram := by
  unfold State.postRecorder; split <;> simp
@[simp] theorem State.postRecorder_pending (s : State) (u c l : Nat) : (s.postRecorder u c l).pending = s.pending := by
  unfold State.postRecorder; split <;> simp

/-! ### Detectors and notices -/

@[simp] theorem State.notice_dram (s : State) (k n : Nat) : (s.notice k n).dram = s.dram := rfl
@[simp] theorem State.notice_pending (s : State) (k n : Nat) : (s.notice k n).pending = s.pending := rfl

@[simp] theorem State.record_dram (s : State) (u : Nat) (r : Report) : (s.record u r).dram = s.dram := by
  unfold State.record; simp only []; split
  · rfl
  · split <;> simp [State.updBoard, State.setRec]
@[simp] theorem State.record_pending (s : State) (u : Nat) (r : Report) : (s.record u r).pending = s.pending := by
  unfold State.record; simp only []; split
  · rfl
  · split <;> simp [State.updBoard, State.setRec]

@[simp] theorem State.detect_dram (s : State) (u : Nat) (r : Report) : (s.detect u r).dram = s.dram := by
  unfold State.detect; simp only []; split
  · split <;> simp
  · simp
@[simp] theorem State.detect_pending (s : State) (u : Nat) (r : Report) : (s.detect u r).pending = s.pending := by
  unfold State.detect; simp only []; split
  · split <;> simp
  · simp

@[simp] theorem State.dramDetect_dram (s : State) (d c v l : Nat) (i : Bool) : (s.dramDetect d c v l i).dram = s.dram := by
  simp only [State.dramDetect, State.draw, State.detect_dram]
  split <;> rfl
@[simp] theorem State.dramDetect_pending (s : State) (d c v l : Nat) (i : Bool) :
    (s.dramDetect d c v l i).pending = s.pending := by
  simp only [State.dramDetect, State.draw, State.detect_pending]
  split <;> rfl

theorem State.keeps_takeArmed (s : State) (u n l : Nat) : s.Keeps (s.takeArmed u n l).2 := by
  unfold State.takeArmed; simp only []; split <;> exact .of_eq rfl rfl

/-! ### Memory -/

@[simp] theorem State.postDram_dram (s : State) (p : Place) (d a c m : Nat) : (s.postDram p d a c m).dram = s.dram := by
  simp [State.postDram]
@[simp] theorem State.postDram_pending (s : State) (p : Place) (d a c m : Nat) :
    (s.postDram p d a c m).pending = s.pending := by
  simp [State.postDram]
@[simp] theorem State.countRd_dram (s : State) (d n : Nat) : (s.countRd d n).dram = s.dram := rfl
@[simp] theorem State.countRd_pending (s : State) (d n : Nat) : (s.countRd d n).pending = s.pending := rfl
@[simp] theorem State.countWr_dram (s : State) (d n : Nat) : (s.countWr d n).dram = s.dram := rfl
@[simp] theorem State.countWr_pending (s : State) (d n : Nat) : (s.countWr d n).pending = s.pending := rfl

/-- Marking a line keeps. -/
theorem State.keeps_setEcc (s : State) (l v : Nat) : s.Keeps (s.setEcc l v) :=
  ⟨rfl, fun w => (Dram.wf_iff _).mpr ⟨((Dram.wf_iff _).mp w).1, SMap.wf_set ((Dram.wf_iff _).mp w).2⟩⟩

/-- A read of a line keeps. -/
theorem State.keeps_dramRead (s : State) (p : Place) (l d m : Nat) : s.Keeps (s.dramRead p l d m).2 := by
  unfold State.dramRead
  split
  · simp only []
    split
    · exact .of_eq (by simp) (by simp)
    · split
      · exact (State.Keeps.of_eq (by simp) (by simp)).trans (State.keeps_setEcc _ _ _)
      · split <;> exact .of_eq (by simp) (by simp)
  · exact .refl s

/-- A write of a line keeps. -/
theorem State.keeps_dramWrite (s : State) (p : Place) (l : Nat) (v : LineData) (k : LineMask) (q d m : Nat) :
    s.Keeps (s.dramWrite p l v k q d m) := by
  unfold State.dramWrite
  split
  · simp only []
    refine State.Keeps.trans (t := _) ?_ (State.keeps_setEcc _ _ _)
    refine ⟨?_, fun w => ?_⟩
    · split <;> [simp; split <;> simp]
    · have : ∀ t : State, t.dram = s.dram → Dram.wf (t.dram.merge l v k) = true := fun t ht => by
        rw [ht]; exact (Dram.wf_iff _).mpr ⟨writeBytes_wf ((Dram.wf_iff _).mp w).1, ((Dram.wf_iff _).mp w).2⟩
      apply this
      split <;> [simp; split <;> simp]
  · exact .refl s

/-- A write of bytes keeps. -/
theorem State.keeps_physWrite (s : State) (p : Place) (a : Nat) (bs : List Byte) (d m : Nat) :
    s.Keeps (s.physWrite p a bs d m) :=
  State.keeps_foldl _ (fun s _ => s.keeps_dramWrite ..) _ s

/-- A read of bytes keeps. -/
theorem State.keeps_physRead (s : State) (p : Place) (a n d m : Nat) : s.Keeps (s.physRead p a n d m).2.2 :=
  State.keeps_foldl_snd (β := PhysErr) _ (fun b l => b.2.keeps_dramRead p l d m) _ (PhysErr.none, s)

/-- A machine check of a unit's own changes neither memory nor the queue. -/
theorem State.keeps_ctlMchk (s : State) (u : Nat) (m : Mchk) : s.Keeps (s.ctlMchk u m) := by
  refine .of_eq ?_ ?_ <;> unfold State.ctlMchk <;> simp only [] <;> split_ifs
  all_goals first
    | rfl
    | (split
       · unfold State.ctlEnter; simp only []; split_ifs <;>
           simp [State.haltAt, State.fatalNotice, State.raiseMchk, State.updCore, State.setCore]
       · rfl)

/-- The report of a hole keeps. -/
theorem State.keeps_holeRead (s : State) (u : Nat) (c : Bool) (l : Nat) : s.Keeps (s.holeRead u c l) := by
  unfold State.holeRead
  simp only []
  split_ifs
  · exact .trans (.of_eq (by simp [State.draw]) (by simp [State.draw])) (State.keeps_ctlMchk ..)
  · exact .of_eq (by simp [State.draw]) (by simp [State.draw])

/-- The report of poison keeps. -/
theorem State.keeps_poisonRead (s : State) (u l p : Nat) : s.Keeps (s.poisonRead u l p) :=
  .trans (.of_eq (by simp) (by simp)) (State.keeps_ctlMchk ..)

/-- A read of an agent keeps. -/
theorem State.keeps_agentRead (s : State) (u : Nat) (c : Bool) (p : Place) (a n d m : Nat) : s.Keeps (s.agentRead u c p a n d m).2.2 := by
  unfold State.agentRead
  refine State.Keeps.trans ?_ (State.keeps_foldl _ ?_ _ _)
  · exact (s.keeps_physRead p a n d m).trans (State.keeps_foldl _ (fun s l => s.keeps_holeRead u c l) _ _)
  · exact fun s x => s.keeps_poisonRead u x.1 x.2

/-- Losing a die's bytes keeps. -/
theorem State.keeps_dramLost (s : State) (d : Nat) : s.Keeps (s.dramLost d) :=
  ⟨rfl, fun w => (Dram.wf_iff _).mpr ⟨SMap.wf_filter _ ((Dram.wf_iff _).mp w).1, SMap.wf_filter _ ((Dram.wf_iff _).mp w).2⟩⟩

/-- Scrubbing pages keeps. -/
theorem State.keeps_scrub (s : State) (d a b : Nat) : s.Keeps (s.scrub d a b) :=
  ⟨rfl, fun w => (Dram.wf_iff _).mpr ⟨SMap.wf_filter _ ((Dram.wf_iff _).mp w).1, SMap.wf_filter _ ((Dram.wf_iff _).mp w).2⟩⟩

/-- At reset DRAM lists nothing. -/
theorem State.reset_dram_wf : State.reset.dram.wf = true := by decide

end Sys2Proof.Machine
end

