-- ==== Sys2Proof/WellFormed.lean ====
section
/-! DEFINITION. Which commands are well formed: the bounds that the manual puts on operands whose Lean type is wider. -/

namespace Sys2Proof

/-- The granule count of a resumable instruction that an interrupt or a halt cuts short (R88, R90). -/
def Instr.stopOf : Instr → Option Nat
  | .vadd _ v | .vsub _ v | .vmul _ v | .vdiv _ v | .vfma _ v | .vfms _ v | .vmin _ v | .vmax _ v | .vaddF _ v | .vsubF _ v
  | .vmulF _ v | .vfmaF _ v | .vmov _ v | .vneg _ v | .vabs _ v | .vsqrt _ v | .vrsqrt _ v | .vrecip _ v | .vexp _ v | .vlog _ v
  | .vtanh _ v | .vsigm _ v | .vgelu _ v | .vsilu _ v | .vand _ v | .vor _ v | .vxor _ v | .vshl _ v | .vsra _ v | .vsel _ v
  | .vfill _ v => v.stop
  | .vcmpEq _ v | .vcmpNe _ v | .vcmpLt _ v | .vcmpLe _ v | .vcmpGt _ v | .vcmpGe _ v | .vcmpUn _ v | .mand _ v | .mor _ v
  | .mxor _ v | .mnot _ v => v.stop
  | .vwmul _ v | .vwfma _ v | .vdot4 _ v => v.stop
  | .vcvt _ v _ => v.stop
  | .red _ v => v.stop
  | .mt5Vadd _ v | .mt5Vsub _ v | .mt5Vmul _ v | .mt5Vfma _ v | .mt5Vmin _ v | .mt5Vmax _ v | .mt5Vmov _ v | .mt5Vneg _ v
  | .mt5Vabs _ v | .mt5Vdiv _ v | .mt5Vsqrt _ v | .mt5Vrecip _ v | .mt5Vrsqrt _ v | .mt5Vexp _ v | .mt5Rsum _ v
  | .mt5Rmax _ v => v.stop
  | .tld _ _ _ _ stop => stop
  | .tst _ _ _ stop => stop
  | _ => none

/-- The segment and group that a reduction stage works on (R320, R322). -/
def Instr.groupOf : Instr → Option (Nat × Nat)
  | .dieStageAdd _ seg grp => some (seg, grp)
  | .nodeGroupAdd seg grp => some (seg, grp)
  | _ => none

/-- The bytes of physical memory that a command names itself (R404, R436). -/
def Instr.rangeOf : Instr → Option (Nat × Nat)
  | .traceOn _ pa bytes => some (pa, bytes)
  | .nvmePathTransfer (.toDram _ pa bytes _) => some (pa, bytes.length)
  | .nvmePathTransfer (.fromDram _ pa len _) => some (pa, len)
  | _ => none

/-- The bytes of the PCIe endpoint's windows that a request names, with the window's size (R435). -/
def Instr.windowOf : Instr → Option (Nat × Nat × Nat)
  | .pcieInboundRequest (.read off len) => some (off, len, 64 * 2 ^ 30)
  | .pcieInboundRequest (.write off bytes) => some (off, bytes.length, 64 * 2 ^ 30)
  | .pcieInboundRequest (.doorbell off bytes) => some (off, bytes.length, 2 ^ 20)
  | .pcieInboundRequest (.configRead off) => some (off, 4, 4096)
  | .pcieInboundRequest (.configWrite off _) => some (off, 4, 4096)
  | _ => none

/-- A frame carries as many payload bytes as its LEN says (R309). -/
def Instr.frameOk : Instr → Bool
  | .frameReceive _ f _ => f.payload.length == f.len.toNat
  | _ => true

/-- A scrubbed line lies in its die's window (R268); a debug request has at most 512 payload words (R441). -/
def Instr.countOk : Instr → Bool
  | .patrolScrub _ line => decide (line < 0xC000000000 / 128)
  | .debugRead _ _ regs => decide (regs.length < 512)
  | _ => true

/-- Every bound of the manual on the command's operands holds: the counts of granules (at most 65,536 elements, R116), NSEG (20 bits)
and ELEMS (24 bits) of R318 and R320, the 46-bit physical space of R267, and the windows of R435. -/
def Instr.wellFormed (i : Instr) : Bool :=
  (match i.stopOf with
    | some n => decide (n ≤ 65536)
    | none => true)
    && (match i.groupOf with
      | some (seg, grp) => decide (seg < 2 ^ 20 ∧ grp < 2 ^ 19)
      | none => true)
    && (match i.rangeOf with
      | some (pa, n) => decide (pa + n ≤ 2 ^ 46)
      | none => true)
    && (match i.windowOf with
      | some (off, n, size) => decide (off + n ≤ size)
      | none => true)
    && i.frameOk && i.countOk

end Sys2Proof
end

