-- ==== Sys2Proof/Laws/PerInstr.lean ====
section
/-! SUPPORT. What well-formedness gives, command by command: the counts, groups and memory ranges that a well-formed command names
lie within the manual's bounds. -/

namespace Sys2Proof.Laws.WellFormed
open Sys2Proof

/-- A well-formed command stops a resumable instruction within its 65,536 elements, names a segment and group that fit their fields,
and names physical memory within 46 bits only. -/
def Statement (i : Instr) : Prop :=
  i.wellFormed = true → (∀ n, i.stopOf = some n → n ≤ 65536) ∧ (∀ g, i.groupOf = some g → g.1 < 2 ^ 20 ∧ g.2 < 2 ^ 19)
    ∧ (∀ r, i.rangeOf = some r → r.1 + r.2 ≤ 2 ^ 46) ∧ ∀ w, i.windowOf = some w → w.1 + w.2.1 ≤ w.2.2

/-- The bounds follow from the check itself. -/
theorem of_check (i : Instr) : Statement i := by
  intro h
  simp only [Instr.wellFormed, Bool.and_eq_true] at h
  obtain ⟨⟨⟨⟨⟨h1, h2⟩, h3⟩, h4⟩, -⟩, -⟩ := h
  refine ⟨fun n e => ?_, fun g e => ?_, fun r e => ?_, fun w e => ?_⟩
  · rw [e] at h1; simpa using h1
  · rw [e] at h2; simpa using h2
  · rw [e] at h3; simpa using h3
  · rw [e] at h4; simpa using h4

theorem add (c : CoreId) (d a b : Reg) : Statement (.add c d a b) := of_check _
theorem sub (c : CoreId) (d a b : Reg) : Statement (.sub c d a b) := of_check _
theorem and (c : CoreId) (d a b : Reg) : Statement (.and c d a b) := of_check _
theorem or (c : CoreId) (d a b : Reg) : Statement (.or c d a b) := of_check _
theorem xor (c : CoreId) (d a b : Reg) : Statement (.xor c d a b) := of_check _
theorem sll (c : CoreId) (d a b : Reg) : Statement (.sll c d a b) := of_check _
theorem srl (c : CoreId) (d a b : Reg) : Statement (.srl c d a b) := of_check _
theorem sra (c : CoreId) (d a b : Reg) : Statement (.sra c d a b) := of_check _
theorem slt (c : CoreId) (d a b : Reg) : Statement (.slt c d a b) := of_check _
theorem sltu (c : CoreId) (d a b : Reg) : Statement (.sltu c d a b) := of_check _
theorem min (c : CoreId) (d a b : Reg) : Statement (.min c d a b) := of_check _
theorem max (c : CoreId) (d a b : Reg) : Statement (.max c d a b) := of_check _
theorem minu (c : CoreId) (d a b : Reg) : Statement (.minu c d a b) := of_check _
theorem maxu (c : CoreId) (d a b : Reg) : Statement (.maxu c d a b) := of_check _
theorem clz (c : CoreId) (d a b : Reg) : Statement (.clz c d a b) := of_check _
theorem popc (c : CoreId) (d a b : Reg) : Statement (.popc c d a b) := of_check _
theorem addw (c : CoreId) (d a b : Reg) : Statement (.addw c d a b) := of_check _
theorem mul (c : CoreId) (d a b : Reg) : Statement (.mul c d a b) := of_check _
theorem mulh (c : CoreId) (d a b : Reg) : Statement (.mulh c d a b) := of_check _
theorem mulhu (c : CoreId) (d a b : Reg) : Statement (.mulhu c d a b) := of_check _
theorem div (c : CoreId) (d a b : Reg) : Statement (.div c d a b) := of_check _
theorem divu (c : CoreId) (d a b : Reg) : Statement (.divu c d a b) := of_check _
theorem rem (c : CoreId) (d a b : Reg) : Statement (.rem c d a b) := of_check _
theorem remu (c : CoreId) (d a b : Reg) : Statement (.remu c d a b) := of_check _
theorem addi (c : CoreId) (d a : Reg) (imm : BitVec 16) : Statement (.addi c d a imm) := of_check _
theorem andi (c : CoreId) (d a : Reg) (imm : BitVec 16) : Statement (.andi c d a imm) := of_check _
theorem ori (c : CoreId) (d a : Reg) (imm : BitVec 16) : Statement (.ori c d a imm) := of_check _
theorem xori (c : CoreId) (d a : Reg) (imm : BitVec 16) : Statement (.xori c d a imm) := of_check _
theorem slti (c : CoreId) (d a : Reg) (imm : BitVec 16) : Statement (.slti c d a imm) := of_check _
theorem slli (c : CoreId) (d a : Reg) (hi : BitVec 8) (sh : BitVec 6) : Statement (.slli c d a hi sh) := of_check _
theorem srli (c : CoreId) (d a : Reg) (hi : BitVec 8) (sh : BitVec 6) : Statement (.srli c d a hi sh) := of_check _
theorem srai (c : CoreId) (d a : Reg) (hi : BitVec 8) (sh : BitVec 6) : Statement (.srai c d a hi sh) := of_check _
theorem liz (c : CoreId) (d a : Reg) (imm : BitVec 16) : Statement (.liz c d a imm) := of_check _
theorem lik (c : CoreId) (d a : Reg) (imm : BitVec 16) : Statement (.lik c d a imm) := of_check _
theorem fadd (c : CoreId) (d a b : Reg) : Statement (.fadd c d a b) := of_check _
theorem fsub (c : CoreId) (d a b : Reg) : Statement (.fsub c d a b) := of_check _
theorem fmul (c : CoreId) (d a b : Reg) : Statement (.fmul c d a b) := of_check _
theorem fdiv (c : CoreId) (d a b : Reg) : Statement (.fdiv c d a b) := of_check _
theorem fsqrt (c : CoreId) (d a b : Reg) : Statement (.fsqrt c d a b) := of_check _
theorem fmin (c : CoreId) (d a b : Reg) : Statement (.fmin c d a b) := of_check _
theorem fmax (c : CoreId) (d a b : Reg) : Statement (.fmax c d a b) := of_check _
theorem fma (c : CoreId) (d a b : Reg) : Statement (.fma c d a b) := of_check _
theorem fcvtW (c : CoreId) (d a b : Reg) : Statement (.fcvtW c d a b) := of_check _
theorem fcvtF (c : CoreId) (d a b : Reg) : Statement (.fcvtF c d a b) := of_check _
theorem fmvX (c : CoreId) (d a b : Reg) : Statement (.fmvX c d a b) := of_check _
theorem fmvF (c : CoreId) (d a b : Reg) : Statement (.fmvF c d a b) := of_check _
theorem feq (c : CoreId) (d a b : Reg) : Statement (.feq c d a b) := of_check _
theorem flt (c : CoreId) (d a b : Reg) : Statement (.flt c d a b) := of_check _
theorem lb (c : CoreId) (d a : Reg) (imm : BitVec 16) : Statement (.lb c d a imm) := of_check _
theorem lbu (c : CoreId) (d a : Reg) (imm : BitVec 16) : Statement (.lbu c d a imm) := of_check _
theorem lh (c : CoreId) (d a : Reg) (imm : BitVec 16) : Statement (.lh c d a imm) := of_check _
theorem lhu (c : CoreId) (d a : Reg) (imm : BitVec 16) : Statement (.lhu c d a imm) := of_check _
theorem lw (c : CoreId) (d a : Reg) (imm : BitVec 16) : Statement (.lw c d a imm) := of_check _
theorem lwu (c : CoreId) (d a : Reg) (imm : BitVec 16) : Statement (.lwu c d a imm) := of_check _
theorem ld (c : CoreId) (d a : Reg) (imm : BitVec 16) : Statement (.ld c d a imm) := of_check _
theorem flw (c : CoreId) (d a : Reg) (imm : BitVec 16) : Statement (.flw c d a imm) := of_check _
theorem sb (c : CoreId) (r a : Reg) (imm : BitVec 16) : Statement (.sb c r a imm) := of_check _
theorem sh (c : CoreId) (r a : Reg) (imm : BitVec 16) : Statement (.sh c r a imm) := of_check _
theorem sw (c : CoreId) (r a : Reg) (imm : BitVec 16) : Statement (.sw c r a imm) := of_check _
theorem sd (c : CoreId) (r a : Reg) (imm : BitVec 16) : Statement (.sd c r a imm) := of_check _
theorem fsw (c : CoreId) (r a : Reg) (imm : BitVec 16) : Statement (.fsw c r a imm) := of_check _
theorem beq (c : CoreId) (a b : Reg) (off : BitVec 16) : Statement (.beq c a b off) := of_check _
theorem bne (c : CoreId) (a b : Reg) (off : BitVec 16) : Statement (.bne c a b off) := of_check _
theorem blt (c : CoreId) (a b : Reg) (off : BitVec 16) : Statement (.blt c a b off) := of_check _
theorem bge (c : CoreId) (a b : Reg) (off : BitVec 16) : Statement (.bge c a b off) := of_check _
theorem bltu (c : CoreId) (a b : Reg) (off : BitVec 16) : Statement (.bltu c a b off) := of_check _
theorem bgeu (c : CoreId) (a b : Reg) (off : BitVec 16) : Statement (.bgeu c a b off) := of_check _
theorem jmp (c : CoreId) (off : BitVec 26) : Statement (.jmp c off) := of_check _
theorem call (c : CoreId) (off : BitVec 26) : Statement (.call c off) := of_check _
theorem jr (c : CoreId) (d a : Reg) (imm : BitVec 16) : Statement (.jr c d a imm) := of_check _
theorem loop (c : CoreId) (a : Reg) (n : BitVec 12) : Statement (.loop c a n) := of_check _
theorem loopi (c : CoreId) (count : BitVec 14) (n : BitVec 12) : Statement (.loopi c count n) := of_check _
theorem srr (c : CoreId) (d a : Reg) (n : BitVec 12) : Statement (.srr c d a n) := of_check _
theorem srw (c : CoreId) (d a : Reg) (n : BitVec 12) : Statement (.srw c d a n) := of_check _
theorem srset (c : CoreId) (d a : Reg) (n : BitVec 12) : Statement (.srset c d a n) := of_check _
theorem srclr (c : CoreId) (d a : Reg) (n : BitVec 12) : Statement (.srclr c d a n) := of_check _
theorem loopRegWrite (c : CoreId) (op : SrOp) (d a : Reg) (level : Fin 2) (part : Fin 3) : Statement (.loopRegWrite c op d a level part) := of_check _
theorem ctrCmpWrite (c : CoreId) (op : SrOp) (d a : Reg) : Statement (.ctrCmpWrite c op d a) := of_check _
theorem timerExpiry (c : CoreId) : Statement (.timerExpiry c) := of_check _
theorem send (c : CoreId) (a b : Reg) (len : BitVec 4) : Statement (.send c a b len) := of_check _
theorem recv (c : CoreId) (d : Reg) (mbx : BitVec 4) : Statement (.recv c d mbx) := of_check _
theorem recvComplete (c : CoreId) : Statement (.recvComplete c) := of_check _
theorem recvNb (c : CoreId) (d : Reg) (mbx : BitVec 4) : Statement (.recvNb c d mbx) := of_check _
theorem messageLaunch (c : CoreId) : Statement (.messageLaunch c) := of_check _
theorem messageArrival (i : Nat) : Statement (.messageArrival i) := of_check _
theorem ackArrival (i : Nat) : Statement (.ackArrival i) := of_check _
theorem wakeArrival (i : Nat) : Statement (.wakeArrival i) := of_check _
theorem refuseRetryTimeout (c : CoreId) (i : Nat) : Statement (.refuseRetryTimeout c i) := of_check _
theorem reservationLapse (c : CoreId) (mbx : BitVec 4) : Statement (.reservationLapse c mbx) := of_check _
theorem pepochWrite (c : CoreId) (op : SrOp) (d a : Reg) : Statement (.pepochWrite c op d a) := of_check _
theorem gate (c : CoreId) (k : BitVec 7) : Statement (.gate c k) := of_check _
theorem cret (c : CoreId) : Statement (.cret c) := of_check _
theorem sret (c : CoreId) : Statement (.sret c) := of_check _
theorem mret (c : CoreId) : Statement (.mret c) := of_check _
theorem takeInterrupt (c : CoreId) : Statement (.takeInterrupt c) := of_check _
theorem vadd (c : CoreId) (v : VArgs) : Statement (.vadd c v) := of_check _
theorem vsub (c : CoreId) (v : VArgs) : Statement (.vsub c v) := of_check _
theorem vmul (c : CoreId) (v : VArgs) : Statement (.vmul c v) := of_check _
theorem vdiv (c : CoreId) (v : VArgs) : Statement (.vdiv c v) := of_check _
theorem vfma (c : CoreId) (v : VArgs) : Statement (.vfma c v) := of_check _
theorem vfms (c : CoreId) (v : VArgs) : Statement (.vfms c v) := of_check _
theorem vmin (c : CoreId) (v : VArgs) : Statement (.vmin c v) := of_check _
theorem vmax (c : CoreId) (v : VArgs) : Statement (.vmax c v) := of_check _
theorem vaddF (c : CoreId) (v : VArgs) : Statement (.vaddF c v) := of_check _
theorem vsubF (c : CoreId) (v : VArgs) : Statement (.vsubF c v) := of_check _
theorem vmulF (c : CoreId) (v : VArgs) : Statement (.vmulF c v) := of_check _
theorem vfmaF (c : CoreId) (v : VArgs) : Statement (.vfmaF c v) := of_check _
theorem vmov (c : CoreId) (v : VArgs) : Statement (.vmov c v) := of_check _
theorem vneg (c : CoreId) (v : VArgs) : Statement (.vneg c v) := of_check _
theorem vabs (c : CoreId) (v : VArgs) : Statement (.vabs c v) := of_check _
theorem vsqrt (c : CoreId) (v : VArgs) : Statement (.vsqrt c v) := of_check _
theorem vrsqrt (c : CoreId) (v : VArgs) : Statement (.vrsqrt c v) := of_check _
theorem vrecip (c : CoreId) (v : VArgs) : Statement (.vrecip c v) := of_check _
theorem vexp (c : CoreId) (v : VArgs) : Statement (.vexp c v) := of_check _
theorem vlog (c : CoreId) (v : VArgs) : Statement (.vlog c v) := of_check _
theorem vtanh (c : CoreId) (v : VArgs) : Statement (.vtanh c v) := of_check _
theorem vsigm (c : CoreId) (v : VArgs) : Statement (.vsigm c v) := of_check _
theorem vgelu (c : CoreId) (v : VArgs) : Statement (.vgelu c v) := of_check _
theorem vsilu (c : CoreId) (v : VArgs) : Statement (.vsilu c v) := of_check _
theorem vand (c : CoreId) (v : VArgs) : Statement (.vand c v) := of_check _
theorem vor (c : CoreId) (v : VArgs) : Statement (.vor c v) := of_check _
theorem vxor (c : CoreId) (v : VArgs) : Statement (.vxor c v) := of_check _
theorem vshl (c : CoreId) (v : VArgs) : Statement (.vshl c v) := of_check _
theorem vsra (c : CoreId) (v : VArgs) : Statement (.vsra c v) := of_check _
theorem vsel (c : CoreId) (v : VArgs) : Statement (.vsel c v) := of_check _
theorem vfill (c : CoreId) (v : VArgs) : Statement (.vfill c v) := of_check _
theorem vcmpEq (c : CoreId) (v : CmpArgs) : Statement (.vcmpEq c v) := of_check _
theorem vcmpNe (c : CoreId) (v : CmpArgs) : Statement (.vcmpNe c v) := of_check _
theorem vcmpLt (c : CoreId) (v : CmpArgs) : Statement (.vcmpLt c v) := of_check _
theorem vcmpLe (c : CoreId) (v : CmpArgs) : Statement (.vcmpLe c v) := of_check _
theorem vcmpGt (c : CoreId) (v : CmpArgs) : Statement (.vcmpGt c v) := of_check _
theorem vcmpGe (c : CoreId) (v : CmpArgs) : Statement (.vcmpGe c v) := of_check _
theorem vcmpUn (c : CoreId) (v : CmpArgs) : Statement (.vcmpUn c v) := of_check _
theorem mand (c : CoreId) (v : CmpArgs) : Statement (.mand c v) := of_check _
theorem mor (c : CoreId) (v : CmpArgs) : Statement (.mor c v) := of_check _
theorem mxor (c : CoreId) (v : CmpArgs) : Statement (.mxor c v) := of_check _
theorem mnot (c : CoreId) (v : CmpArgs) : Statement (.mnot c v) := of_check _
theorem vwmul (c : CoreId) (v : WideArgs) : Statement (.vwmul c v) := of_check _
theorem vwfma (c : CoreId) (v : WideArgs) : Statement (.vwfma c v) := of_check _
theorem vdot4 (c : CoreId) (v : WideArgs) : Statement (.vdot4 c v) := of_check _
theorem vcvt (c : CoreId) (v : WideArgs) (src : BitVec 3) : Statement (.vcvt c v src) := of_check _
theorem red (c : CoreId) (v : RedArgs) : Statement (.red c v) := of_check _
theorem rclr (c : CoreId) (acc : BitVec 2) (op : BitVec 3) : Statement (.rclr c acc op) := of_check _
theorem rget (c : CoreId) (f : Reg) (acc : BitVec 2) : Statement (.rget c f acc) := of_check _
theorem rput (c : CoreId) (f : Reg) (acc : BitVec 2) : Statement (.rput c f acc) := of_check _
theorem setvl (c : CoreId) (d a : Reg) : Statement (.setvl c d a) := of_check _
theorem setvli (c : CoreId) (d : Reg) (imm : BitVec 12) : Statement (.setvli c d imm) := of_check _
theorem padd (c : CoreId) (k : BitVec 4) (imm : BitVec 12) : Statement (.padd c k imm) := of_check _
theorem mt5Vadd (c : CoreId) (v : CompatArgs) : Statement (.mt5Vadd c v) := of_check _
theorem mt5Vsub (c : CoreId) (v : CompatArgs) : Statement (.mt5Vsub c v) := of_check _
theorem mt5Vmul (c : CoreId) (v : CompatArgs) : Statement (.mt5Vmul c v) := of_check _
theorem mt5Vfma (c : CoreId) (v : CompatArgs) : Statement (.mt5Vfma c v) := of_check _
theorem mt5Vmin (c : CoreId) (v : CompatArgs) : Statement (.mt5Vmin c v) := of_check _
theorem mt5Vmax (c : CoreId) (v : CompatArgs) : Statement (.mt5Vmax c v) := of_check _
theorem mt5Vmov (c : CoreId) (v : CompatArgs) : Statement (.mt5Vmov c v) := of_check _
theorem mt5Vneg (c : CoreId) (v : CompatArgs) : Statement (.mt5Vneg c v) := of_check _
theorem mt5Vabs (c : CoreId) (v : CompatArgs) : Statement (.mt5Vabs c v) := of_check _
theorem mt5Vdiv (c : CoreId) (v : CompatArgs) : Statement (.mt5Vdiv c v) := of_check _
theorem mt5Vsqrt (c : CoreId) (v : CompatArgs) : Statement (.mt5Vsqrt c v) := of_check _
theorem mt5Vrecip (c : CoreId) (v : CompatArgs) : Statement (.mt5Vrecip c v) := of_check _
theorem mt5Vrsqrt (c : CoreId) (v : CompatArgs) : Statement (.mt5Vrsqrt c v) := of_check _
theorem mt5Vexp (c : CoreId) (v : CompatArgs) : Statement (.mt5Vexp c v) := of_check _
theorem mt5Rsum (c : CoreId) (v : CompatArgs) : Statement (.mt5Rsum c v) := of_check _
theorem mt5Rmax (c : CoreId) (v : CompatArgs) : Statement (.mt5Rmax c v) := of_check _
theorem dld (c : CoreId) (k : BitVec 4) (a : Reg) : Statement (.dld c k a) := of_check _
theorem dst (c : CoreId) (k : BitVec 4) (a : Reg) : Statement (.dst c k a) := of_check _
theorem dbase (c : CoreId) (k : BitVec 4) (a : Reg) : Statement (.dbase c k a) := of_check _
theorem daddb (c : CoreId) (k : BitVec 4) (a : Reg) : Statement (.daddb c k a) := of_check _
theorem sgo (c : CoreId) (k : BitVec 3) (ds dd : BitVec 4) (a : Reg) : Statement (.sgo c k ds dd a) := of_check _
theorem swait (c : CoreId) (k : BitVec 3) (a : Reg) : Statement (.swait c k a) := of_check _
theorem swaitComplete (c : CoreId) : Statement (.swaitComplete c) := of_check _
theorem scred (c : CoreId) (k : BitVec 3) (a : Reg) : Statement (.scred c k a) := of_check _
theorem sresume (c : CoreId) (k : BitVec 3) : Statement (.sresume c k) := of_check _
theorem sstop (c : CoreId) (k : BitVec 3) : Statement (.sstop c k) := of_check _
theorem scancel (c : CoreId) (k : BitVec 3) : Statement (.scancel c k) := of_check _
theorem lbar (c : CoreId) : Statement (.lbar c) := of_check _
theorem lbarComplete (c : CoreId) : Statement (.lbarComplete c) := of_check _
theorem streamGranule (c : CoreId) : Statement (.streamGranule c) := of_check _
theorem tld (c : CoreId) (tile : BitVec 6) (dn : BitVec 4) (tfmt : BitVec 5) (stop : Option Nat) : Statement (.tld c tile dn tfmt stop) := of_check _
theorem tst (c : CoreId) (tile : BitVec 6) (dn : BitVec 4) (stop : Option Nat) : Statement (.tst c tile dn stop) := of_check _
theorem trel (c : CoreId) (tile : BitVec 6) : Statement (.trel c tile) := of_check _
theorem tileReleaseComplete (c : CoreId) (tile : BitVec 6) : Statement (.tileReleaseComplete c tile) := of_check _
theorem tcfg (c : CoreId) (a b : Reg) : Statement (.tcfg c a b) := of_check _
theorem tmov (c : CoreId) (tile : BitVec 6) (pk : BitVec 4) (dir : BitVec 2) (tfmt ofmt : BitVec 5) : Statement (.tmov c tile pk dir tfmt ofmt) := of_check _
theorem tmovRun (c : CoreId) : Statement (.tmovRun c) := of_check _
theorem mmf (c : CoreId) (m : MmArgs) (keep : Bool) : Statement (.mmf c m keep) := of_check _
theorem arrayPass (c : CoreId) (arr : Fin 2) : Statement (.arrayPass c arr) := of_check _
theorem mmgather (c : CoreId) (m : MmArgs) (nw1 : BitVec 2) : Statement (.mmgather c m nw1) := of_check _
theorem gatherTimeout (c : CoreId) (arr : Fin 2) : Statement (.gatherTimeout c arr) := of_check _
theorem mmflush (c : CoreId) (arr : Fin 2) : Statement (.mmflush c arr) := of_check _
theorem mmbwd (c : CoreId) (m : BwdArgs) : Statement (.mmbwd c m) := of_check _
theorem mmbwdRun (c : CoreId) : Statement (.mmbwdRun c) := of_check _
theorem zdrain (c : CoreId) (z roff : BitVec 3) (acc : Bool) : Statement (.zdrain c z roff acc) := of_check _
theorem zdrainWave (c : CoreId) : Statement (.zdrainWave c) := of_check _
theorem gaccAdd (c : CoreId) (k : BitVec 4) (a : Reg) : Statement (.gaccAdd c k a) := of_check _
theorem gaccPut (c : CoreId) (k : BitVec 4) (a : Reg) : Statement (.gaccPut c k a) := of_check _
theorem gaccGet (c : CoreId) (k : BitVec 4) (a : Reg) : Statement (.gaccGet c k a) := of_check _
theorem gaccRun (c : CoreId) : Statement (.gaccRun c) := of_check _
theorem fenceCore (c : CoreId) : Statement (.fenceCore c) := of_check _
theorem fenceAtollRel (c : FenceRun) : Statement (.fenceAtollRel c) := of_check _
theorem fenceAtoll (c : FenceRun) : Statement (.fenceAtoll c) := of_check _
theorem fenceDieRel (c : FenceRun) : Statement (.fenceDieRel c) := of_check _
theorem fenceDie (c : FenceRun) : Statement (.fenceDie c) := of_check _
theorem fenceBoardRel (c : FenceRun) : Statement (.fenceBoardRel c) := of_check _
theorem fenceBoard (c : FenceRun) : Statement (.fenceBoard c) := of_check _
theorem fenceTask (c : CoreId) : Statement (.fenceTask c) := of_check _
theorem atollTaskPart (die : Fin 4) (pos : Fin 9) : Statement (.atollTaskPart die pos) := of_check _
theorem ifence (c : CoreId) : Statement (.ifence c) := of_check _
theorem dead (c : CoreId) (a b : Reg) : Statement (.dead c a b) := of_check _
theorem cwb (c : CoreId) (scope : Scope) (a b : Reg) : Statement (.cwb c scope a b) := of_check _
theorem cinv (c : CoreId) (scope : Scope) (a b : Reg) : Statement (.cinv c scope a b) := of_check _
theorem l1winWrite (c : CoreId) (op : SrOp) (d a : Reg) (k : Fin 4) (ctl : Bool) : Statement (.l1winWrite c op d a k ctl) := of_check _
theorem lagwinWrite (c : CoreId) (op : SrOp) (d a : Reg) (k : Fin 4) (ctl : Bool) : Statement (.lagwinWrite c op d a k ctl) := of_check _
theorem atpWrite (c : CoreId) (op : SrOp) (d a : Reg) : Statement (.atpWrite c op d a) := of_check _
theorem matpWrite (c : CoreId) (op : SrOp) (d a : Reg) : Statement (.matpWrite c op d a) := of_check _
theorem tlbinvAll (c : CoreId) (a : Reg) : Statement (.tlbinvAll c a) := of_check _
theorem tlbinvVpn (c : CoreId) (a : Reg) : Statement (.tlbinvVpn c a) := of_check _
theorem ddrGrantBurst (die : Fin 4) (ch : Fin 8) : Statement (.ddrGrantBurst die ch) := of_check _
theorem ddrAgeLimit (die : Fin 4) (ch : Fin 8) (cls : Fin 5) : Statement (.ddrAgeLimit die ch cls) := of_check _
theorem patrolScrub (die : Fin 4) (line : Nat) : Statement (.patrolScrub die line) := of_check _
theorem meshGrant (die : Fin 4) (stop : Fin 30) (out : Fin 5) : Statement (.meshGrant die stop out) := of_check _
theorem meshAgeLimit (die : Fin 4) (stop : Fin 30) (out : Fin 5) (cls : Fin 6) : Statement (.meshAgeLimit die stop out cls) := of_check _
theorem causewayDown (cw : Fin 8) : Statement (.causewayDown cw) := of_check _
theorem causewayFlitReplay (cw : Fin 8) : Statement (.causewayFlitReplay cw) := of_check _
theorem cmddirWrite (c : CoreId) (op : SrOp) (d a : Reg) : Statement (.cmddirWrite c op d a) := of_check _
theorem cmddbCommandRing (c : CoreId) (a : Reg) : Statement (.cmddbCommandRing c a) := of_check _
theorem cmddbReplyRing (c : CoreId) (a : Reg) : Statement (.cmddbReplyRing c a) := of_check _
theorem unitStartPacket (u : Fin 5) : Statement (.unitStartPacket u) := of_check _
theorem cqAgeLimit (u : Fin 5) (ring : Fin 3) : Statement (.cqAgeLimit u ring) := of_check _
theorem parkedPacketComplete (u : Fin 5) (ring : Fin 3) : Statement (.parkedPacketComplete u ring) := of_check _
theorem ping (u : Fin 5) : Statement (.ping u) := of_check _
theorem loadImage (u : Fin 5) : Statement (.loadImage u) := of_check _
theorem startTask (u : Fin 5) : Statement (.startTask u) := of_check _
theorem drain (u : Fin 5) : Statement (.drain u) := of_check _
theorem drainComplete (u : Fin 5) : Statement (.drainComplete u) := of_check _
theorem abort (u : Fin 5) : Statement (.abort u) := of_check _
theorem atollOffline (u : Fin 5) : Statement (.atollOffline u) := of_check _
theorem atollOnline (u : Fin 5) (selfTestPasses : Bool) : Statement (.atollOnline u selfTestPasses) := of_check _
theorem atollSwapReserve (u : Fin 5) : Statement (.atollSwapReserve u) := of_check _
theorem fwStage (u : Fin 5) : Statement (.fwStage u) := of_check _
theorem fwActivate (u : Fin 5) : Statement (.fwActivate u) := of_check _
theorem treeConfig (u : Fin 5) : Statement (.treeConfig u) := of_check _
theorem straitTrain (u : Fin 5) (r : TrainResult) : Statement (.straitTrain u r) := of_check _
theorem straitRelay (u : Fin 5) : Statement (.straitRelay u) := of_check _
theorem snapConfig (u : Fin 5) : Statement (.snapConfig u) := of_check _
theorem snapNow (u : Fin 5) : Statement (.snapNow u) := of_check _
theorem restore (u : Fin 5) : Statement (.restore u) := of_check _
theorem inject (u : Fin 5) : Statement (.inject u) := of_check _
theorem logRead (u : Fin 5) : Statement (.logRead u) := of_check _
theorem logFreeze (u : Fin 5) : Statement (.logFreeze u) := of_check _
theorem attest (u : Fin 5) : Statement (.attest u) := of_check _
theorem debugUnlock (u : Fin 5) : Statement (.debugUnlock u) := of_check _
theorem powerState (u : Fin 5) : Statement (.powerState u) := of_check _
theorem meterRead (u : Fin 5) : Statement (.meterRead u) := of_check _
theorem jobHandoff (u : Fin 5) : Statement (.jobHandoff u) := of_check _
theorem atollGate (die : Fin 4) (pos : Fin 9) : Statement (.atollGate die pos) := of_check _
theorem atollUngate (die : Fin 4) (pos : Fin 9) : Statement (.atollUngate die pos) := of_check _
theorem steReadyWrite (c : CoreId) (op : SrOp) (d a : Reg) : Statement (.steReadyWrite c op d a) := of_check _
theorem stepDoneWrite (c : CoreId) (op : SrOp) (d a : Reg) : Statement (.stepDoneWrite c op d a) := of_check _
theorem snapLocalWrite (c : CoreId) (op : SrOp) (d a : Reg) : Statement (.snapLocalWrite c op d a) := of_check _
theorem snapRxDoneWrite (c : CoreId) (op : SrOp) (d a : Reg) : Statement (.snapRxDoneWrite c op d a) := of_check _
theorem dieStageAdd (die : Fin 4) (seg grp : Nat) : Statement (.dieStageAdd die seg grp) := of_check _
theorem nodeGroupAdd (seg grp : Nat) : Statement (.nodeGroupAdd seg grp) := of_check _
theorem stepEnd : Statement (.stepEnd) := of_check _
theorem frameSend (port : Fin 8) : Statement (.frameSend port) := of_check _
theorem frameReceive (port : Fin 8) (f : Frame) (r : Receipt) : Statement (.frameReceive port f r) := of_check _
theorem controlCodeword (port : Fin 8) (k : ControlCell) : Statement (.controlCodeword port k) := of_check _
theorem portControlSilence (port : Fin 8) : Statement (.portControlSilence port) := of_check _
theorem portLaneLockLoss (port : Fin 8) : Statement (.portLaneLockLoss port) := of_check _
theorem inputPowerOn : Statement (.inputPowerOn) := of_check _
theorem servicePowerGood : Statement (.servicePowerGood) := of_check _
theorem inputUndervoltage (mv : Nat) : Statement (.inputUndervoltage mv) := of_check _
theorem inputOvervoltage (mv : Nat) : Statement (.inputOvervoltage mv) := of_check _
theorem inputBelow40v : Statement (.inputBelow40v) := of_check _
theorem regulatorFault (supply : Supply) : Statement (.regulatorFault supply) := of_check _
theorem railNotGoodTimeout (supply : Supply) : Statement (.railNotGoodTimeout supply) := of_check _
theorem rootPllLockLoss : Statement (.rootPllLockLoss) := of_check _
theorem wakeRequest (src : WakeSource) : Statement (.wakeRequest src) := of_check _
theorem coldReset (src : ColdSource) : Statement (.coldReset src) := of_check _
theorem pcieReset : Statement (.pcieReset) := of_check _
theorem tapReset : Statement (.tapReset) := of_check _
theorem serviceWatchdog : Statement (.serviceWatchdog) := of_check _
theorem dieControllerWatchdog (die : Fin 4) : Statement (.dieControllerWatchdog die) := of_check _
theorem powerMonitorSample (mv ma : Nat) : Statement (.powerMonitorSample mv ma) := of_check _
theorem temperatureSample (sensor : Fin 52) (milliC warn crit : Int) : Statement (.temperatureSample sensor milliC warn crit) := of_check _
theorem leakDetect (event : LeakEvent) : Statement (.leakDetect event) := of_check _
theorem recorderAutoFreeze : Statement (.recorderAutoFreeze) := of_check _
theorem crashCopyComplete : Statement (.crashCopyComplete) := of_check _
theorem debugHalt (head : DebugHead) : Statement (.debugHalt head) := of_check _
theorem debugStep (head : DebugHead) : Statement (.debugStep head) := of_check _
theorem debugRun (head : DebugHead) : Statement (.debugRun head) := of_check _
theorem debugRead (head : DebugHead) (level : BitVec 2) (regs : List (BitVec 12)) : Statement (.debugRead head level regs) := of_check _
theorem traceOn (head : DebugHead) (pa bytes : Nat) : Statement (.traceOn head pa bytes) := of_check _
theorem traceOff (head : DebugHead) : Statement (.traceOff head) := of_check _
theorem debugStatus (head : DebugHead) : Statement (.debugStatus head) := of_check _
theorem boundaryScan (die : Fin 5) (i : ScanInstr) : Statement (.boundaryScan die i) := of_check _
theorem smbusBlockRead : Statement (.smbusBlockRead) := of_check _
theorem reservedOpcode (c : CoreId) (w : W32) : Statement (.reservedOpcode c w) := of_check _
theorem instructionFetchFault (c : CoreId) : Statement (.instructionFetchFault c) := of_check _
theorem cseqOutOfSequence (port : Fin 8) (cseq : BitVec 8) : Statement (.cseqOutOfSequence port cseq) := of_check _
theorem pcieInboundRequest (r : PcieRequest) : Statement (.pcieInboundRequest r) := of_check _
theorem nvmePathTransfer (t : NvmeTransfer) : Statement (.nvmePathTransfer t) := of_check _
theorem idcodeBypass (tap : Fin 5) (i : TapInstr) : Statement (.idcodeBypass tap i) := of_check _
theorem consoleRx (b : Byte) : Statement (.consoleRx b) := of_check _

end Sys2Proof.Laws.WellFormed
end

