-- ==== Sys2Proof/Laws/Run.lean ====
section
/-! SUPPORT. What the boundary, an instruction and a command do on a core that is ready: the lemmas that stand for the
unfolding of runInstr. -/

namespace Sys2Proof.Machine
open Sys2Proof

theorem takeArmed_none {s : State} {u num loc : Nat} (h : (s.takeArmed u num loc).1 = none) :
    s.takeArmed u num loc = (none, s) := by
  unfold State.takeArmed at h ⊢
  simp only at h ⊢
  split at h <;> simp_all

theorem parityHalt_calm {s : State} {k : Nat} (h : s.calm k = true) : s.parityHalt k = (false, s) := by
  simp only [State.calm, Bool.and_eq_true, Bool.not_eq_true'] at h
  simp [State.parityHalt, h.1.1.1.1.1.2]

/-- Where no parity error is armed, none is stored. -/
theorem parityAfter_calm {s : State} {k : Nat} (h : s.calm k = true) (o : Host.Outcome State Fault Refusal) : parityAfter k s o = o := by
  simp only [State.calm, Bool.and_eq_true] at h
  cases o <;> simp [parityAfter, State.storeParity, h.1.1.1.1.1.1]

/-- Where no pending interrupt may be taken, none is. -/
theorem tryInts_none {s : State} {k : Nat} {l : List Event} (h : l.all (fun e => !(s.core k).mayTake e) = true) :
    (tryInts k l).run s = .ok false s := by
  induction l with
  | nil => rfl
  | cons e l ih =>
    simp only [List.all_cons, Bool.and_eq_true, Bool.not_eq_true'] at h
    have := ih h.2
    simp_all [tryInts, getC, EStateM.run, bind, EStateM.bind, get, getThe, MonadStateOf.get, EStateM.get, pure, EStateM.pure]

theorem calm_haltDue {s : State} {k : Nat} (h : s.calm k = true) : (s.core k).haltDue = false := by
  simp only [State.calm, Bool.and_eq_true, Bool.not_eq_true'] at h; exact h.1.1.1.2
theorem calm_vtrapDue {s : State} {k : Nat} (h : s.calm k = true) : (s.core k).vtrapDue = none := by
  simp only [State.calm, Bool.and_eq_true, Option.isNone_iff_eq_none] at h; exact h.1.1.2
theorem calm_mchk {s : State} {k : Nat} (h : s.calm k = true) : (s.core k).mchk = [] := by
  simp only [State.calm, Bool.and_eq_true, List.isEmpty_iff] at h; exact h.1.1.1.1.2
theorem calm_dbgStep {s : State} {k : Nat} (h : s.calm k = true) : (s.core k).dbgStep = false := by
  simp only [State.calm, Bool.and_eq_true, Bool.not_eq_true'] at h; exact h.1.2

/-- A calm core's boundary takes nothing and changes nothing. -/
theorem boundary_calm {s : State} {k : Nat} (h : s.calm k = true) : (boundary k).run s = .ok false s := by
  have hp := parityHalt_calm h
  have hv := calm_vtrapDue h
  have hd := calm_haltDue h
  have hm := calm_mchk h
  simp only [State.calm, Bool.and_eq_true] at h
  have ht := tryInts_none h.2
  simp only [boundary, takeVtrap, getC, EStateM.run, bind, EStateM.bind, modifyGet, MonadStateOf.modifyGet, EStateM.modifyGet, hp,
    get, getThe, MonadStateOf.get, EStateM.get, pure, EStateM.pure, hm, mergeMchk, hd, hv, Bool.false_eq_true, if_false]
  exact ht

theorem loopTest_frame (c : Core) (lv : Nat) (e : W64) :
    ∃ p y, (c.loopTest lv e).2 = { c with pc := p, sys := y } := by
  unfold Core.loopTest
  split_ifs
  · exact ⟨_, _, rfl⟩
  · exact ⟨_, _, rfl⟩
  · exact ⟨c.pc, c.sys, rfl⟩

/-- The loop test touches the PC and the loop registers only. -/
theorem loopStep_frame (c : Core) (e : W64) :
    ∃ p y, c.loopStep e = { c with pc := p, sys := y } := by
  obtain ⟨p, y, h⟩ := loopTest_frame { c with pc := e + 4 } 1 e
  obtain ⟨q, z, h'⟩ := loopTest_frame (({ c with pc := e + 4 } : Core).loopTest 1 e).2 0 e
  unfold Core.loopStep
  dsimp only
  split_ifs
  · exact ⟨_, _, h⟩
  · rw [h']; rw [h]; exact ⟨q, z, rfl⟩

@[simp] theorem loopStep_dbgStep (c : Core) (e : W64) : (c.loopStep e).dbgStep = c.dbgStep := by
  obtain ⟨p, y, h⟩ := loopStep_frame c e; rw [h]
@[simp] theorem loopStep_rx (c : Core) (e : W64) (r : Reg) : (c.loopStep e).rx r = c.rx r := by
  obtain ⟨p, y, h⟩ := loopStep_frame c e; rw [h]; rfl
@[simp] theorem loopStep_rf (c : Core) (e : W64) (r : Reg) : (c.loopStep e).rf r = c.rf r := by
  obtain ⟨p, y, h⟩ := loopStep_frame c e; rw [h]; rfl

theorem ready_calm {s : State} {c : CoreId} (h : s.ready c = true) : s.calm (coreKey c) = true := by
  simp only [State.ready, Bool.and_eq_true] at h; exact h.2

theorem ready_dbgStep {s : State} {c : CoreId} (h : s.ready c = true) : (s.core (coreKey c)).dbgStep = false :=
  calm_dbgStep (ready_calm h)

/-- An instruction on a ready core is its body, with the control transfers of R43 refused at the end of a loop body. -/
theorem runInstr_ready {s : State} {c : CoreId} (hr : s.ready c = true) (w : Nat) (ctl : Bool) (body : M Flow) :
    runInstr c w ctl body s = finish ((do discard (instruction (coreKey c) w ctl body) : M Unit).run s) := by
  have hc := boundary_calm (ready_calm hr)
  have hd := ready_dbgStep hr
  simp only [State.ready, Bool.and_eq_true] at hr
  simp only [EStateM.run] at hc
  simp only [runInstr, parityAfter_calm hr.2, hr.1.1, hr.1.2, Bool.and_self, if_true, EStateM.run, bind, EStateM.bind, hc, Bool.false_eq_true, if_false,
    stepped, getC, get, getThe, MonadStateOf.get, EStateM.get, pure, EStateM.pure, hd, Bool.false_and]

/-- The outcome of a discarded answer. -/
theorem finish_discard {α : Type} (x : M α) (s : State) : finish ((do discard x : M Unit).run s) = finish (x.run s) := by
  simp only [discard, Functor.discard, Functor.mapConst, EStateM.run, Function.comp, Function.const, EStateM.map]
  cases x s with
  | ok a t => rfl
  | error e t => cases e <;> rfl

/-- What an instruction on a ready core answers. -/
theorem runInstr_eq {s : State} {c : CoreId} (hr : s.ready c = true) (w : Nat) (ctl : Bool) (body : M Flow) :
    runInstr c w ctl body s = finish ((instruction (coreKey c) w ctl body).run s) :=
  (runInstr_ready hr w ctl body).trans (finish_discard _ _)

/-- An instruction whose body goes on to the next one retires. `ctl` marks a control transfer, which may not stand at the end
of a loop body (R43). -/
theorem runInstr_next {s t : State} {c : CoreId} {w : Nat} {ctl : Bool} {body : M Flow} (hr : s.ready c = true)
    (hl : (ctl && (s.core (coreKey c)).atLoopEnd) = false) (hb : body.run s = .ok .next t) :
    runInstr c w ctl body s = .next (t.retire (coreKey c) (s.core (coreKey c)).pc) := by
  simp only [EStateM.run] at hb
  simp only [runInstr_eq hr, EStateM.run, bind, EStateM.bind, Bool.false_eq_true, if_false,
    instruction, getC, get, getThe, MonadStateOf.get, EStateM.get, pure, EStateM.pure, tryCatch, tryCatchThe, MonadExceptOf.tryCatch,
    EStateM.tryCatch, hl, hb, modC, modify, modifyGet, MonadStateOf.modifyGet, EStateM.modifyGet, finish, State.retire]

/-- An instruction whose body jumps (R44). -/
theorem runInstr_jump {s t : State} {c : CoreId} {w : Nat} {ctl : Bool} {body : M Flow} {a : W64} (hr : s.ready c = true)
    (hl : (ctl && (s.core (coreKey c)).atLoopEnd) = false) (hb : body.run s = .ok (.jump a) t) :
    runInstr c w ctl body s = .next (t.goTo (coreKey c) (s.core (coreKey c)).pc a) := by
  simp only [EStateM.run] at hb
  simp only [runInstr_eq hr, EStateM.run, bind, EStateM.bind, Bool.false_eq_true, if_false,
    instruction, getC, get, getThe, MonadStateOf.get, EStateM.get, pure, EStateM.pure, tryCatch, tryCatchThe, MonadExceptOf.tryCatch,
    EStateM.tryCatch, hl, hb, modC, modify, modifyGet, MonadStateOf.modifyGet, EStateM.modifyGet, finish, State.goTo]

/-- An instruction whose body sets the PC itself (R42, R79). -/
theorem runInstr_done {s t : State} {c : CoreId} {w : Nat} {ctl : Bool} {body : M Flow} (hr : s.ready c = true)
    (hl : (ctl && (s.core (coreKey c)).atLoopEnd) = false) (hb : body.run s = .ok .done t) :
    runInstr c w ctl body s = .next t := by
  simp only [EStateM.run] at hb
  simp only [runInstr_eq hr, EStateM.run, bind, EStateM.bind, Bool.false_eq_true, if_false,
    instruction, getC, get, getThe, MonadStateOf.get, EStateM.get, pure, EStateM.pure, tryCatch, tryCatchThe, MonadExceptOf.tryCatch,
    EStateM.tryCatch, hl, hb, finish]

/-- An instruction whose body stalls leaves what the body did, with the PC where it was. -/
theorem runInstr_stall {s t : State} {c : CoreId} {w : Nat} {ctl : Bool} {body : M Flow} (hr : s.ready c = true)
    (hl : (ctl && (s.core (coreKey c)).atLoopEnd) = false) (hb : body.run s = .error .stall t) :
    runInstr c w ctl body s = .next t := by
  simp only [EStateM.run] at hb
  simp only [runInstr_eq hr, EStateM.run, bind, EStateM.bind, Bool.false_eq_true, if_false,
    instruction, getC, get, getThe, MonadStateOf.get, EStateM.get, pure, EStateM.pure, tryCatch, tryCatchThe, MonadExceptOf.tryCatch,
    EStateM.tryCatch, EStateM.Backtrackable.restore, EStateM.dummyRestore, hl, hb, finish]

/-- With no machine check waiting, an exception is taken as it was raised. -/
theorem joinMchk_none {s : State} {k : Nat} {e : Event} (hm : e.code ≠ 0x12) (hs : (s.core k).mchk = []) : s.joinMchk k e = (e, s) := by
  simp [State.joinMchk, if_neg hm, hs, mergeMchk]

/-- An instruction whose body raises an exception, with no machine check met meanwhile, takes it at its own PC (R76 to R78). -/
theorem runInstr_exc {s t : State} {c : CoreId} {w : Nat} {ctl : Bool} {body : M Flow} {e : Event}
    (hr : s.ready c = true) (hl : (ctl && (s.core (coreKey c)).atLoopEnd) = false) (hb : body.run s = .error (.exc e) t)
    (hm : e.code ≠ 0x12) (ht : (t.core (coreKey c)).mchk = []) :
    runInstr c w ctl body s = t.takes (coreKey c) e (s.core (coreKey c)).pc := by
  simp only [EStateM.run] at hb
  simp only [runInstr_eq hr, EStateM.run, bind, EStateM.bind, Bool.false_eq_true, if_false,
    instruction, getC, get, getThe, MonadStateOf.get, EStateM.get, pure, EStateM.pure, tryCatch, tryCatchThe, MonadExceptOf.tryCatch,
    EStateM.tryCatch, EStateM.Backtrackable.restore, EStateM.dummyRestore, hl, hb, modifyGet, MonadStateOf.modifyGet,
    EStateM.modifyGet, joinMchk_none hm ht, State.takes]
  generalize (discard (raise (coreKey c) e (s.core (coreKey c)).pc) : M Unit) t = x
  cases x with
  | ok a u => rfl
  | error e u => cases e <;> rfl

/-- A control transfer at the end of a loop body raises ILLEGAL (R43). -/
theorem runInstr_loopEnd {s : State} {c : CoreId} {w : Nat} {body : M Flow} (hr : s.ready c = true)
    (hl : (s.core (coreKey c)).atLoopEnd = true) :
    runInstr c w true body s
      = s.takes (coreKey c) { code := 0x01, addr := (BitVec.ofNat 32 w).setWidth 64 } (s.core (coreKey c)).pc := by
  have hj := joinMchk_none (e := { code := 0x01, addr := (BitVec.ofNat 32 w).setWidth 64 }) (show (1 : Nat) ≠ 0x12 by decide) (calm_mchk (ready_calm hr))
  simp only [runInstr_eq hr, EStateM.run, bind, EStateM.bind, if_true, Bool.and_self,
    instruction, getC, get, getThe, MonadStateOf.get, EStateM.get, pure, EStateM.pure, tryCatch, tryCatchThe, MonadExceptOf.tryCatch,
    EStateM.tryCatch, EStateM.Backtrackable.restore, EStateM.dummyRestore, hl, modifyGet, MonadStateOf.modifyGet,
    EStateM.modifyGet, illegal, trap, throw, throwThe, MonadExceptOf.throw, EStateM.throw, hj]
  show _ = finish ((discard (raise (coreKey c) _ (s.core (coreKey c)).pc) : M Unit) s)
  generalize (discard (raise (coreKey c) _ (s.core (coreKey c)).pc) : M Unit) s = x
  cases x with
  | ok a u => rfl
  | error e u => cases e <;> rfl

end Sys2Proof.Machine
end

