-- ==== Sys2Proof/Tests/Slice0.lean ====
section
/-! SUPPORT. Tests: ill-formed commands are refused; words and results that the manual works out; and for each statement with
hypotheses a state and operands that meet them all. -/

namespace Sys2Proof.Tests
open Sys2Proof Sys2Proof.Machine Sys2Proof.Claims
set_option Elab.async false

/-! ### Small states -/

/-- Compute core 0 of atoll 0 of die 0. -/
def c0 : CoreId := .compute 0 0 0
/-- A die whose memory is populated and trained. -/
def die0 : Die := { powered := true, phy := true, serdes := true, dimmOn := true, ctlRunning := true, trained := true, zeroed := true, dramCap := 2 }
/-- Core 0 runs at M, changed by `g`, on a board where die 0 and its atoll 0 are on. -/
def one (g : Core → Core) : State :=
  { cores := [(0, g { run := .running })], atolls := [(0, { powered := true })], dies := [(0, die0)] }
def plain : State := one id
/-- Core 0 with x registers. -/
def withX (l : SMap W64) : State := one fun x => { x with x := l }
/-- What holds of the next state, where there is one. -/
def after (o : Out) (p : State → Bool) : Bool :=
  match o with
  | .next t => p t
  | _ => false
def isOk {α : Type} (r : EStateM.Result Err State α) (p : α → State → Bool) : Bool :=
  match r with
  | .ok a t => p a t
  | .error _ _ => false

theorem test_plain_ready : plain.ready c0 = true := by decide

/-! ### Ill-formed commands are refused -/

def vform (native tap : Bool) (d a b : BitVec 5) (mask : BitVec 3) (ty : BitVec 2) : VArgs :=
  { native := native, dD := d, dA := a, dB := b, mask := mask, ty := ty, tap := tap, stop := none }
def vargs (d a b : BitVec 5) (mask : BitVec 3) (ty : BitVec 2) : VArgs := vform false false d a b mask ty
def frame0 : Frame :=
  { type := 0x10, last := false, absent := false, epoch := 0, step := 0, src := 0, dst := 0, seg := 0, fidx := 0, len := 0,
    fmt := 7, ngrp := 0, hops := 0, lseq := 0, payload := [] }

theorem test_wellFormed_stop :
    (Instr.vadd c0 { vargs 0 1 2 0 0 with stop := some 65536 }).wellFormed = true
      ∧ (Instr.vadd c0 { vargs 0 1 2 0 0 with stop := some 65537 }).wellFormed = false := by decide
theorem test_wellFormed_group :
    (Instr.nodeGroupAdd 0xFFFFF 0x7FFFF).wellFormed = true ∧ (Instr.nodeGroupAdd 0x100000 0).wellFormed = false
      ∧ (Instr.dieStageAdd 1 0 0x80000).wellFormed = false := by decide
theorem test_wellFormed_range :
    (Instr.traceOn ⟨0, 0⟩ (2 ^ 46 - 64) 64).wellFormed = true ∧ (Instr.traceOn ⟨0, 0⟩ (2 ^ 46 - 64) 65).wellFormed = false
      ∧ (Instr.nvmePathTransfer (.fromDram 0 (2 ^ 46) 1 false)).wellFormed = false := by decide
theorem test_wellFormed_window :
    (Instr.pcieInboundRequest (.configRead 4092)).wellFormed = true ∧ (Instr.pcieInboundRequest (.configRead 4093)).wellFormed = false
      ∧ (Instr.pcieInboundRequest (.read (64 * 2 ^ 30) 1)).wellFormed = false := by decide
theorem test_wellFormed_frame :
    (Instr.frameReceive 0 frame0 ⟨0, .clean, 0⟩).wellFormed = true ∧ (Instr.frameReceive 0 { frame0 with len := 1 } ⟨0, .clean, 0⟩).wellFormed = false := by
  decide
theorem test_wellFormed_count :
    (Instr.patrolScrub 0 (0xC000000000 / 128 - 1)).wellFormed = true ∧ (Instr.patrolScrub 0 (0xC000000000 / 128)).wellFormed = false
      ∧ (Instr.debugRead ⟨0, 0⟩ 0 (List.replicate 512 0)).wellFormed = false := by decide +kernel

/-! ### Words: the manual's own encodings (chapters 1 to 8); no row of the table has bits -/

theorem test_decode_none (n w : Nat) : decodeTableWord n w = none := rfl
theorem test_words_levels :
    instrWord (.gate c0 5) = 0xBC000005 ∧ instrWord (.cret c0) = 0xBC001000 ∧ instrWord (.sret c0) = 0xBC002000
      ∧ instrWord (.mret c0) = 0xBC003000 := by decide
theorem test_words_fences :
    instrWord (.fenceAtollRel ⟨c0, none⟩) = 0xB8000014 ∧ instrWord (.fenceDie ⟨c0, none⟩) = 0xB8000008 ∧ instrWord (.fenceTask c0) = 0xB8001000
      ∧ instrWord (.ifence c0) = 0xB8002000 ∧ instrWord (.cwb c0 .die 20 21) = 0xBA954008
      ∧ instrWord (.cinv c0 .atoll 20 21) = 0xBA955004 := by decide
theorem test_words_messages_loops :
    instrWord (.send c0 10 11 2) = 0xB54B0020 ∧ instrWord (.recv c0 12 3) = 0xB5801300 ∧ instrWord (.loopi c0 16 3) = 0xA8010003
      ∧ instrWord (.loopi c0 32 44) = 0xA802002C := by decide
theorem test_words_vector :
    instrWord (.setvli c0 5 2048) = 0xD4A01800 ∧ instrWord (.vadd c0 { vargs 3 1 2 0 0 with tap := true }) = 0xC0611020
      ∧ instrWord (.vsubF c0 (vargs 3 3 1 0 0)) = 0xC0630809 := by decide
theorem test_words_tiles :
    instrWord (.tcfg c0 4 5) = 0xF0853000 ∧ instrWord (.swait c0 0 9) = 0xE8090000 ∧ instrWord (.trel c0 2) = 0xF0202000
      ∧ instrWord (.mmf c0 { arr := 0, t := 0, w := 0, z := 0, acc := true, rel := false } false) = 0xF4000800
      ∧ instrWord (.mmf c0 { arr := 1, t := 0, w := 1, z := 1, acc := true, rel := false } false) = 0xF6090800
      ∧ instrWord (.tst c0 26 7 none) = 0xF1A71000
      ∧ instrWord (.mmbwd c0 { dy := 1, dx := 2, w := 1, z := 0, acc := true, keep := false, tw := true, rely := false, relx := true })
          = 0xF8490150 := by decide
/-- Logical core 0x14B is die 2, atoll 4, core 11 (R14, R298). -/
theorem test_lcore : State.reset.keyOfLcore 0x14B = coreKey (.compute 2 4 11) ∧ State.reset.lcoreOf (coreKey (.compute 2 4 11)) = 0x14B := by
  decide

/-! ### States and operands that meet the hypotheses of the statements, clause by clause; and results -/

/-- Core 0 with stored system registers. -/
def withSys (l : SMap W64) : State := one fun x => { x with sys := l }

theorem witness_CountersCount :
    State.reset.pending = [] ∧ (withSys [(0x510, 9)]).corePowered 0 = true ∧ ((withSys [(0x510, 9)]).core 0).sr 0x510 = 9
      ∧ (withSys [(0x510, 9)]).ctrOf 0 < 9 := by decide
theorem witness_EveryStepKeepsDramCanonical : State.reset.dram.wf = true ∧ ∃ t, step State.reset = .next t := ⟨by decide, _, rfl⟩
theorem witness_NoCommandTouchesTheQueue :
    ∃ t, step { plain with pending := [.add c0 1 1 1] } = .next t := ⟨_, rfl⟩
/-- A board whose mainland I/O and drive 0 are on. -/
def mio : State := { plain with board := { mioOn := true, nvmeOn := [(0, true)], pcieTable := [(0, 2 ^ 25 + 1), (1, 2 ^ 25)] } }
theorem witness_OnlyOutsideAddressesFault :
    exec (.nvmePathTransfer (.fromDram 0 (2 ^ 46) 1 false)) mio = .fault (.outsideAddressSpace (2 ^ 46))
      ∧ exec (.pcieInboundRequest (.write 0 [7])) mio = .fault (.outsideAddressSpace (2 ^ 46)) := ⟨rfl, rfl⟩

theorem witness_IntegerResults :
    (∃ v, aluValue (.add c0 3 1 2) = some (c0, 3, v)) ∧ (∃ v, aluValue (.popc c0 0 1 0) = some (c0, 0, v))
      ∧ (∃ v, immValue (.liz c0 31 3 0xFFFF) = some (c0, 31, v)) ∧ plain.ready c0 = true :=
  ⟨⟨_, rfl⟩, ⟨_, rfl⟩, ⟨_, rfl⟩, by decide⟩
theorem test_alu_wraps :
    after (exec (.add c0 3 1 2) (withX [(1, 0xFFFFFFFFFFFFFFFF), (2, 2)])) (fun t => (t.core 0).rx 3 == 1 && (t.core 0).pc == 4) = true
      ∧ after (exec (.addw c0 3 1 2) (withX [(1, 0x7FFFFFFF), (2, 1)])) (fun t => (t.core 0).rx 3 == 0xFFFFFFFF80000000) = true
      ∧ after (exec (.mulh c0 3 1 2) (withX [(1, 0xFFFFFFFFFFFFFFFF), (2, 2)]))
          (fun t => (t.core 0).rx 3 == 0xFFFFFFFFFFFFFFFF) = true := by decide +kernel
/-- R32: LIZ then LIK build a constant 16 bits at a time. -/
theorem test_liz_lik :
    after (exec (.lik c0 3 1 0x1234) (withX [(3, 0xFFFF00000000FFFF)])) (fun t => (t.core 0).rx 3 == 0xFFFF00001234FFFF) = true := by
  decide +kernel

def corner : State := withX [(1, 0x8000000000000000), (2, 0xFFFFFFFFFFFFFFFF)]
theorem witness_DivisionCornersAndShiftForms :
    corner.ready c0 = true ∧ (corner.core 0).rx 0 = 0 ∧ (corner.core 0).rx 1 = 0x8000000000000000
      ∧ (corner.core 0).rx 2 = 0xFFFFFFFFFFFFFFFF ∧ (1 : BitVec 8) ≠ 0
      ∧ bitsOf (0x1C0000C0#32).toNat 31 26 = 0x07 ∧ bitsOf (0x1C0000C0#32).toNat 7 6 = 3 := by decide
theorem test_division :
    after (exec (.rem c0 3 1 0) (withX [(1, 7)])) (fun t => (t.core 0).rx 3 == 7) = true
      ∧ after (exec (.div c0 3 1 2) (withX [(1, 0xFFFFFFFFFFFFFFF9), (2, 2)])) (fun t => (t.core 0).rx 3 == 0xFFFFFFFFFFFFFFFD) = true := by
  decide +kernel

def withF (l : SMap W32) : State := one fun x => { x with f := l }
theorem witness_ScalarFpResults :
    (∃ v, fpValue (.fadd c0 3 1 2) = some (c0, .inl 3, v)) ∧ (∃ v, fpValue (.flt c0 0 1 2) = some (c0, .inr 0, v))
      ∧ (∃ v, fpValue (.fsqrt c0 31 1 0) = some (c0, .inl 31, v)) := ⟨⟨_, rfl⟩, ⟨_, rfl⟩, ⟨_, rfl⟩⟩
/-- 1.0 + 2^−24 ties to even, inexact; 1.0 / 0.0 is infinite and raises DZ. -/
theorem test_fp :
    after (exec (.fadd c0 3 1 2) (withF [(1, 0x3F800000), (2, 0x33800000)]))
        (fun t => (t.core 0).rf 3 == 0x3F800000 && (t.core 0).sr 0x040 == 0x10) = true
      ∧ after (exec (.fdiv c0 3 1 2) (withF [(1, 0x3F800000)])) (fun t => (t.core 0).rf 3 == 0x7F800000) = true := by decide +kernel
theorem witness_RegisterInstructionFrame :
    (∃ t, exec (.add c0 3 1 2) plain = .next t) ∧ (∃ t, exec (.feq c0 3 1 2) plain = .next t)
      ∧ ∃ t, exec (.fmul c0 3 1 2) plain = .next t := ⟨⟨_, rfl⟩, ⟨_, rfl⟩, ⟨_, rfl⟩⟩

theorem witness_LoadAndStoreResults :
    (∃ d, loadForm (.lb c0 3 0 0x7F) = some (c0, 0, 0x7F, 1, d)) ∧ plain.ready c0 = true
      ∧ isOk ((scalarLoad 0 (addrOf plain c0 0 0x7F) 1).run plain) (fun v _ => decide (v < 2 ^ 8)) = true
      ∧ isOk ((scalarLoad 0 (addrOf plain c0 0 0x78) 8).run plain) (fun v _ => decide (v < 2 ^ 64)) = true
      ∧ (addrOf plain c0 0 0x7F).toNat % 2 ≠ 0
      ∧ (∃ v, storeForm (.sd c0 3 0 0x78) = some (c0, 0, 0x78, 8, v))
      ∧ isOk ((scalarStore 0 (addrOf plain c0 0 0x78) 8 5).run plain) (fun _ _ => true) = true
      ∧ (addrOf plain c0 0 0x79).toNat % 8 ≠ 0 :=
  ⟨⟨_, rfl⟩, by decide, by decide +kernel, by decide +kernel, by decide, ⟨_, rfl⟩, by decide +kernel, by decide⟩
/-- A store of bytes and a signed load of them (R10, R33). -/
theorem test_store_then_load :
    after (exec (.sd c0 3 0 8) (withX [(3, 0x8899AABBCCDDEEFF)])) (fun t => after (exec (.lh c0 4 0 10) t)
      fun u => (u.core 0).rx 4 == 0xFFFFFFFFFFFFCCDD) = true := by decide +kernel

/-- Core 0 holds line 0 in its L1. -/
def hit : State := one fun x => { x with l1 := [(0, { valid := true, data := 0x55 })] }
theorem witness_L1HitReadsBackStores :
    (∃ key, (hit.core 0).l1Find (0x78 / 128) = some key ∧ ((hit.core 0).l1Line key).err = 0 ∧ ((hit.core 0).l1Line key).poison = 0)
      ∧ (hit.core 0).level = .m ∧ ((hit.core 0).sr matpNo).getLsbD 63 = false ∧ (0x78#64).toNat < 2 ^ 46
      ∧ hit.region 0x78 = .dram 0 ∧ (0x78#64).toNat % 8 = 0 ∧ hit.armedErr (unitOfKey 0) [0x0101, 0x0102] (hit.locOf 0) = (0, hit) := by
  refine ⟨⟨0, ?_⟩, ?_⟩ <;> decide +kernel

theorem witness_BranchAndJumpResults :
    (∃ p, branchForm (.beq c0 0 0 0x8000) = some (c0, 0x8000, p)) ∧ plain.ready c0 = true ∧ (plain.core 0).atLoopEnd = false
      ∧ (withSys [(0x102, 0x8000000000000002)]).ready c0 = true
      ∧ ((withSys [(0x102, 0x8000000000000002)]).core 0).atLoopEnd = true := ⟨⟨_, rfl⟩, by decide⟩
/-- From 8, inside both bodies (4 to 8 and 4 to 16): 12 leaves level 0; 20 leaves it too; at 12, inside level 1 alone, 20 leaves level 1
and 16 none. -/
theorem witness_BranchAndJumpResults_levels :
    let x : Core := { sys := [(0x100, 4), (0x101, 8), (0x102, 0x8000000000000002), (0x104, 4), (0x105, 16), (0x106, 0x8000000000000001)] }
    (x.loopActive 0 = true ∧ (x.sr (loopNo 0 0)).toNat ≤ 8 ∧ 8 ≤ (x.sr (loopNo 0 1)).toNat ∧ ¬ 12 ≤ (x.sr (loopNo 0 1)).toNat)
      ∧ ¬ 12 ≤ (x.sr (loopNo 0 1)).toNat ∧ x.loopActive 1 = true ∧ 12 ≤ (x.sr (loopNo 1 1)).toNat ∧ ¬ 20 ≤ (x.sr (loopNo 1 1)).toNat
      ∧ (x.jumpFrom 8 12).loopActive 0 = false ∧ (x.jumpFrom 12 20).loopActive 1 = false ∧ (x.jumpFrom 12 20).loopActive 0 = true
      ∧ (x.jumpFrom 12 16).sr 0x106 = 0x8000000000000001 := by decide
theorem test_branch_back :
    after (exec (.bne c0 1 0 0xFFFF) (one fun x => { x with x := [(1, 1)], pc := 0x100 })) (fun t => (t.core 0).pc == 0xFC) = true := by
  decide +kernel
/-- A gate table, with handlers at 0x2000, for causes 0x01, 0x03, 0x04, 0x07, 0x10, 0x11, 0x20 and 0x85. -/
def gatesAt (base : Nat) (fl : Byte) : SMap Byte :=
  [0x01, 0x03, 0x04, 0x07, 0x10, 0x11, 0x20, 0x85].flatMap fun c => [(base + 32 * c + 1, 0x20), (base + 32 * c + 16, fl)]
def gates (fl : Byte) : SMap Byte := gatesAt 0x1000 fl
def gated (g : Core → Core) : State :=
  { one (fun x => g { x with sys := [(0xA20, 0x1000)] }) with dram := { bytes := gates 0x1D } }
/-- An event finds a gate whose save set is free. -/
def finds (s : State) (code : Nat) (from_ : Level) : Bool :=
  isOk ((findGate 0 code 3 from_).run s) fun r u =>
    match r with
    | .gate t _ => !(u.core 0).busy t && !(u.core 0).mfw && (u.core 0).trace.isNone
    | .bad _ _ => false
theorem witness_JrResults :
    plain.ready c0 = true ∧ (plain.core 0).atLoopEnd = false ∧ ((plain.core 0).rx 0 + (0xFFFC#16).signExtend 64).toNat % 4 = 0
      ∧ ((plain.core 0).rx 0 + (0x7FFE#16).signExtend 64).toNat % 4 ≠ 0 ∧ (gated id).ready c0 = true
      ∧ finds (gated id) 0x03 .m = true := by decide +kernel

/-- The loop registers of level 0 and 1: START 4, END 8 and 16, counts 2 and 1. -/
def looping (c0 c1 : W64) : Core :=
  { sys := [(0x100, 4), (0x101, 8), (0x102, 0x8000000000000000 + c0), (0x104, 4), (0x105, 16), (0x106, 0x8000000000000000 + c1)] }
theorem witness_LoopsRepeatTheirBody :
    plain.ready c0 = true ∧ (plain.core 0).loopActive 0 = false
      ∧ (looping 2 1).loopActive 0 = true ∧ (looping 2 1).sr (loopNo 0 1) = 8 ∧ (looping 2 1).sr (loopNo 1 1) ≠ 8
      ∧ 1 < (looping 2 1).loopCount 0 ∧ (looping 1 1).loopCount 0 ≤ 1
      ∧ (looping 2 1).loopActive 1 = true ∧ (looping 2 1).sr (loopNo 1 1) = 16 ∧ (looping 2 1).loopCount 1 ≤ 1
      ∧ (looping 2 2).loopCount 1 = 2 ∧ (looping 2 1).sr (loopNo 0 1) ≠ 12 ∧ (looping 2 1).sr (loopNo 1 1) ≠ 12 := by decide
/-- At 4, inside level 0's body (4 to 16): a body of two ends inside it, one of four beyond it; with level 1 active too, neither runs. -/
def nested (inner : W64) : State :=
  one fun x => { x with pc := 4, sys := [(0x100, 4), (0x101, 16), (0x102, 0x8000000000000002), (0x104, 4), (0x105, 8), (0x106, inner)] }
theorem witness_LoopsRepeatTheirBody_nested :
    (nested 0).ready c0 = true ∧ ((nested 0).core 0).atLoopEnd = false ∧ ((nested 0).core 0).loopActive 0 = true
      ∧ ((nested 0).core 0).loopActive 1 = false ∧ (pcOf (nested 0) c0 + BitVec.ofNat 64 (4 * (2#12).toNat)).toNat ≤ (((nested 0).core 0).sr 0x101).toNat
      ∧ (((nested 0).core 0).sr 0x101).toNat < (pcOf (nested 0) c0 + BitVec.ofNat 64 (4 * (4#12).toNat)).toNat
      ∧ (nested 0x8000000000000001).ready c0 = true ∧ ((nested 0x8000000000000001).core 0).atLoopEnd = false
      ∧ ((nested 0x8000000000000001).core 0).loopActive 1 = true
      ∧ notAtEnd (.mret c0) = some c0 ∧ (withSys [(0x102, 0x8000000000000002)]).ready c0 = true
      ∧ ((withSys [(0x102, 0x8000000000000002)]).core 0).atLoopEnd = true := by decide
/-- A LOOPI inside a LOOPI takes level 1. -/
theorem test_loop_inner :
    after (exec (.loopi c0 5 2) (nested 0)) (fun t => (t.core 0).sr 0x104 == 8 && (t.core 0).sr 0x105 == 12
      && (t.core 0).sr 0x106 == 0x8000000000000005 && (t.core 0).sr 0x102 == 0x8000000000000002) = true := by decide +kernel
/-- The manual's LOOPI 16,3 at 0: the body is 4 to 12. -/
theorem test_loopi :
    after (exec (.loopi c0 16 3) plain)
      (fun t => (t.core 0).sr 0x100 == 4 && (t.core 0).sr 0x101 == 12 && (t.core 0).sr 0x102 == 0x8000000000000010) = true := by
  decide +kernel

theorem witness_SystemRegisterInstructions :
    sysForm (.srr c0 3 0 0x040) = some (c0, 0, 3, 0, 0x040) ∧ sysPresent 0 0x040 = true ∧ sysReadLevel 0x040 = 0
      ∧ sysForm (.pepochWrite c0 .srset 3 4) = some (c0, 2, 3, 4, 0x150) ∧ sysPresent 0 0x150 = true ∧ sysReadLevel 0x150 ≠ 3
      ∧ sysReadLevel 0x150 ≤ (plain.core 0).level.code ∧ sysWriteLevel 0x150 ≤ (plain.core 0).level.code
      ∧ sysPresent 0 0xFFF = false ∧ sysPresent 0 0xA40 = true ∧ sysReadLevel 0xA40 ≠ 3 ∧ Level.code .s < sysReadLevel 0xA40
      ∧ sysWriteLevel 0xA40 ≠ 3 ∧ Level.code .s < sysWriteLevel 0xA40 := by decide
theorem test_fflags_w1c :
    after (exec (.srw c0 0 1 0x040) (one fun x => { x with x := [(1, 0x41)], sys := [(0x040, 0x13)] }))
      (fun t => (t.core 0).sr 0x040 == 0x52) = true := by decide +kernel

theorem witness_ActionRegisterWrites :
    plain.ready c0 = true ∧ sysPresent 0 0x544 = true ∧ 1 ≤ (plain.core 0).level.code
      ∧ ((withX [(1, 0x2000000000000000)]).core 0).rx 1 = 0x2000000000000000 ∧ (0x2000000000000000#64).getLsbD 61 = true
      ∧ ((plain.core 0).rx 0).getLsbD 61 = false
      ∧ sysPresent 576 0x571 = true ∧ ((plain.core 0).rx 0).toNat / 16 % 4 ≠ 3 ∧ (0x30#64).toNat / 16 % 4 = 3
      ∧ tlbinvReaches 0 0 0 ∧ ¬ tlbinvReaches 0 1 0 ∧ tlbinvReaches 0 15 0x4000000000000000 ∧ ¬ tlbinvReaches 0 16 0x4000000000000000
      ∧ tlbinvReaches 0 143 0x8000000000000000 ∧ ¬ tlbinvReaches 0 144 0xC000000000000000 := by
  unfold tlbinvReaches; decide
/-- Unit 0 with a command ring of 16 slots, 14 unreplied, and five replies to free. -/
def rung : State :=
  { plain with punits := [(0, { ready := true, replyPresent := true, replyLog2 := 4, replyHead := 65534, replyNext := 3,
                                rings := [(1, { present := true, log2 := 4, tail := 10, replied := 65532 })] })] }
/-- INDEX 12 fills the ring; 13 is one too many; the reply head moves to 3, the next slot. -/
theorem witness_ActionRegisterWrites_doorbells :
    (rung.punit 0).ready = true ∧ ((rung.punit 0).ring 1).present = true
      ∧ (10 + 65536 - 65532) % 65536 + (12 + 65536 - 10) % 65536 ≤ 2 ^ 4
      ∧ 2 ^ 4 < (10 + 65536 - 65532) % 65536 + (13 + 65536 - 10) % 65536
      ∧ (3 + 65536 - 65534) % 65536 ≤ (3 + 65536 - 65534) % 65536 := by decide
theorem test_doorbells :
    (((rung.doorbell 0xC00000010).punit 0).ring 1).tail = 12 ∧ ((rung.doorbell 0x300000030).punit 0).replyHead = 3 := by decide +kernel

/-- A core with messages. -/
def msg (n : Nat) : Msg := { tag := BitVec.ofNat 16 n, epoch := 0, src := 1, mbx := 3, dst := 0, payload := [5, 6], engine := none }
theorem witness_SendQueuesMessage :
    plain.ready c0 = true ∧ isCompute 0 = true ∧ (8#4).toNat ≤ 8 ∧ (24#5).toNat + (8#4).toNat ≤ 32 ∧ (plain.core 0).level = .m
      ∧ (plain.core 0).outq.length < 8 ∧ 8 ≤ ((one fun x => { x with outq := List.replicate 8 { msg := msg 0 } }).core 0).outq.length
      ∧ ¬ ((25#5).toNat + (8#4).toNat ≤ 32)
      ∧ (one fun x => { x with level := .s, x := [(1, 14 * 512)] }).ready c0 = true
      ∧ ¬ ((((one fun x => { x with level := .s, x := [(1, 14 * 512)] }).core 0).rx 1).toNat / 2 ^ 9 % 16 < 14) := by decide

/-- Mailbox 3 of core 0 holds a message. -/
def mailed (w : Wait) : State := one fun x => { x with mbx := [(3, [msg 1, msg 2])], wait := w }
theorem witness_ReceiveOldestMessage :
    isCompute 0 = true ∧ (23#5).toNat ≤ 23 ∧ mbxLevel 3 ≤ ((mailed .none).core 0).level.code ∧ (mailed .none).ready c0 = true
      ∧ ((mailed .none).core 0).mail 3 = msg 1 :: [msg 2] ∧ (msg 1).payload.length ≤ 8 ∧ (msg 1).src < 512
      ∧ (plain.core 0).mail 3 = [] ∧ ((mailed (.recv 23 3)).core 0).wait = .recv 23 3
      ∧ ((mailed (.recv 23 3)).updCore 0 fun x => { x with wait := .none }).ready c0 = true := by decide
theorem witness_ReceiveOldestMessage_refused :
    plain.ready c0 = true ∧ ¬ (0#5 ≠ 0 ∧ (0#5).toNat ≤ 23) ∧ ¬ (24#5 ≠ 0 ∧ (24#5).toNat ≤ 23)
      ∧ (one fun x => { x with level := .u }).ready c0 = true ∧ 12 ≤ (12#4).toNat ∧ ((one fun x => { x with level := .u }).core 0).level = .u
      ∧ (one fun x => { x with level := .s }).ready c0 = true ∧ 14 ≤ (14#4).toNat
      ∧ ((one fun x => { x with level := .s }).core 0).level = .s := by decide
theorem test_recv :
    after (exec (.recv c0 10 3) (mailed .none)) (fun t => (t.core 0).rx 10 == 0x0001000001200001 && (t.core 0).rx 12 == 6
      && (t.core 0).mail 3 == [msg 2]) = true := by decide +kernel

/-- Core 0 with one outbound message, and what is on the wires. -/
def outOne (st : OutState) : State :=
  { one (fun x => { x with outq := [{ msg := { msg 0 with src := 0, dst := 1 }, st := st }] }) with
    wireAcks := [.accept, .discard, .refuse, .refuseFull].map fun a => { msg := { msg 0 with src := 0, dst := 1 }, ans := a },
    wireWakes := [{ sender := 0, engine := none, dst := 1, mbx := 3 }] }
theorem witness_OutboundQueueProtocol :
    (∃ e rest, ((outOne .queued).core 0).outq = e :: rest ∧ e.st = .queued) ∧ (outOne .queued).corePowered 0 = true
      ∧ (outOne .queued).keyOfLcore 0 = 0 ∧ (outOne .queued).lcoreOf 0 = 0
      ∧ (∀ i < 4, ((outOne .inFlight).wireAcks[i]?).isSome = true) ∧ linked (outOne .inFlight) (1 / 128) ((outOne .inFlight).srcDie (msg 0))
      ∧ ((outOne .inFlight).core 0).outq = [{ msg := { msg 0 with src := 0, dst := 1 }, st := .inFlight }]
      ∧ (outOne .refused).wireWakes[0]? = some { sender := 0, engine := none, dst := 1, mbx := 3 }
      ∧ ((outOne .refusedFull).core 0).outq[0]? = some { msg := { msg 0 with src := 0, dst := 1 }, st := .refusedFull }
      ∧ ((one fun x => { x with reserved := [{ sender := 1, engine := none, mbx := 3 }] }).core 0).reserved
          = [{ sender := 1, engine := none, mbx := (3#4).toNat }] :=
  ⟨⟨_, _, rfl, rfl⟩, by unfold linked; decide⟩

/-- A message on the wire for core 0. -/
def arriving (e : BitVec 16) (g : Core → Core) : State := { one g with wireMsgs := [{ msg 1 with epoch := e }] }
def full : State := arriving 0 fun x => { x with mbx := [(3, [msg 1, msg 2, msg 3, msg 4])] }
theorem witness_ArrivalDelivers :
    (arriving 0 id).wireMsgs[0]? = some (msg 1) ∧ (arriving 0 id).discards 0 = false
      ∧ linked (arriving 0 id) ((arriving 0 id).srcDie (msg 1)) 0
      ∧ (msg 1).epoch = (((arriving 0 id).core 0).sr 0x150).setWidth 16 ∧ (((arriving 0 id).core 0).mail 3).length < 4
      ∧ (7#16) ≠ (((arriving 7 id).core 0).sr 0x150).setWidth 16 ∧ (arriving 7 id).discards 0 = false
      ∧ full.discards 0 = false ∧ ((full.core 0).mail 3).length = 4 ∧ (full.core 0).waitlist.length < 16 := by
  unfold linked; decide

/-- An entry from S with a loop and enables: R78's own case, SAVE.S.ST 0x30. -/
theorem test_entry_save :
    let y := Core.enter { level := .u, ieM := true, ieS := true, sys := [(0x102, 0x8000000000000006)] } .s
      { handler := 0x2000, sp := 0x9000, flags := 0x1B } { code := 0x20 } 0x104
    y.sr 0x550 = 0x104 ∧ y.sr 0x551 = 0x30 ∧ y.sr 0x552 = 0xC000000000000020 ∧ y.sr 0x556 = 6 ∧ y.rx 2 = 0x9000 ∧ y.ieS = false := by
  decide +kernel

theorem witness_EntryWritesSaveSet :
    Gate.autosave ⟨0x2000, 0, 0x1B⟩ = true ∧ Gate.autosave ⟨0x2000, 0, 0x0B⟩ = false ∧ Gate.keepsp ⟨0x2000, 0, 0x1B⟩ = false
      ∧ Gate.keepsp ⟨0x2000, 0, 0x3B⟩ = true := by decide

theorem witness_EventsEnterTheirGate :
    finds (gated id) 0x04 .m = true ∧ finds (gated id) 0x01 .m = true ∧ (gated id).ready c0 = true
      ∧ reservedWord 0 = true ∧ reservedWord 0xFFFFFFFF = true
      ∧ (match (fetch 0).run (gated fun x => { x with pc := 0x7FFFFFFFFFFC }) with
        | .error (.exc e) v => e.code != 0x12 && (v.core 0).mchk.isEmpty && finds v e.code ((v.core 0).level.max (lowestLevel e.code))
        | _ => false) = true := by decide +kernel
theorem test_reserved_enters :
    after (exec (.reservedOpcode c0 0xFFFFFFFF) (gated id)) (fun t => (t.core 0).pc == 0x2000 && (t.core 0).sr 0xA53 == 0xFFFFFFFF
      && (t.core 0).sr 0xA52 == 0xC000000000000001) = true := by decide +kernel

/-- The lookup of a code fails at a level. -/
def fails (s : State) (code : Nat) (from_ lv : Level) : Bool :=
  isOk ((findGate 0 code 3 from_).run s) fun r _ => match r with | .bad t _ => t == lv | .gate _ _ => false
/-- A handler at S whose save set is busy, with a table of M's own at `base`. -/
def twice (base : W64) : State :=
  let s := one fun x => { x with level := .u, dtlb := [{ m := false, log2 := 16, vpn := 0, pa := 0, perm := 1 }],
                                 sys := [(0x521, 0x1000), (0x540, 0x8000000000000000), (0x552, 0x8000000000000000), (0xA20, base)] }
  { s with dram := { bytes := gates 0x1B ++ gatesAt 0x5000 0x1D } }
/-- A PAGE_FAULT there finds S's save set busy and M's free, and DOUBLE's lookup answers so. -/
def doubles (s : State) (ok : Found → State → Bool) : Bool :=
  isOk ((findGate 0 0x04 3 .s).run s) fun r u =>
    match r with
    | .gate t _ => t == .s && (u.core 0).busy t && !(u.core 0).busy .m && isOk ((findGate 0 0x11 3 .m).run u) ok
    | .bad _ _ => false
theorem witness_EventsEnterTheirGate_escalates :
    fails plain 0x01 .m .m = true ∧ fails (one fun x => { x with level := .u }) 0x01 .u .u = true
      ∧ fails (one fun x => { x with level := .u }) 0x10 .m .m = true ∧ fails (gated fun x => { x with level := .u }) 0x01 .u .u = true
      ∧ finds (gated fun x => { x with level := .u }) 0x10 .m = true
      ∧ (isOk ((findGate 0 0x01 3 .m).run { gated id with cores := [(0, { run := .running, sys := [(0xA20, 0x1000), (0xA52, 0x8000000000000000)] })] })
          fun r u => match r with | .gate t _ => t == .m && (u.core 0).busy .m | .bad _ _ => false) = true
      ∧ doubles (twice 0x5000) (fun r v => match r with | .gate t _ => t == .m && !(v.core 0).busy .m && !(v.core 0).mfw | .bad _ _ => false) = true
      ∧ doubles (twice 0) (fun r _ => match r with | .gate _ _ => false | .bad t _ => t == .m) = true
      ∧ (isOk ((findGate 0 0x11 3 .m).run (one fun x => { x with mfw := true }))
          fun r u => match r with | .gate t _ => t == .m && (u.core 0).mfw && !(u.core 0).busy .m | .bad _ _ => false) = true
      ∧ (plain.core 0).trace = none := by decide +kernel
/-- An event with no gate at M halts the core with cause GATEBAD; a second PAGE_FAULT goes to M as DOUBLE, with level and code. -/
theorem test_escalates :
    after (exec (.reservedOpcode c0 0xFFFFFFFF) plain) (fun t => (t.core 0).run == .halted 0x10) = true
      ∧ after ((twice 0x5000).takes 0 { code := 0x04 } 0x40) (fun t => (t.core 0).sr 0xA52 == 0xC000010400000011 && (t.core 0).level == .m) = true := by
  decide +kernel

/-- Core 0 at a level with TIMER pending, and an S gate table that its data TLB maps. -/
def timed (l : Level) : State :=
  let s := one fun x => { x with level := l, dtlb := [{ m := false, log2 := 16, vpn := 0, pa := 0, perm := 1 }],
                                 sys := [(0x510, 5), (0x521, 0x1000), (0x540, 0x8000000000000000)] }
  { s with dies := [(0, { die0 with ctr := 5 })], dram := { bytes := gates 0x1B } }
theorem witness_GateCallsAndInterruptsEnter :
    (gated id).ready c0 = true ∧ ((gated id).core 0).atLoopEnd = false ∧ finds (gated id) (0x80 + (5#7).toNat) .m = true
      ∧ (timed .u).issuing 0 = true ∧ (timed .u).parityHalt 0 = (false, timed .u) ∧ ((timed .u).core 0).mchk = []
      ∧ ((timed .u).core 0).dbgHaltReq = false ∧ ((timed .u).core 0).vtrapDue = none ∧ (timed .u).pendingInts 0 = [{ code := 0x20 }] ∧ finds (timed .u) 0x20 .s = true := by
  decide +kernel
/-- The same with SAVE.S busy. -/
def timedBusy : State := (timed .u).updCore 0 fun x => x.setSr 0x552 0x8000000000000000
theorem witness_GateCallsAndInterruptsEnter_passed :
    timedBusy.issuing 0 = true ∧ timedBusy.parityHalt 0 = (false, timedBusy) ∧ (timedBusy.core 0).mchk = []
      ∧ (timedBusy.core 0).dbgHaltReq = false ∧ (timedBusy.core 0).vtrapDue = none ∧ (timedBusy.core 0).level = .u
      ∧ timedBusy.pendingInts 0 = [{ code := 0x20 }]
      ∧ (isOk ((findGate 0 0x20 3 .s).run timedBusy) fun r u => match r with | .gate t _ => (u.core 0).busy t | .bad _ _ => false) = true := by
  decide +kernel
theorem witness_InterruptLevelRule :
    isInterrupt 0x20 = true ∧ isInterrupt 0x28 = true ∧ (timed .m).issuing 0 = true ∧ (timed .m).parityHalt 0 = (false, timed .m)
      ∧ ((timed .m).core 0).mchk = [] ∧ ((timed .m).core 0).dbgHaltReq = false ∧ ((timed .m).core 0).vtrapDue = none
      ∧ (timed .m).pendingInts 0 = [{ code := 0x20 }] ∧ ((timed .m).core 0).mayTake { code := 0x20 } = false := by decide +kernel

/-- Core 0 at a level, with SAVE.ST of a saved level. -/
def saved (l : Level) (n : Nat) (st : W64) : State :=
  one fun x => { x with level := l, sys := [(n, 0x400), (n + 1, st), (n + 2, 0xC000000000000000), (n + 7, 0x77)] }
theorem witness_ReturnsRestore :
    returnForm (.sret c0) = some (c0, .s) ∧ (saved .s 0x550 0).ready c0 = true ∧ ((saved .s 0x550 0).core 0).atLoopEnd = false
      ∧ Level.code .u < Level.code .s ∧ (saved .u 0x550 0).ready c0 = true ∧ (saved .m 0x550 0).ready c0 = true
      ∧ Level.code .s < bitsOf (((saved .s 0x550 0xC0).core 0).sr 0x551).toNat 7 6
      ∧ bitsOf (((saved .s 0x550 0x50).core 0).sr 0x551).toNat 7 6 = 1 := by decide
theorem test_sret :
    after (exec (.sret c0) (saved .s 0x550 0x10)) (fun t => (t.core 0).pc == 0x400 && (t.core 0).level == .u && (t.core 0).ieS
      && (t.core 0).rx 2 == 0x77) = true := by decide +kernel

/-- Core 0 with VL, pointers p1 to p3 at rows 0, 1 and 2 with step 4, and operand-cache bytes. -/
def vec (vl : W64) : State :=
  one fun x => { x with sys := [(0x070, vl), (0x081, 0x40000), (0x082, 0x40001), (0x083, 0x40002)],
                        oc := [(3, 0x3F), (2, 0x80), (67, 0x40)] }
def vok (i : Instr) (n : W64) : Bool :=
  match vecRow i with
  | some r =>
    let x := (vec n).core (coreKey r.core)
    (vec n).ready r.core && hasVector (coreKey r.core) && r.legal && r.stop.isNone && r.ops.all (fun f => decide (f.toNat < 16))
      && !(x.sr 0x060).getLsbD 63 && x.sr 0x071 &&& 0x3F00 == 0 && x.ocBad.isEmpty && x.bg.isEmpty && (vec n).armed.isEmpty
      && decide (r.count x = n.toNat)
  | none => false
theorem witness_VectorPointerFormCompletes :
    vok (.vadd c0 (vargs 3 1 2 0 0)) 1 = true ∧ vok (.vadd c0 (vargs 3 1 2 7 0)) 0 = true
      ∧ vok (.red c0 { native := false, dA := 15, acc := 3, op := 5, mask := 0, ty := 0, stop := none }) 65536 = true
      ∧ vok (.mt5Rmax c0 { dD := 0, dA := 1, dB := 0, count := 1, stop := none }) 1 = true := by decide +kernel
theorem witness_VectorLaneResults :
    (∃ f, laneTable (.vadd c0 (vargs 3 1 2 0 0)) = some (c0, vargs 3 1 2 0 0, f)) ∧ vok (.vadd c0 (vargs 3 1 2 0 0)) 64 = true :=
  ⟨⟨_, rfl⟩, by decide +kernel⟩
/-- Four elements: a by pointer 4, b by descriptor 1 of BF16, d by descriptor 2 of FP32, under mask 1 with a SUM tap; and, in the other
form, a in the line of L1 at x20 and b by pointer 4. -/
def nativeAdd : VArgs := vform true true 2 20 1 1 0
def natively : State :=
  one fun x => { x with
    sys := [(0x070, 4), (0x084, 0x40005), (0x091, 0x40006)], x := [(20, 0x1000)], oc := [(0, 0x80), (1, 0x3F), (323, 0x40), (384, 5)]
    l1 := [(256, { valid := true, line := 32, vline := 32, data := 0x3F800000 })]
    desc := [(9, 0x1000100010004), (13, BitVec.ofNat 64 (2 * 2 ^ 48 + 2 ^ 14 + 1)),
             (16, 0x200), (17, 0x1000100010004), (21, BitVec.ofNat 64 (4 * 2 ^ 48 + 2 ^ 14))] }
theorem witness_VectorLaneResults_native :
    let x := natively.core 0
    natively.ready c0 = true ∧ isCompute 0 = true ∧ (x.sr 0x060).getLsbD 63 = false ∧ x.sr 0x071 &&& 0x3F00 = 0 ∧ x.ocBad = [] ∧ x.bg = []
      ∧ natively.armed.get [] (unitOfKey 0) = [] ∧ (x.sr 0x074).toNat / 16 % 8 < 6 ∧ (2#5).getLsbD 4 = false ∧ (20#5).getLsbD 4 = true
      ∧ (x.descOf 1).space = 1 ∧ (x.descOf 1).malformed = false ∧ (x.descOf 1).scaled = false ∧ (x.descOf 1).count = 4
      ∧ (x.descOf 2).space = 1 ∧ (x.descOf 2).malformed = false ∧ (x.descOf 2).scaled = false ∧ (x.descOf 2).count = 4 := by decide +kernel
theorem witness_VectorLaneResults_places :
    ∀ e < 4, ∀ g < 4, e ≠ g → ∀ p < 4, ∀ q < 4,
      ((((natively.core 0).descOf 2).place 0 e).1 + p) % ocSize ≠ ((((natively.core 0).descOf 2).place 0 g).1 + q) % ocSize := by
  decide +kernel
theorem witness_VectorLaneResults_memory :
    opndReady natively 0 false 20 0 4 ∧ opndReady natively 0 false 4 0 4 ∧ opndReady natively 0 true 2 0 4 := by
  refine ⟨⟨256, ⟨?_, ?_, ?_, ⟨0, ?_⟩, ?_⟩, ?_⟩, trivial, ?_, ?_, ?_, ?_⟩ <;> decide +kernel
/-- 2.0 + 1.0 under the mask; the tap sums the elements that are on. -/
theorem test_vadd_native :
    after (exec (.vadd c0 nativeAdd) natively) (fun t => (t.core 0).ocBytes 0x200 4 == [0, 0, 0x40, 0x40] && (t.core 0).ocBytes 0x204 4 == [0, 0, 0, 0]
      && (t.core 0).sr 0x078 == 0x40400000 && (t.core 0).sr 0x084 == 0x40009) = true := by decide +kernel
theorem test_vadd_memory :
    after (exec (.vadd c0 (vargs 3 20 4 0 0)) natively) (fun t => ocElem (t.core 0) 0 4 0 == 0x40400000) = true := by decide +kernel
/-- 1.0 + 2.0 in FP32. -/
theorem test_vadd :
    after (exec (.vadd c0 (vargs 3 1 2 0 0)) (vec 1)) (fun t => ocElem (t.core 0) 2 4 0 == 0x40400000 && (t.core 0).sr 0x083 == 0x40006
      && (t.core 0).pc == 4) = true := by decide +kernel
theorem witness_VectorStateInstructions :
    (∃ g, vecState (.rclr c0 3 5) = some (c0, g)) ∧ (∃ g, vecState (.rclr c0 2 2) = some (c0, g))
      ∧ (∃ g, vecState (.setvl c0 0 31) = some (c0, g)) ∧ plain.ready c0 = true ∧ hasVector 0 = true :=
  ⟨⟨_, rfl⟩, ⟨_, rfl⟩, ⟨_, rfl⟩, by decide⟩
theorem test_setvl_clamps :
    after (exec (.setvl c0 5 1) (withX [(1, 65537)])) (fun t => (t.core 0).rx 5 == 65536 && (t.core 0).sr 0x070 == 65536) = true := by
  decide +kernel

/-- Mainland core 0 and die 0's controller run. -/
def outside : State :=
  { cores := [(576, { run := .running }), (592, { run := .running })], dies := [(0, die0)], board := { mainlandOn := true } }
theorem witness_EngineInstructionsNeedTheirCore :
    outside.ready (.general 0) = true ∧ computeOnly (.lbar (.general 0)) = some (.general 0) ∧ isCompute 576 = false
      ∧ outside.ready (.dieCtl 0) = true ∧ vectorOnly (.setvli (.dieCtl 0) 1 0) = some (.dieCtl 0) ∧ hasVector 592 = false := by decide

/-! ### Descriptors, streams and tiles -/

/-- Descriptor words: `n` elements of `b` bytes one after another, FMT and SPACE. -/
def desc (base : W64) (n b fmt space : Nat) : List W64 :=
  [base, BitVec.ofNat 64 (n + 0x1000100010000), 0, 0, 0, BitVec.ofNat 64 (b * 2 ^ 48 + space * 2 ^ 14 + fmt), 0, 0]
/-- A descriptor register as the core holds it. -/
def descAt (k : Nat) (l : List W64) : SMap W64 := (l.zipIdx.filter fun p => p.1 != 0).map fun p => (8 * k + p.2, p.1)
def descs : SMap W64 := descAt 0 (desc 0x1000 32 2 1 0) ++ descAt 1 (desc 0 32 2 1 1)
theorem witness_DescriptorInstructions :
    let s := withX [(1, 0x40), (2, 0x41)]
    s.ready c0 = true ∧ isCompute 0 = true ∧ ((s.core 0).rx 1).toNat % 64 = 0 ∧ ((s.core 0).rx 2).toNat % 64 ≠ 0
      ∧ isOk ((translate 0 .m .d .load false false 0x40).run s) (fun pa t => isOk ((loadSpan 0 0x40 pa 64 true).run t) fun _ _ => true) = true
      ∧ isOk ((translate 0 .m .d .store false false 0x40).run s) (fun pa t =>
          isOk ((storeSpan 0 0x40 pa 64 (packBits 64 (((t.core 0).descWords 15).map (·.toNat)))).run t) fun _ _ => true) = true := by
  decide +kernel

/-- Core 0 with descriptors 0 (memory) and 1 (operand cache), and a control word in x4. -/
def streaming (n : Nat) (u : StreamUnit) : State :=
  one fun x => { x with x := [(4, BitVec.ofNat 64 (n * 2 ^ 32 + 63 * 2 ^ 52))], desc := descs, units := if u = {} then [] else [(0, u)] }
theorem witness_SgoStartsUnit :
    let x := (streaming 1 {}).core 0
    let ctl := x.rx 4
    let sd := x.descOf 0
    let td := x.descOf 1
    (streaming 1 {}).ready c0 = true ∧ isCompute 0 = true ∧ (x.unit 0).state = 0 ∧ bitsOf ctl.toNat 31 29 = 0 ∧ ctl.getLsbD 28 = false
      ∧ x.bg = [] ∧ sd.count = 32 ∧ td.count = 32 ∧ bitsOf ctl.toNat 47 32 = 1 ∧ sgoIllegal sd td 0 = false ∧ sd.misaligned = none
      ∧ td.misaligned = none ∧ bitsOf (((streaming 0 {}).core 0).rx 4).toNat 47 32 = 0
      ∧ (((streaming 1 { state := 2 }).core 0).unit 0).state = 2 ∧ (streaming 1 { state := 2 }).ready c0 = true
      ∧ (((streaming 1 { state := 3 }).core 0).unit 0).state = 3
      ∧ ¬ ((streaming 1 {}).core 0).rx 5 ≠ 0 ∧ 0 % 16 < 14 ∧ ((streaming 1 {}).core 0).outq.length < 8 := by decide +kernel
/-- A stream that NOTIFYs mailbox 3 of core 2: its control word and the word after it. -/
theorem witness_SgoStartsUnit_notify :
    let x : Core := { x := [(4, 0x10000000), (5, 3 * 512 + 2)] }
    (x.rx 4).getLsbD 28 = true ∧ (x.rx (4 + 1)).toNat / 2 ^ 9 % 16 < 14 ∧ bitsOf (x.rx 4).toNat 31 29 = 0
      ∧ bitsOf (x.rx 4).toNat 47 32 = 0 ∧ x.outq.length < 8 := by decide

/-- Unit 0 as SGO starts it. -/
def running : StreamUnit :=
  { state := 1, src := desc 0x1000 32 2 1 0, dst := desc 0 32 2 1 1, ctl := 0x200000000, level := .s, credits := 63 }
theorem witness_StreamControlAndWaits :
    let s := streaming 1 running
    s.ready c0 = true ∧ Level.code .s ≤ (s.core 0).level.code ∧ ((s.core 0).unit 0).writes? = none
      ∧ ((withX [(1, 4095)]).core 0).rx 1 = 4095 ∧ ((s.core 0).unit 0).state = 1 ∧ ((s.core 0).unit 0).noticeDue = false
      ∧ (((streaming 1 { running with state := 2 }).core 0).unit 0).state = 2
      ∧ ((one fun x => { x with level := .u, units := [(0, running)] }).core 0).level.code < Level.code .s
      ∧ (one fun x => { x with level := .u, units := [(0, running)] }).ready c0 = true
      ∧ (s.core 0).gather0 = none ∧ (s.core 0).gather1 = none
      ∧ ((one fun x => { x with wait := .swait 0 (some 0) }).updCore 0 fun y => { y with wait := .none }).ready c0 = true
      ∧ ((one fun x => { x with wait := .lbar }).updCore 0 fun y => { y with wait := .none }).ready c0 = true
      ∧ ((streaming 1 { running with state := 1, noticeDue := true }).core 0).unit 0 = { running with state := 1, noticeDue := true } := by
  decide +kernel
/-- Each wait over and not over: a unit that runs with SFILL 7 against thresholds 7, 8 and none, and an idle one. -/
theorem witness_StreamControlAndWaits_waits :
    swaitOver { running with sfill := 7 } (some 7) ∧ ¬ swaitOver { running with sfill := 7 } (some 8)
      ∧ ¬ swaitOver { running with sfill := 7 } none ∧ swaitOver {} none ∧ lbarOver (plain.core 0)
      ∧ ¬ lbarOver ((streaming 1 running).core 0) :=
  ⟨.inr ⟨7, rfl, by decide⟩, by
    rintro (h | ⟨t, h, g⟩)
    · exact h rfl
    · cases h; revert g; decide, by rintro (h | ⟨t, h, g⟩) <;> simp_all [running],
    .inl (by decide), ⟨by decide, by decide⟩, fun h => by have := (h.1 0 (by decide) (by decide)).1; revert this; decide +kernel⟩
theorem witness_StreamGranuleIsGranted :
    let s := streaming 1 { running with level := .m }
    let x := s.core 0
    s.corePowered 0 = true ∧ isCompute 0 = true ∧ x.run ≠ .inReset ∧ (((List.range 8).map fun j => (x.rr + j) % 8).find? fun i => x.eligible i) = some 0
      ∧ (x.unit 0).noticeDue = false ∧ x.cannotWrite (x.unit 0) = false
      ∧ isOk ((granuleBody 0 0).run (s.updCore 0 fun y => { y with rr := 1 }))
          (fun _ u => decide (ctlIter ((u.core 0).unit 0).ctl > ((u.core 0).unit 0).iter)) = true := by decide +kernel
/-- Unit 3 moves 48 FP32 elements from the operand cache at 0 to 0x200, twice. -/
def copying : State :=
  one fun x => { x with
    rr := 2, oc := [(0, 1), (4, 2), (64, 3)]
    units := [(3, { state := 1, src := desc 0 48 4 0 1, dst := desc 0x200 48 4 0 1, ctl := 0x200000000, level := .m, credits := 63 })] }
theorem witness_StreamGranuleIsGranted_copy :
    let x := copying.core 0
    let u := x.unit 3
    let dd := Desc.of u.dst
    copying.corePowered 0 = true ∧ x.run ≠ .inReset
      ∧ (((List.range 8).map fun j => (x.rr + j) % 8).find? fun i => x.eligible i) = some 3 ∧ u.noticeDue = false
      ∧ (Desc.of u.src).space = 1 ∧ dd.space = 1 ∧ (Desc.of u.src).fmt = 0 ∧ dd.fmt = 0 ∧ u.hit = [] ∧ u.iter + 1 < ctlIter u.ctl
      ∧ x.ocBad = [] ∧ copying.armed.get [] (unitOfKey 0) = [] ∧ u.granule ≠ []
      ∧ (u.granule.all fun e => u.granule.all fun f => (List.range 4).all fun a => (List.range 4).all fun b =>
          e == f || ((dd.place (u.iter * dd.repstep) e).1 + a) % ocSize != ((dd.place (u.iter * dd.repstep) f).1 + b) % ocSize) = true := by
  decide +kernel
theorem test_granule_copies :
    after (exec (.streamGranule c0) copying) (fun t => (t.core 0).ocBytes 0x200 4 == [1, 0, 0, 0] && (t.core 0).ocBytes 0x204 4 == [2, 0, 0, 0]
      && (t.core 0).rr == 4) = true := by decide +kernel

/-- Core 0 with T tile 0 of one row, Z tile 0 of 32 rows, Z tile of array 1, and W registers of both arrays. -/
def tiled (g : Core → Core) : State :=
  one fun x => g { x with
    desc := descs, x := [(5, 1), (6, 256)],
    tiles := [(0, { rows := 1, st := 2, fmt := 7 }), (1, { rows := 1, st := 2, fmt := 1 }), (16, { rows := 32, st := 2 }),
      (24, { rows := 32, st := 2 }), (32, { rows := 32, st := 2, fmt := 1 }), (36, { rows := 32, st := 2, fmt := 1 })],
    cells0 := { cls := 1, fmt := 1 }, cells1 := { cls := 1, fmt := 1 } }
theorem witness_TileLoadsAndStoresComplete :
    let s := tiled id
    let x := s.core 0
    let d := x.descOf 0
    s.ready c0 = true ∧ (x.sr 0x061).getLsbD 63 = false ∧ x.gather0 = none ∧ x.gather1 = none ∧ x.bg = []
      ∧ isOk ((tileChecks 0 (instrWord (.tld c0 1 0 1 none)) 1 1 d false).run s) (fun b t => !b && t == s) = true
      ∧ 0 < x.rowsOf 1 ∧ ((d.scaled || blockScaled 1) && d.space == 1) = false
      ∧ isOk ((rowLoop 0 x.pc (tldRow 0 1 1 d) (fun _ => tldStop 0 1) 1 0 none).run
          ((s.updCore 0 fun y => y.runGroupOf 1).updCore 0 fun y => y.updTile 1 fun t =>
            { t with st := 1, writer := 8, fmt := 1, data := [], scale := [] })) (fun _ _ => true) = true
      ∧ isW 1 = false
      ∧ isOk ((tileChecks 0 (instrWord (.tst c0 1 0 none)) 1 1 d true).run s) (fun b t => !b && t == s) = true
      ∧ isOk ((rowLoop 0 x.pc (tstRow 0 1 1 (x.zHolds 1) d) (tstStop 0 1 1 (x.zHolds 1) d) 1 0 none).run s)
          (fun _ _ => true) = true := by decide +kernel
/-- 32 BF16 elements at 0x1000, whose line the L1 holds, and at the top of the operand cache. -/
def tiledHit : State :=
  tiled fun x => { x with
    l1 := [(256, { valid := true, line := 32, vline := 32, data := 0x3F80 })]
    desc := descAt 0 (desc 0x1000 32 2 1 0) ++ descAt 1 (desc 0x3FFC0 32 2 1 1) }
theorem witness_TileLoadsAndStoresComplete_places :
    tileReady tiledHit 0 ((tiledHit.core 0).descOf 0) ∧ tileReady tiledHit 0 ((tiledHit.core 0).descOf 1)
      ∧ ((tiledHit.core 0).descOf 1).count = (tiledHit.core 0).rowsOf 1 * rowElems 1 1 ∧ ((tiledHit.core 0).tile 1).st = 2
      ∧ ((tiledHit.core 0).tile 1).bad = [] ∧ ((tiledHit.core 0).tile 1).poison = false ∧ isW 1 = false
      ∧ (∀ e < 32, ∀ f < 32, e ≠ f → ∀ a < 2, ∀ b < 2,
          placeByte ((tiledHit.core 0).descOf 1) e a ≠ placeByte ((tiledHit.core 0).descOf 1) f b) := by
  have h : ∀ e < 32, let a := (((tiledHit.core 0).descOf 0).place 0 e).1
      ((tiledHit.core 0).level = .m ∧ ((tiledHit.core 0).sr matpNo).getLsbD 63 = false ∧ (BitVec.ofNat 64 a).toNat < 2 ^ 46
        ∧ tiledHit.region (BitVec.ofNat 64 a).toNat = .dram 0 ∧ (tiledHit.core 0).l1Find ((BitVec.ofNat 64 a).toNat / 128) = some 256
        ∧ ((tiledHit.core 0).l1Line 256).err = 0 ∧ ((tiledHit.core 0).l1Line 256).poison = 0) ∧ a < 2 ^ 46 ∧ a % 128 + 2 ≤ 128 := by
    decide +kernel
  refine ⟨?_, ?_, by decide +kernel⟩
  · iterate 11 refine And.intro (by decide +kernel) ?_
    refine fun e he => .inr ⟨256, ?_⟩
    obtain ⟨⟨h1, h2, h3, h4, h5, h6, h7⟩, h8, h9⟩ := h e he
    exact ⟨⟨h1, h2, h3, ⟨0, h4⟩, h5, h6, h7⟩, h8, h9⟩
  · iterate 11 refine And.intro (by decide +kernel) ?_
    exact fun e he => .inl (by decide +kernel)
/-- TLD of that memory puts 1.0 into the first place of tile 1; TST puts the zeros of tile 1 into the operand cache. -/
theorem test_tld_tst :
    after (exec (.tld c0 1 0 1 none) tiledHit) (fun t => (((t.core 0).tile 1).elem 1 1 0 0).1 == 0x3F80) = true
      ∧ after (exec (.tst c0 1 0 none) tiledHit) (fun t => l1Byte t 0 0x1000 == some 0 && l1Byte t 0 0x1001 == some 0) = true := by
  decide +kernel
theorem witness_TileReleaseAndConfigure :
    let s := tiled id
    let x := s.core 0
    s.ready c0 = true ∧ x.gather0 = none ∧ x.gather1 = none ∧ x.bg = [] ∧ (∀ i < 8, (x.unit i).state = 0 ∨ (x.unit i).state = 3)
      ∧ x.rowsOf 39 ≠ 0 ∧ (x.tile 39).st ≠ 4 ∧ (x.rx 5).toNat < 2 ^ 32 ∧ (x.rx 6).toNat ≤ 256
      ∧ ((tiled fun x => { x with bg := [.rel 0 8], tiles := [(0, { rows := 1, st := 4 })] }).core 0).bg = [.rel 0 8]
      ∧ (((tiled fun x => { x with bg := [.rel 0 8], tiles := [(0, { rows := 1, st := 4 })] }).core 0).tile 0).st = 4
      ∧ (tiled id).corePowered 0 = true ∧ (5 : Nat).testBit 0 = true ∧ (x.tile 0).rows ≠ (x.rx 6).toNat := by decide +kernel
theorem witness_TileMoveToOperandCache :
    let s := tiled id
    let x := s.core 0
    let t := tiled fun x => { x with bg := [.tmov 16 15 4095 0 0 0 true] }
    s.ready c0 = true ∧ x.gather0 = none ∧ x.gather1 = none ∧ tmovReady x 16 3 0 0 6 ∧ tmovReady x 0 3 1 12 6 ∧ tmovReady x 24 3 3 0 0
      ∧ tmovReady ((tiled fun x => { x with tiles := [(3, { rows := 32 }), (16, { rows := 32, st := 2 })] }).core 0) 16 3 2 1 0
      ∧ (0x10#6 + (0#4).setWidth 6).toNat = 16
      ∧ (t.core 0).bg = [.tmov 16 15 4095 0 0 0 true] ∧ ((t.core 0).tile 16).bad = [] ∧ ((t.core 0).tile 16).rows ≤ 256
      ∧ t.corePowered 0 = true ∧ t.armed.get [] (unitOfKey 0) = [] := by
  refine ⟨?_, ?_, ?_, ?_, ?_, ?_, ?_, ?_⟩ <;> first | decide +kernel | (unfold tmovReady; decide +kernel)

/-! ### Arrays, fences and the task boundary -/

/-- T tile 1, W register 0 and Z tile 0 of an array, FP16 (array 0) or with KEEP. -/
def mm (arr : Fin 2) : MmArgs := { arr := arr, t := 1, w := 0, z := 0, acc := true, rel := true }
def grouped (timed : Bool) : State :=
  tiled fun x => { x with gather1 := some { w := 0, nw := 1, cls := 1, reqs := [], rels := [], tokens := 4, timed := timed } }
theorem witness_ForwardInstructionsAreAccepted :
    let s := tiled id
    let x := s.core 0
    s.ready c0 = true ∧ isCompute 0 = true ∧ mmfReady x 0 1 0 ∧ mmfReady x 1 1 0 ∧ wReady x 0 0 1 ∧ wReady x 1 0 1
      ∧ (x.cells 0).cls = fmtClass (x.tile 1).fmt ∧ (x.tile 1).rows * packOf (x.tile 1).fmt < x.fill
      ∧ (((grouped true).core 0).group 1).isSome = true ∧ (grouped true).ready c0 = true ∧ (grouped true).corePowered 0 = true
      ∧ ((grouped true).core 0).queued 1 < 8 ∧ x.group 0 = none := by
  refine ⟨?_, ?_, ?_, ?_, ?_, ?_, ?_⟩ <;> first | decide +kernel | (unfold mmfReady; decide +kernel) | (unfold wReady; decide +kernel)
/-- Array 1's group releases T tiles 1 and 2 after it; array 0's open group has still to read tile 1. -/
def sharing : State :=
  tiled fun x => { x with
    gather0 := some { w := 0, nw := 1, cls := 1, reqs := [{ t := 1, tf := 1, z := 0, acc := true, zHeld := [true] }], rels := [], tokens := 1, timed := true }
    gather1 := some { w := 0, nw := 1, cls := 1, reqs := [], rels := [(1, 8), (2, 8)], tokens := 4, timed := true } }
theorem witness_ForwardInstructionsAreAccepted_shared :
    sharing.ready c0 = true ∧ sharing.corePowered 0 = true ∧ (sharing.core 0).queued 1 < 8
      ∧ ((sharing.core 0).group 1).map (·.rels) = some [(1, 8), (2, 8)]
      ∧ (((sharing.core 0).group (1 - 1)).any fun o => o.reqs.any fun q => q.t == 1) = true
      ∧ (((sharing.core 0).group (1 - 1)).any fun o => o.reqs.any fun q => q.t == 2) = false := by decide +kernel
theorem test_shared_release :
    after (exec (.mmflush c0 1) sharing) (fun t => ((t.core 0).group 0).map (·.rels) == some [(1, 8)]
      && (t.core 0).bg == [.gather 1 0 1 0 [], .rel 2 8]) = true := by decide +kernel
theorem witness_ArrayPassComputesSums :
    let s := tiled fun x => { x with bg := [.pass 1 15 1 36 24 true true true] }
    s.corePowered 0 = true ∧ (s.core 0).bg = [.pass 1 15 1 (wCode 1 4) (zCode 1 0) true true true] ∧ fmtClass 1 = 1
      ∧ ((s.core 0).tile 15).bad = [] ∧ ((s.core 0).tile (zCode 1 0)).bad = [] ∧ s.armed.get [] (unitOfKey 0) = [] := by decide +kernel
theorem witness_ArrayPassComputesSums_load :
    let s := tiled fun x => { x with bg := [.pass 1 15 1 (wCode 1 0) (zCode 1 0) true false true] }
    s.corePowered 0 = true ∧ (s.core 0).bg = [.pass 1 15 1 (wCode 1 0) (zCode 1 0) true false true] ∧ ((s.core 0).tile (wCode 1 0)).st = 2 := by
  decide +kernel
/-- MMGATHER of two blocks at the highest Z index it may have; FILL 1 is reached, FILL 256 is not. -/
def gathering (fill : W64) : State :=
  tiled fun x => { x with
    sys := [(0x0E9, fill)]
    tiles := [(1, { rows := 1, st := 2, fmt := 1 }), (22, { rows := 32, st := 2 }), (23, { rows := 32, st := 2 }),
      (32, { rows := 32, st := 2, fmt := 1 }), (35, { rows := 32, st := 2, fmt := 1 })] }
theorem witness_ForwardInstructionsAreAccepted_gather :
    (∀ j ≤ (1#2).toNat, mmfReady ((gathering 0).core 0) 0 1 (6 + j)) ∧ (∀ j ≤ (1#2).toNat, wReady ((gathering 0).core 0) 0 (3 + j) 1)
      ∧ (gathering 0).ready c0 = true ∧ (6#3).toNat + (1#2).toNat < 8 ∧ ((gathering 0).core 0).fill ≤ 1
      ∧ 1 < ((gathering 255).core 0).fill := by
  refine ⟨fun j hj => ?_, fun j hj => ?_, ?_⟩
  · obtain rfl | rfl : j = 0 ∨ j = 1 := by have : j ≤ 1 := hj; omega
    all_goals unfold mmfReady; decide +kernel
  · obtain rfl | rfl : j = 0 ∨ j = 1 := by have : j ≤ 1 := hj; omega
    all_goals unfold wReady; decide +kernel
  · decide +kernel

/-- The error of T tile 0 in G16 with its activations in T tile 1. -/
def bwd : BwdArgs := { dy := 0, dx := 1, w := 0, z := 0, acc := true, keep := true, tw := false, rely := false, relx := false }
def waits (op : BgOp) : State := tiled fun x => { x with bg := [op] }
theorem witness_BackwardPass :
    let s := tiled id
    let x := s.core 0
    s.ready c0 = true ∧ x.gather0 = none ∧ x.gather1 = none ∧ x.bg = [] ∧ (x.tile 0).rows ≠ 0 ∧ (x.tile 0).st = 2 ∧ (x.tile 0).fmt = 7
      ∧ (x.tile 0).poison = false ∧ (x.tile 1).poison = false ∧ (x.tile (zCode 0 0)).poison = false ∧ bwd.tw = false
      ∧ (x.tile (wCode 0 0)).st = 2 ∧ (x.tile (wCode 0 0)).poison = false ∧ fmtClass (x.tile (wCode 0 0)).fmt = 1
      ∧ (x.tile 1).st = 2 ∧ fmtClass (x.tile 1).fmt = 1 ∧ (x.tile 1).rows = (x.tile 0).rows ∧ (x.tile (zCode 0 0)).st ≠ 3
      ∧ (x.tile 0).rows ≤ (x.tile (zCode 0 0)).rows ∧ x.cells0.cls = 1 ∧ 32 * ((0#3).toNat + 1) ≤ (x.tile (zCode 1 0)).rows
      ∧ gradientHolding 0 = true ∧ (x.tile (16 + (0#4).toNat)).rows ≠ 0
      ∧ ((withX [(1, 32736)]).core 0).rx 1 = 32736 ∧ 32736 + (x.tile 16).rows ≤ 32768
      ∧ ((waits (.mmbwd 0 1 1 32 16 true true false true)).core 0).bg = [.mmbwd 0 1 1 32 16 true true false true]
      ∧ ((waits (.mmbwd 0 1 1 32 16 true false false true)).core 0).bg = [.mmbwd 0 1 1 (wCode 0 0) 16 true false false true]
      ∧ (x.tile 16).bad = [] ∧ (x.tile (wCode 0 0)).bad = [] ∧ (x.tile 0).bad = [] ∧ (x.tile 1).bad = []
      ∧ ((waits (.zdrain 24 7 false true)).core 0).bg = [.zdrain 24 7 false true] ∧ ((waits (.zdrain 24 7 false true)).core 0).shadow = none
      ∧ ((waits (.zdrain 24 7 false true)).updCore 0 fun y => { y with shadow := some { snap := [], idle := true, pois := false } }).corePowered 0 = true
      ∧ ((waits (.gacc 3 16 32736 true)).core 0).bg = [.gacc 3 16 32736 true]
      ∧ ((waits (.gacc 4 16 0 true)).core 0).bg = [.gacc 4 16 0 true] ∧ (waits (.gacc 4 16 0 true)).corePowered 0 = true
      ∧ ((waits (.gacc 4 16 0 true)).core 0).gbpois = 0 := by decide +kernel

/-- Core 0 with lines in its caches. -/
theorem witness_FencesComplete :
    fenceForm (.fenceCore c0) = some (c0, .core, true, none) ∧ fenceForm (.fenceBoard ⟨c0, none⟩) = some (c0, .board, false, none)
      ∧ hit.ready c0 = true ∧ ((hit.core 0).l1Line 0).valid = true
      ∧ fenceForm (.fenceAtoll ⟨c0, some 0⟩) = some (c0, .atoll, false, some 0) ∧ (hit.fence 0 .atoll false (some 0)).1 = false := by
  exact ⟨rfl, rfl, by decide +kernel, by decide +kernel, rfl, by decide +kernel⟩
/-- FENCE.ATOLL drops the L1 line. -/
theorem test_fence_drops :
    after (exec (.fenceAtoll ⟨c0, none⟩) hit) (fun t => ((t.core 0).l1Find 0).isNone) = true := by decide +kernel

theorem witness_RangeInstructions_pass : (hit.core 0).l1Find 0 = some 0 ∧ 0 ∈ [0, 1] := by decide +kernel
/-- The lagoon of atoll 0 holds line 1 with its first byte dirty; the L1 does not. -/
def lagHit : State := { hit with atolls := [(0, { powered := true, lag := [(32, { valid := true, line := 1, data := 0x77, dirty := 1, st := 2 })] })] }
theorem witness_RangeInstructions_lagoon :
    atollOfKey 0 = some 0 ∧ 1 ∈ [0, 1] ∧ ((lagHit.rangePass 0 .atoll true [0, 1]).atoll 0).lagFind 0 1 = some 32
      ∧ (lagHit.core 0).l1Find 1 = none ∧ (lagHit.atoll 0).lagFind 0 1 = some 32 ∧ (lagHit.atoll 0).isDead 1 = false
      ∧ ((lagHit.atoll 0).lagLine 32).dirty ≠ 0 ∧ ((lagHit.atoll 0).lagLine 32).err = 0
      ∧ lagHit.lineReachable (atollPlace 0) 1 = true := by decide +kernel
theorem test_cinv_writes_back :
    (lagHit.rangePass 0 .die true [1]).dram.bytes = [(128, 0x77)] ∧ ((lagHit.rangePass 0 .die true [1]).atoll 0).lag = [] := by
  decide +kernel
theorem witness_RangeInstructions :
    let s := withX [(1, 0x80), (2, 2 * 2 ^ 20), (3, 2 * 2 ^ 20 + 1), (4, 256), (5, 16 * 2 ^ 20), (6, 16 * 2 ^ 20 + 1)]
    s.ready c0 = true ∧ Scope.atoll ≠ Scope.core ∧ ((s.core 0).rx 0).toNat = 0 ∧ ((s.core 0).rx 2).toNat ≤ 2 * 2 ^ 20
      ∧ isOk ((rangeLines 0 .cmo 0x80 256).run s) (fun _ _ => true) = true ∧ 2 * 2 ^ 20 < ((s.core 0).rx 3).toNat
      ∧ ((s.core 0).rx 5).toNat ≤ 16 * 2 ^ 20 ∧ ((0x80#64).toNat + 127) / 128 < ((0x80#64).toNat + 256) / 128
      ∧ isOk ((rangeLines 0 .dead 0x80 256).run s) (fun _ _ => true) = true ∧ 16 * 2 ^ 20 < ((s.core 0).rx 6).toNat
      ∧ (s.atoll 0).deadEntry (deadRegion 0) = some 0 := by decide +kernel
/-- DEAD marks the lines that lie wholly in its range. -/
theorem test_dead :
    after (exec (.dead c0 1 2) (withX [(1, 0x81), (2, 0x17F)])) (fun t => !(t.atoll 0).isDead 1 && (t.atoll 0).isDead 2
      && (t.atoll 0).isDead 3 && !(t.atoll 0).isDead 4) = true := by decide +kernel

/-- Core 0 waits as arrived; the other cores of its atoll are in reset. -/
def boundary0 (draining : Nat) : State :=
  { one fun x => { x with taskArrived := true, wait := .fenceTask } with dies := [(0, { die0 with draining := draining })] }
theorem witness_TaskBoundary :
    plain.ready c0 = true ∧ (one fun x => { x with level := .u }).ready c0 = true ∧ (plain.core 0).level ≠ .u
      ∧ (∀ i < 8, ((plain.core 0).unit i).state = 0 ∨ ((plain.core 0).unit i).state = 3) ∧ (plain.core 0).taskRan = false
      ∧ ((one fun x => { x with taskRan := true }).core 0).taskRan = true
      ∧ (one fun x => { x with taskRan := true }).ready c0 = true ∧ plain.atollDrained 0 0 = false
      ∧ ((boundary0 1).die 0).up = true ∧ ((boundary0 1).atoll 0).powered = true
      ∧ (∀ k ∈ coresAt 0 0, ((boundary0 1).core k).arrived = true) ∧ (∃ k ∈ coresAt 0 0, ((boundary0 1).core k).taskArrived = true)
      ∧ (boundary0 1).atollDrained 0 0 = false ∧ ((boundary0 1).die 0).logicalAt 0 = some 0
      ∧ ((boundary0 1).die 0).draining.testBit 0 = true ∧ ((boundary0 0).die 0).draining.testBit 0 = false
      ∧ ((boundary0 0).core 0).wait = .fenceTask := by decide +kernel

/-! ### DRAM, arbiters and causeways -/

/-- Four dies up, the mainland on and the service core with its firmware. -/
def board4 : State :=
  { plain with
    dies := [(0, die0), (1, die0), (2, die0), (3, die0)],
    board := { mainlandOn := true, serviceFwOk := true, causeway := [(0, true), (2, true), (4, true)] } }
theorem witness_PhysicalWritesStore :
    (∀ l < 2, board4.lineReachable (unitPlace 0) l = true) ∧ 120 + 16 < 256
      ∧ board4.lineReachable (unitPlace 0) (0xBFFFFFFF80 / 128) = true ∧ board4.lineReachable (unitPlace 0) (0x300000000000 / 128) = false := by
  decide +kernel
theorem test_physWrite :
    (board4.physWrite (unitPlace 0) 126 [1, 2, 3] 0 1).dram.bytes = [(126, 1), (127, 2), (128, 3)] := by decide +kernel

/-- Class 1 waits with two requests at channel 7 of die 0, and a flit at an output of stop 14. -/
def busyDie (a m : Arbiter) : State := { board4 with dies := [(0, { die0 with ddr := [(7, a)], mesh := [(74, m)] })] }
def waiting (c : Nat) (l : List (List Nat)) : Arbiter := { waiting := [(c, l)] }
/-- A response waits for the way out of stop 0 that leads to causeway CH, and one inside the die. -/
def answering : State := { board4 with dies := [(0, { die0 with resp := [(4, { waiting := [(2, [[10755, 7]])], last := 4 })] })] }
theorem witness_ArbitersServeTheirClasses :
    ({ waiting 1 [[], []] with urgent := [1], age := [(1, 9)] }.noteUrgent (fun _ => 9) ([0] ++ [1, 2])).urgent = 1 :: []
      ∧ (∀ c < 5, ((busyDie (waiting 4 [[], []]) {}).die 0).ddrLimit c ≠ 0 → 0 < ((busyDie (waiting 4 [[], []]) {}).die 0).ddrLimit c)
      ∧ (waiting 4 [[], []]).isPending 4 = true ∧ (∀ e < 5, e ≠ 4 → (waiting 4 [[], []]).isPending e = false)
      ∧ (waiting 0 [[]]).isPending 0 = true ∧ ((busyDie {} {}).die 0).ddr.get {} 7 = {}
      ∧ ((busyDie {} (waiting 0 [[5, 6]])).die 0).mesh.get {} 74 = waiting 0 [5 :: [6]]
      ∧ (busyDie {} (waiting 0 [[5, 6]])).armed.get [] 0 = [] ∧ 5 < 600 ∧ 5 ≠ 0 * 150 + 74
      ∧ (∀ r ∈ (waiting 4 [[10004, 9], []]).waiting.get [] 4, ∀ h ∈ r.head?, 10000 ≤ h)
      ∧ (((busyDie {} (waiting 0 [[5, 6]])).die 0).resp.get {} 74).next = none ∧ gatewayAt 0 (14 % 6, 14 / 6) = none
      ∧ ((answering.die 0).resp.get {} 4).next = some 2 ∧ ((answering.die 0).resp.get {} 4).waiting.get [] 2 = (10755 :: [7]) :: []
      ∧ (10755 - 10000) / 5 ≠ 0 * 150 + 4 ∧ gatewayAt 0 (0, 0) = some 4 ∧ answering.board.causeway.get false 4 = true
      ∧ answering.armed.get [] 0 = [] := by decide +kernel
theorem witness_ArbitersServeTheirClasses_way :
    wayOn answering 0 0 4 ∧ wayOn (busyDie {} {}) 0 14 4 := by
  refine ⟨fun _ cw h => ?_, fun _ cw h => ?_⟩
  · have : cw = 4 := by simpa [gatewayAt, causewayOf] using h.symm
    subst this; decide
  · exact absurd h (by simp [gatewayAt])

/-- With that causeway down, where DRAM of die 0 and its controller's registers are seen from mainland. -/
theorem witness_CausewaysAndScrub_way :
    ¬ wayOn ({ answering with board := { answering.board with causeway := [] } } : State) 0 0 4 := fun h => by
  have := h rfl 4 (by decide)
  revert this; decide
theorem witness_CausewaysAndScrub_access :
    after (exec (.causewayDown 4) board4) (fun t => (t.region (1 * 128) == .dram 0) && (crossings 4 0).contains 4
      && t.uncached 576 0x3FF0_0000_0000 && (crossings (corePlace 0).die (t.region 0x3FF0_0000_0000).home.die).contains 4
      && decide ((corePlace 0).die = 0)) = true := by decide +kernel

/-- The controllers of dies 0 and 1 and the service core run. -/
def controlled : State :=
  { board4 with cores := [(0, { run := .running }), (592, { run := .running }), (593, { run := .running }), (596, { run := .running })] }
theorem witness_CausewaysAndScrub_controllers :
    (∀ e ∈ causewayEnds 0, controlled.ctlLive e.1 = true ∧ (controlled.core (ctlKey e.1)).busy .m = false
      ∧ (controlled.core (ctlKey e.1)).mchk = []) ∧ controlled.board.causeway.get false 0 = true := by decide +kernel
/-- A parity error that is armed is stored with the next register write and not by a command that writes none (R414). -/
def armed109 : State := { plain with armed := [(0, [{ num := 0x109, loc := 0, kind := 1 }])] }
theorem test_parity_stored :
    after (exec (.addi c0 1 0 5) armed109) (fun t => (t.core 0).parity && (t.core 0).rx 1 == 5 && t.armed == []) = true
      ∧ after (exec (.addi c0 0 0 5) armed109) (fun t => !(t.core 0).parity && t.armed == armed109.armed) = true
      ∧ after (exec (.addi c0 1 0 5) (one fun x => { x with parity := true })) (fun t => (t.core 0).run == .halted 0x12) = true := by
  decide +kernel
/-- A frame that is damaged again is asked for again; one further on than the last dropped is not (R311). -/
theorem test_nak_anew :
    let s : State := { plain with ports := [(0, { state := 3, nakSent := true, rxDrop := 2 })] }
    ((s.dropAndNak 0 none).port 0).nakDue = true ∧ ((s.dropAndNak 0 (some 2)).port 0).nakDue = true
      ∧ ((s.dropAndNak 0 (some 3)).port 0).nakDue = false := by decide +kernel
theorem witness_CausewaysAndScrub :
    board4.board.causeway.get false 0 = true ∧ board4.board.causeway.get false 7 = false ∧ (board4.die 0).up = true
      ∧ (768 * 2 ^ 30 / 128 - 1) * 128 < (board4.die 0).capacity ∧ board4.dram.ecc.get 0 0 = 0
      ∧ ({ board4 with dram := { ecc := [(0, 1)] } } : State).dram.ecc.get 0 (0 * dieWindow / 128 + 0) = 1
      ∧ ({ board4 with dram := { ecc := [(0, 2)] } } : State).dram.ecc.get 0 (0 * dieWindow / 128 + 0) = 2 := by decide +kernel

/-! ### Packets -/

/-- A packet with parameters, from the NORMAL ring. -/
def pkt (opc : Nat) (ps : List W64) : Packet :=
  { opc := opc, seq := 1, len := ps.length, target := 0xF0, flags := 0, params := ps, ring := 1, slot := 0 }
/-- Unit u runs a packet. -/
def runs (u opc : Nat) (ps : List W64) (s : State) : State := { s with punits := [(u, { ready := true, current := some (pkt opc ps) })] }
/-- A unit has parked a packet on its NORMAL ring. -/
def parked (u opc : Nat) (ps : List W64) (ready : Bool) (s : State) : State :=
  let x : Parked := { pkt := pkt opc ps, ready := ready, status := 0, results := [], mask := 1 }
  { s with punits := [(u, { ready := true, rings := [(1, { present := true, parked := some x })] })] }
def up (s : State) (u opc : Nat) (ps : List W64) : Bool :=
  let t := runs u opc ps s
  t.unitUp u && !(t.punit u).replyFull && (t.punit u).current == some (pkt opc ps)

/-- A PING of die 0's unit in the first slot of its URGENT ring at 0x10000; its CRC is CRC-32C of the packet. -/
def ping0 : List Byte :=
  let hd := leBytes 2 1 ++ leBytes 2 5 ++ leBytes 2 0 ++ leBytes 2 0xF0 ++ leBytes 2 0 ++ leBytes 6 0
  hd ++ leBytes 4 (crc32c (hd ++ List.replicate 16 0)) ++ List.replicate 12 0
def fetching (bs : List Byte) : State :=
  { board4 with
    punits := [(0, { ready := true, rings := [(0, { present := true, base := 0x10000, log2 := 4, tail := 1 })], replyPresent := true,
                     replyBase := 0x20000, replyLog2 := 4 })],
    dram := { bytes := writeBytes [] 0x10000 bs } }
theorem witness_PacketsStartAndReply :
    let s := fetching ping0
    let q := s.punit 0
    let bs := readBytes s.dram.bytes (slotAddr (q.ring 0)) 256
    s.unitUp 0 = true ∧ q.ready = true ∧ q.current = none ∧ q.dirPending = none ∧ q.replyFull = false ∧ q.waits 0 = true
      ∧ (∀ r < 3, q.limit r ≠ 0 → q.arb.age.get 0 r < q.limit r)
      ∧ (∀ l < 2, s.lineReachable (unitPlace 0) (slotAddr (q.ring 0) / 128 + l) = true ∧ s.dram.ecc.get 0 (slotAddr (q.ring 0) / 128 + l) = 0)
      ∧ (packetOf bs 0 0).2 = true ∧ s.checkPacket 0 bs (packetOf bs 0 0).1 true = 0
      ∧ up board4 0 0x01 [] = true ∧ up board4 4 0x90 [] = true ∧ q.limit 0 ≠ 0
      ∧ ((runs 0 0x01 [] board4).punit 0).ready = true ∧ ((runs 0 0x01 [] board4).punit 0).dirPending = none := by decide +kernel
/-- The same with a target of another unit: status 3 (R370). -/
theorem witness_PacketsStartAndReply_refused :
    let hd : List Byte := leBytes 2 1 ++ leBytes 2 5 ++ leBytes 2 0 ++ leBytes 2 0xF1 ++ leBytes 2 0 ++ leBytes 6 0
    let bs := (hd ++ leBytes 4 (crc32c (hd ++ List.replicate 16 0)) ++ List.replicate 236 0)
    (packetOf bs 0 0).2 = true ∧ (fetching bs).checkPacket 0 bs (packetOf bs 0 0).1 true = 3 := by decide +kernel
/-- One packet for each check of R370, the first that fails; PING with any atoll but 0xF, INJECT in SEALED, FW_STAGE of two words. -/
theorem witness_PacketsStartAndReply_checks :
    let st := fun (p : Packet) (ok : Bool) => board4.checkPacket (p.target % 16) [] p ok
    st { pkt 0x01 [] with len := 29 } true = 2 ∧ st (pkt 0x01 []) false = 1 ∧ st { pkt 0x01 [] with target := 0x70 } true = 3
      ∧ st { pkt 0x20 [] with target := 0x80, ring := 2 } true = 3 ∧ st (pkt 0x02 []) true = 4
      ∧ st { pkt 0x60 [] with target := 0xF0, ring := 2 } true = 0x30 ∧ st (pkt 0x10 [0]) true = 2
      ∧ st { pkt 0x01 [] with flags := 2 } true = 5 ∧ st (pkt 0x01 (List.replicate 28 0)) true = 0 := by decide +kernel
theorem test_ping :
    after (exec (.ping 0) (runs 0 0x01 [0x77] board4)) (fun t => (t.punit 0).current.isNone && (t.punit 0).replyNext == 1) = true := by
  decide +kernel

/-- Die 0 with a task image loaded. -/
def loaded (d : Die → Die) : State :=
  { board4 with dies := [(0, d { die0 with image := some [0, 0x2000, 0, 0, 0, 0x9000, 0x100, 0], taskState := 1 }), (1, die0), (2, die0)] }
def boundaryOk (p : Packet) (d : Die) : Bool :=
  (List.range 8).all fun a => !(p.w 0).testBit a || (!d.isOffline a && (!d.running.testBit a || d.drained.testBit a))
theorem witness_TaskPackets :
    up board4 0 0x10 [0x1000, 64] = true ∧ board4.inUsable 0x1000 64 = true ∧ 0x1000 / dieWindow = 0
      ∧ (∀ a < 8, (board4.die 0).running.testBit a = false) ∧ ¬ (64 ≤ (pkt 0x10 [0x1000, 63]).w 1)
      ∧ (((loaded fun d => { d with running := 1 }).die 0).running.testBit 0 = true
          ∧ ((loaded fun d => { d with running := 1 }).die 0).drained.testBit 0 = false)
      ∧ up (loaded id) 0 0x11 [0xFF, 7] = true ∧ (board4.die 0).image = none ∧ boundaryOk (pkt 0x11 [0xFF, 7]) ((loaded id).die 0) = true
      ∧ up (loaded id) 0 0x12 [1] = true ∧ ((loaded id).die 0).isOffline 0 = false ∧ up (loaded id) 0 0x13 [] = true
      ∧ up (loaded id) 0 0x13 [1] = true ∧ (pkt 0x13 []).len = 0 ∧ (pkt 0x13 [1]).len ≠ 0
      ∧ ((parked 0 0x12 [1] false (loaded fun d => { d with drained := 1 })).unitUp 0 = true)
      ∧ (∀ a < 8, Nat.testBit 1 a = true → ((loaded fun d => { d with drained := 1 }).die 0).drained.testBit a = true) := by
  decide +kernel
/-- START_TASK gives core 0 its entry, argument and logical number. -/
theorem test_startTask :
    after (exec (.startTask 0) (runs 0 0x11 [1, 7] (loaded id))) (fun t => (t.core 3).run == .running && (t.core 3).pc == 0x2000
      && (t.core 3).rx 2 == 0x9300 && (t.core 3).rx 10 == 7 && (t.core 3).rx 11 == 3) = true := by decide +kernel

def offPkt (at_ : Nat) (opc : Nat) (ps : List W64) : Packet := { pkt opc ps with target := at_ * 16 }
theorem witness_AtollPackets :
    up board4 0 0x20 [1] = true ∧ (board4.atoll 0).powered = true ∧ (offPkt 0 0x20 [1]).atoll = 0 ∧ (pkt 0x20 [1]).w 0 = 1
      ∧ board4.debugHaltedAt 0 0 = false
      ∧ ({ board4 with cores := [(0, { dbgHalted := true })] } : State).debugHaltedAt 0 0 = true
      ∧ up board4 0 0x21 [] = true ∧ up board4 0 0x22 [0] = true ∧ (board4.die 0).isOffline 0 = false
      ∧ ((loaded fun d => { d with offline := 1 }).die 0).isOffline 0 = true ∧ (board4.die 0).logicalAt 8 = none
      ∧ (board4.atoll 8).powered = false ∧ ((loaded fun d => { d with offline := 1, atollMap := [(0, 8)] }).die 0).position 0 = 8
      ∧ ((loaded fun d => { d with p1en := 1 }).die 0).up = true
      ∧ ((loaded fun d => { d with p1en := 1 }).die 0).logicalAt 0 = some 0
      ∧ ({ (loaded fun d => { d with p1en := 1 }) with cores := (List.range 16).map fun k => (k, { run := .halted 1 }) } : State).atollIdle 0 0 = true
      ∧ 15 ∈ coresAt 0 0 ∧ ({ board4 with cores := [(15, { notices := [0x100] })] } : State).intWakes 15 = false
      ∧ ({ board4 with cores := [(15, { level := .u, notices := [0x100] })] } : State).intWakes 15 = true
      ∧ (∀ k ∈ coresAt 0 0, board4.intWakes k = false) ∧ board4.board.failsNext.get false (12 * 0 + 0) = false
      ∧ board4.board.flash.fails = false := by decide +kernel
/-- A fault of atoll 7's supply waits while its domain is off; boot flash fails. -/
def failing : State := { board4 with board := { board4.board with failsNext := [(7, true), (59, true)], flash := { fails := true } } }
theorem witness_AtollPackets_failing :
    failing.board.failsNext.get false (12 * 0 + (failing.die 0).position 7) = true ∧ (offPkt 7 0x21 []).atoll = 7
      ∧ failing.board.flash.fails = true ∧ up failing 0 0x21 [] = true := by decide +kernel

/-- A record with no neighbours that makes its board the top of a shard-mode tree, one segment, head die 0 (R318). -/
def top : List W64 := [0x200000000, 0x0000FFFF0000FFFF, 0x0000FFFF0000FFFF, 0, 0x10000, 1, 5]
/-- All four dies hold it. -/
def treed (g : Nat → Engine → Engine) (st : Nat) : State :=
  { board4 with
    dies := (List.range 4).map fun d => (d, { die0 with eng := g d { cfg := top, state := st, step := 5 } }),
    board := { board4.board with causeway := (List.range 8).map fun c => (c, true) } }
def keep (_ : Nat) (e : Engine) : Engine := e
/-- ABORT of a die whose engine accumulates, with a frame held on its port 1 and one queued. -/
theorem test_abort_engine :
    let s := { treed (fun _ e => { e with pseg := 3, relay := [0x10002] }) 2 with ports := [(1, { state := 3, rx := [frame0], qTree := [frame0] })] }
    let s := { s with punits := [(0, { ready := true, current := some (pkt 0x13 []) })] }
    after (exec (.abort 0) s) (fun t => (t.eng 0).state == 0 && (t.eng 0).relay == [] && (t.eng 0).pseg == 0 && (t.port 1).rx == []
      && (t.port 1).qTree == [] && (t.port 1).state == 3 && (t.port 1).freedHdr == 1 && (t.eng 1).state == 2) = true := by decide +kernel
/-- A legal SNAP_CONFIG record: HALF 8, INTERVAL 16. -/
def snapRec : List W64 := [0x800000000000010, 0, 0, 0, 0, 0, 0, 0]
theorem witness_EnginePackets :
    up board4 0 0x40 top = true ∧ treeMalformed (pkt 0x40 top).params = false ∧ treeMalformed [0x300000000] = true
      ∧ (board4.eng 0).state = 0 ∧ (treeRec top).mode = 2 ∧ board4.snap.status ≠ 1 ∧ board4.snap.lastSec = 0xFFFFFFFF
      ∧ (∃ j < 4, j ≠ 0 ∧ (board4.eng j).state = 0)
      ∧ ((treed keep 2).eng 0).state = 2 ∧ up (treed keep 2) 0 0x40 top = true
      ∧ (treeRec (pkt 0x40 [0, 0x0000FFFF0000FFFF, 0x0000FFFF0000FFFF, 0, 0, 0, 0]).params).mode = 0
      ∧ treeMalformed [0, 0x0000FFFF0000FFFF, 0x0000FFFF0000FFFF, 0, 0, 0, 0] = false
      ∧ up board4 0 0x42 (List.replicate 16 1) = true ∧ (pkt 0x42 (List.replicate 16 1)).params.length = 16
      ∧ up board4 0 0x41 [1] = true ∧ (pkt 0x41 [1]).w 0 % 8 / 2 = 0 ∧ (pkt 0x41 [2]).w 0 % 8 / 2 ≠ 0
      ∧ up board4 0 0x50 snapRec = true ∧ snapMalformed (pkt 0x50 snapRec).params = false ∧ snapMalformed [0] = true
      ∧ board4.snap.receiving = false ∧ (board4.port 1).state = 0
      ∧ up (treed keep 1) 0 0x51 [] = true ∧ ((treed keep 1).eng 0).cfg ≠ [] ∧ (treeRec ((treed keep 1).eng 0).cfg).head % 4 = 0
      ∧ (treeRec ((treed keep 1).eng 0).cfg).leads = true ∧ (treeRec ((treed fun _ e => { e with cfg := [0] }) 1 |>.eng 0).cfg).leads = false
      ∧ up (treed keep 1) 1 0x51 [] = true ∧ (board4.eng 0).cfg = []
      ∧ up (treed keep 1) 0 0x52 [0, 0, 0, 0] = true ∧ restoreMalformed (pkt 0x52 [0, 0, 0, 0]).params = false
      ∧ restoreMalformed [0, 0, 0, 1] = true ∧ ((treed keep 1).eng 0).state = 1 := by decide +kernel

def ringOf (r : Recorder) : State := { board4 with recs := [(0, r), (4, { copying := true })] }
theorem witness_RecorderAndInjection :
    up board4 0 0x60 [0x301, 0x1000] = true ∧ board4.injectMalformed 0 0x301 0x1000 = false ∧ board4.injectMalformed 0 0x301 0x1001 = true
      ∧ board4.injectMalformed 0 0x101 127 = false ∧ board4.injectMalformed 0 0x101 128 = true
      ∧ ({ board4 with atolls := [(7, { powered := true })], board := { board4.board with security := 1 } } : State).injectColumn 0 0x101 127 ≤ 1
      ∧ 1 < ({ board4 with board := { board4.board with security := 1 } } : State).injectColumn 0 0x101 127
      ∧ board4.injectMalformed 4 0x602 55 = true ∧ board4.injectMalformed 4 0x602 (55 + 2 * 2 ^ 16) = false
      ∧ 1 < board4.injectColumn 4 0x602 55
      ∧ up board4 0 0x61 [0, 0x1000] = true ∧ 0x1000 % 64 = 0 ∧ board4.inUsable 0x1000 (64 * ((board4.recorder 0).readFrom 0).1.length) = true
      ∧ (0x1001 : Nat) % 64 ≠ 0 ∧ up board4 0 0x62 [1] = true ∧ Nat.testBit 1 0 = true
      ∧ ((ringOf { copying := true }).recorder 0).copying = true ∧ ((ringOf {}).recorder 0).copying = false
      ∧ ({ board4 with board := { freezeTimer := true } } : State).board.freezeTimer = true ∧ board4.board.freezeTimer = false
      ∧ ((ringOf {}).recorder 4).copying = true ∧ (ringOf {}).board.flash.fails = false := by decide +kernel

def secure (b : Board → Board) : State := { board4 with board := b board4.board }
theorem witness_SecurityPackets :
    up board4 0 0x30 [0, 0, 3] = true ∧ (pkt 0x30 [0, 0, 3]).w 2 % 16 ≤ 3 ∧ 3 < (pkt 0x30 [0, 0, 4]).w 2 % 16
      ∧ up board4 4 0x31 [0x13] = true ∧ (pkt 0x31 [0x13]).w 0 % 16 ≤ 3 ∧ ((pkt 0x31 [0x13]).w 0).testBit 4 = true
      ∧ ((pkt 0x31 [3]).w 0).testBit 4 = false ∧ board4.board.staged.get 0 3 = 0 ∧ board4.activeBank 3 4 = 0
      ∧ (secure fun b => { b with staged := [(3, 2)] }).board.staged.get 0 3 = 1 - 0 + 1 ∧ 3 < (pkt 0x31 [4]).w 0 % 16
      ∧ up board4 4 0x70 [] = true ∧ board4.board.flash.leaf.get 0 board4.board.flash.seedIdx < 32767 ∧ board4.board.seedPresent = true
      ∧ board4.board.flash.fails = false ∧ served 0x70 4 2 (((pkt 0x70 []).params.headD 0).toNat % 16) = true
      ∧ (pkt 0x70 []).len ≤ 28 ∧ bitsOf (pkt 0x70 []).target 7 4 = 15 ∧ ({ pkt 0x70 [] with target := 0xF4 } : Packet).target % 16 = 4
      ∧ (secure fun b => { b with flash := { seedIdx := 1023, leaf := [(1023, 32767)] } }).board.flash.leaf.get 0 1023 = 32767
      ∧ (secure fun b => { b with flash := { fails := true } }).board.flash.fails = true
      ∧ up board4 4 0x71 [0, 0, 0] = true ∧ board4.board.security ≠ 2 ∧ board4.board.flash.unlock < 65536
      ∧ up (secure fun b => { b with security := 2 }) 4 0x71 [0, 0, 0] = true
      ∧ up board4 4 0x71 [1, 0x1000, 3684] = true ∧ board4.inUsable 0x1000 3684 = true ∧ board4.board.challenge = none
      ∧ (let s := secure fun b => { b with challenge := some [] }
         s.board.challenge = some [] ∧ ((s.updBoard fun b => { b with challenge := none }).unitRead 4 0x1000 3684).2.1 = .none
         ∧ ((s.updBoard fun b => { b with challenge := none }).unitRead 4 0x1000 3684).2.2.board.flash.vendorEntries < 4096)
      ∧ up board4 4 0x71 [1, 0x1000, 3683] = true ∧ (pkt 0x71 [1, 0x1000, 3683]).w 2 ≠ 3684
      ∧ (let s := { secure fun b => { b with challenge := some [] } with dram := { ecc := [(32, 0x0303)] } }
         ((s.updBoard fun b => { b with challenge := none }).unitRead 4 0x1000 3684).2.1 ≠ .none)
      ∧ board4.tokenCheck [] [] = 0x21 := by
  decide +kernel

/-- A task image of 64 bytes in die 0's memory at 0x1000: MAGIC and the CRC of no bytes. -/
def imaged : State := { board4 with dram := { bytes := writeBytes [] 0x1000 (leBytes 4 0x494B544D ++ leBytes 4 (crc32c [])) } }
theorem witness_PowerAndParkedPackets :
    up board4 0 0x80 [0xFF0001] = true ∧ bitsOf ((pkt 0x80 [0xFF0001]).w 0) 9 8 = 0 ∧ (pkt 0x80 [0xFF0001]).w 0 % 8 = 1
      ∧ up board4 0 0x80 [0x010000] = true ∧ (board4.atoll (0 * 9 + (board4.die 0).position 0)).powered = true
      ∧ up (loaded fun d => { d with offline := 1 }) 0 0x80 [0x010002] = true ∧ 2 < (pkt 0x80 [7]).w 0 % 8
      ∧ board4.debugHaltedAt 0 ((board4.die 0).position 0) = false
      ∧ up board4 0 0xA0 [1, 5, 4] = true ∧ board4.scrubBad 0 5 4 = true ∧ board4.scrubBad 0 5 5 = false
      ∧ (let s := parked 0 0x10 [0x1000, 64] false imaged
         s.unitUp 0 = true ∧ (s.punit 0).replyFull = false ∧ ((s.punit 0).ring 1).parked.isSome = true
         ∧ (s.unitRead 0 0x1000 64).2.1 = .none ∧ ofLe ((s.unitRead 0 0x1000 64).1.take 4) = 0x494B544D
         ∧ ofLe (((s.unitRead 0 0x1000 64).1.drop 4).take 4) = crc32c ((s.unitRead 0 0x1000 64).1.drop 64))
      ∧ (((parked 4 0x80 [4] false board4).punit 4).ring 1).parked.isSome = true ∧ (pkt 0x80 [4]).w 0 % 8 = 4
      ∧ (((parked 0 0x80 [0x010002] false board4).punit 0).ring 1).parked.isSome = true
      ∧ (parked 0 0x13 [] true board4).unitUp 0 = true := by decide +kernel
theorem witness_PowerAndParkedPackets_board :
    up board4 4 0x80 [0x303] = true ∧ (pkt 0x80 [0x303]).w 0 % 8 = 3 ∧ bitsOf ((pkt 0x80 [0x303]).w 0) 9 8 = 3
      ∧ (board4.die 3).taskState ≠ 2 ∧ (board4.die 3).eng.state ≤ 1 ∧ board4.debugHaltedDie 3 = false
      ∧ (board4.die 3).up = true ∧ ((treed keep 2).die 3).eng.state = 2 ∧ (board4.die 3).retain = false
      ∧ ((loaded id).die 0).taskState ≠ 0 ∧ (((parked 4 0x80 [0x303] false board4).punit 4).ring 1).parked.isSome = true := by decide +kernel
/-- The shipped image of the other bank of component 3, and one that FW_STAGE has written and that is not valid. -/
theorem witness_PowerAndParkedPackets_activate :
    let s := parked 4 0x31 [0x13] false board4
    (s.punit 4).replyFull = false ∧ s.activateBank 3 4 true = some 1 ∧ s.board.flash.fails = false ∧ s.board.flash.bankOk 3 1 = true
      ∧ ({ image := [(7, [1])] } : Flash).bankOk 3 1 = false := by
  refine ⟨by decide, by decide, by decide, ?_, by decide +kernel⟩
  simp [Flash.bankOk, Flash.written, Flash.imageOf, SMap.get, parked, board4, plain, one]

/-- A segment of 32 elements in which every die takes part. -/
def seg0 : List W64 := [0x0F000020, 0x1000, 0x2000, 0x3000, 0x4000, 0, 0, 0]
def staged (v : GroupVal) : State :=
  treed (fun d e => { e with tab := [(0, seg0)], stage := if d = 1 ∨ d = 3 then [(stageKey 0 0, some v)] else [] }) 2
def unstaged : State := treed (fun _ e => { e with tab := [(0, seg0)] }) 2
theorem witness_ReductionStages :
    (match unstaged.inForce with
      | some r =>
        (unstaged.eng 3).state == 2 && !r.update && decide (0 < r.nseg) && (unstaged.eng 3).tab.get [] 0 != []
          && decide (0 < Seg.groups ((unstaged.eng 3).tab.get [] 0)) && ((unstaged.eng 3).stage.get none (stageKey 0 0)).isNone
          && (match unstaged.partial_ r 3 2 seg0 0 with
            | (some _, v) => (v.partial_ r 3 3 seg0 0).1.isSome
            | _ => false)
      | none => false) = true
      ∧ (match (staged (some (List.replicate 32 0x3F800000))).inForce with
        | some r =>
          let s := staged (some (List.replicate 32 0x3F800000))
          (s.eng (r.head % 4)).state == 2 && decide (0 < r.nseg) && (s.eng (r.head % 4)).ndone.get 0 0 == 0
            && (match s.segTable r with
              | (some l, u) => (l.find? fun x => x.1 == 0) == some (0, seg0) && !u.noticesFull 0
                  && (match u.operands r 0 0 with | some o => (nodeSum o).1.isSome | none => false)
              | _ => false)
        | none => false) = true
      ∧ (let s := treed (fun _ e => { e with tab := [(0, seg0)], rseg := 1, pseg := 1 }) 3
         match s.inForce with
          | some r => (match s.segTable r with
            | (some l, u) => (s.eng (r.head % 4)).rseg == (activeOf l).length && (s.eng (r.head % 4)).pseg == (activeOf l).length
                && (List.range 8).all fun p => (u.port p).qTree.isEmpty && (u.port p).rx.isEmpty
            | _ => false)
          | none => false) = true := by decide +kernel

def ported (p : Port) : State := { board4 with ports := [(7, p)] }
/-- A NOTICE frame. -/
def noteF : Frame := { frame0 with type := 0x06, fmt := 0, len := 16, payload := List.replicate 16 0 }
theorem witness_StraitPorts :
    let s := ported { state := 3, pcred := 256, hcred := 1, qNotice := [noteF] }
    (s.port 7).state = 3 ∧ (s.port 7).resendQ = [] ∧ (s.port 7).qNotice = noteF :: [] ∧ payCost noteF ≤ (s.port 7).pcred
      ∧ 1 ≤ (s.port 7).hcred ∧ (s.port 7).replay.length < 128
      ∧ ((ported { state := 3, resendQ := [noteF] }).port 7).resendQ = noteF :: []
      ∧ s.armed.get [] (7 / 2) = [] ∧ s.inForce = none ∧ noteF.lseq.toNat = (s.port 7).rxSeq
      ∧ frameFits noteF = true
      ∧ frameFits { frame0 with type := 0xFF } = false
      ∧ cellKind (cellHeader 1 1023 255) = 1 ∧ cellKind (cellHeader 0 0 5) ≠ 1 ∧ cellSeq (cellHeader 0 0 255) ≠ (s.port 7).rxCseq
      ∧ (0xFF#8).toNat ≠ (s.port 7).rxCseq ∧ (0#8).toNat = (s.port 7).rxCseq ∧ (s.port 7).qSnap = []
      ∧ noteF.lseq.toNat ≠ ((ported { state := 3, rxSeq := 65535 }).port 7).rxSeq ∧ s.silenced 7 = false ∧ frameCrc noteF ≠ 0
      ∧ ((ported { state := 3, ackDue := true }).port 7).ackDue = true
      ∧ ((ported { state := 3, resends := 8 }).port 7).resends = 8 ∧ ((ported { state := 4 }).port 7).state ≠ 3 := by decide +kernel

/-! ### The board -/

def dark0 (g : Board → Board) : State := { board := g {} }
theorem witness_PowerOnBootAndReset :
    (dark0 fun b => { b with inputOn := false }).board.inputOn = false ∧ State.reset.board.inputOn = true
      ∧ State.reset.board.servicePowered = true ∧ State.reset.board.serviceGood = false
      ∧ State.reset.board.flash.crashValid = false
      ∧ (board4.unitUp 4 = true ∧ (secure fun b => { b with standby := true }).unitUp 4 = true)
      ∧ (secure fun b => { b with standby := true }).board.standby = true ∧ board4.board.hot = [] ∧ board4.board.leak = []
      ∧ (board4.die 3).up = true ∧ (board4.die 3).ctlRunning = true := by decide +kernel
/-- IBUS of a board in standby is to fail as a wake enables it. -/
theorem witness_PowerOnBootAndReset_supply :
    let s := secure fun b => { b with standby := true, failsNext := [(59, true)] }
    59 ∈ sequence ∧ s.board.failsNext.get false 59 = true ∧ s.unitUp 4 = true ∧ s.board.standby = true ∧ s.board.hot = [] ∧ s.board.leak = []
      ∧ (∀ n ∈ sequence, board4.board.failsNext.get false n = false)
      ∧ ∀ n ∈ sequence, State.reset.board.failsNext.get false n = false := by decide +kernel
theorem witness_PowerOnBootAndReset_bank : State.reset.bootBank 1 0 = some 0 := by
  simp [State.bootBank, Flash.bankOk, Flash.written, Flash.imageOf, State.reset, SMap.get, State.activeBank]
theorem witness_PowerOnBootAndReset_watchdog :
    controlled.ctlLive 4 = true ∧ (controlled.core (ctlKey 4)).busy .m = false ∧ (controlled.core (ctlKey 4)).mchk = [] := by decide +kernel
theorem witness_EmergencyOff :
    board4.board.servicePowered = true ∧ 45999 < 46000 ∧ 62000 < 62001 ∧ board4.armed.get [] 4 = []
      ∧ (∃ a ∈ ({ board4 with armed := [(4, [{ num := 0x601, loc := 0, kind := 2 }])] } : State).armed.get [] 4, a.num = 0x601 ∧ a.loc = 0)
      ∧ (tempLimits 51 0 0).2 < 50001 ∧ (60000 : Int) ≤ (tempLimits 40 60000 70000).1
      ∧ (60000 : Int) ≤ (tempLimits 40 60000 70000).2
      ∧ board4.domainOn 0 = true ∧ (secure fun b => { b with nvmeOn := [(3, true)] }).domainOn 58 = true ∧ board4.domainOn 9 = true := by
  decide +kernel
theorem witness_EmergencyOff_supply :
    board4.unitUp 4 = true ∧ board4.board.standby = false
      ∧ board4.board.emergencyOff = false ∧ board4.board.osfpFailed.get false 7 = false ∧ board4.domainOn 44 = false
      ∧ board4.board.servicePowered = true := by decide +kernel
/-- The fraction of a millijoule is carried: two samples of 1.5 mJ are 3 mJ (R423). -/
theorem test_energy : ((({} : Meters).sampled 1500 1000).sampled 1500 1000).energy = 3 := by decide
theorem witness_DebugRequests :
    (0#16).getLsbD 15 = false ∧ board4.board.security = 0 ∧ (secure fun b => { b with security := 1 }).unitUp 4 = true
      ∧ (secure fun b => { b with security := 2 }).column 0 ≤ 1 ∧ (board4.core 0).dbgHalted = false
      ∧ (({ board4 with cores := [(0, { dbgHalted := true })] } : State).core 0).dbgHalted = true ∧ board4.keyOfLcore 0 = 0
      ∧ sysPresent 0 0x040 = true ∧ sysReadLevel 0x040 ≤ 0 ∧ board4.inUsable 0x1000 64 = true
      ∧ 1 < (secure fun b => { b with security := 1 }).column (board4.keyOfLcore 511) ∧ (0x8000#16).getLsbD 15 = true
      ∧ board4.debugTarget 0 = 0 ∧ (0#32) ≠ (headFor 1 0 []).crc ∧ (0#32) ≠ (headFor 4 0 (readWords 0 [0x40])).crc ∧ (0#32) ≠ (headFor 5 0 [word_ 0x1000, word_ 64]).crc
      ∧ (0x7FFF#16).getLsbD 15 = false
      ∧ ¬ ((secure fun b => { b with security := 1 }).board.security = 1 ∧ (board4.core 577).level = .u)
      ∧ 3 ≤ (dark0 fun b => { b with security := 2, serviceFwOk := true }).scanColumn 4
      ∧ (dark0 fun b => { b with security := 2, serviceFwOk := true }).unitUp 4 = true := by decide +kernel
/-- A refused request's reply: SYNC, STATUS 0x0030 and LEN 0 (R441). -/
theorem test_debugReply : (debugReplyBytes (0x30, [])).take 5 = [0x5A, 0x30, 0, 0, 0] ∧ (debugReplyBytes (0x30, [])).length = 9 := by
  decide +kernel
theorem witness_OutsidePorts :
    mio.board.servicePowered = true ∧ mio.board.security = 0 ∧ (secure fun b => { b with security := 1 }).board.security ≠ 0
      ∧ mio.board.mioOn = true ∧ mio.board.pcieD3 = false
      ∧ (2 * 2 ^ 20 - 1) % (2 * 2 ^ 20) + [(7 : Byte)].length ≤ 2 * 2 ^ 20
      ∧ mio.board.pcieTable.get 0 (4194303 / (2 * 2 ^ 20)) = 0x1FFFFFF + 1 ∧ 0x1FFFFFF * (2 * 2 ^ 20) + 4194303 % (2 * 2 ^ 20) + 1 = 2 ^ 46
      ∧ mio.board.pcieTable.get 0 (0 / (2 * 2 ^ 20)) = 2 ^ 25 + 1 ∧ 2 ^ 46 < 2 ^ 25 * (2 * 2 ^ 20) + 0 % (2 * 2 ^ 20) + 1
      ∧ mio.board.nvmeOn.get false 0 = true ∧ (2 ^ 46 - 1) + [(7 : Byte)].length ≤ 2 ^ 46 ∧ 2 ^ 46 < 2 ^ 46 + 1 := by decide +kernel

/-- A BAR keeps its writable bits, and PERST# clears it; D3hot shows in its word, which has No_Soft_Reset set (R432, R435). -/
theorem test_pcieConfig :
    (mio.board.pcieConfigWrite 0x18 0xFFFFFFFF).pcieConfigWord 0x18 = 0xFFF00004
      ∧ (mio.board.pcieConfigWrite 0x1C 7).pcieConfigWord 0x1C = 7 ∧ mio.board.pcieConfigWord 0x10 = 0xC
      ∧ after (execPcieReset (mio.updBoard fun b => b.pcieConfigWrite 0x1C 7)) (fun t => t.board.pcieBars.isEmpty) = true := by
  decide +kernel

/-! ### Number formats and the manual's worked examples -/

/-- FP32 of 3; negative zero keeps its sign; element widths (R193, R194). -/
theorem test_formats :
    (fmtFp32.encode 0 (.ofInt 3)).1 = 0x40400000 ∧ (fpEnc 0 (fpDec 0x80000000, 0)).1 = 0x80000000
      ∧ elemBits 12 = 4 ∧ elemBits 7 = 16 := by decide +kernel
/-- Chapter 07's worked example: one group in G16 and in MXFP8 E4M3 (R199, R213). -/
def example7 : List FV := ([0x3D19999A, 0xBA9D4952, 0x314E288F, 0x29E12E13, 0x80000000] ++ List.replicate 27 0).map fpDec
theorem test_group_g16 :
    (encodeGroup 7 0 example7).1 = 0x6B ∧ (encodeGroup 7 0 example7).2.1.take 6 = [0x78CD, 0xE4EA, 0x1A71, 0x0002, 0x8000, 0]
      ∧ (encodeGroup 7 0 example7).2.2 = 0x18 := by decide +kernel
theorem test_group_e4m3 :
    (encodeGroup 8 0 example7).1 = 0x72 ∧ (encodeGroup 8 0 example7).2.1.take 6 = [0x7A, 0xD2, 0, 0, 0x80, 0]
      ∧ (encodeGroup 8 0 example7).2.2 = 0x18 := by decide +kernel
/-- Chapter 10's worked example: channel 7, rank 0. -/
theorem test_channel : ddrChannel 0xD234834560 = 7 ∧ ddrRank 0xD234834560 = 0 := by decide +kernel
/-- Chapter 12's worked example: (left + right) + own in that order, then G16 (R322, R323). -/
def ex (w : W32) : GroupVal := some (w :: List.replicate 31 0)
def exSum : GroupVal × Flags := nodeSum ((ex 0x3F800000, 0), (ex 0x33800000, 0), ex 0x3A000000, ex 0x33800000)
theorem test_nodeSum :
    exSum.1 = ex 0x3F801000 ∧ exSum.2 = flNX
      ∧ (encodeGroup 7 0 ((exSum.1.getD []).map fun w => fpDec w.toNat)).1 = 0x70
      ∧ (encodeGroup 7 0 ((exSum.1.getD []).map fun w => fpDec w.toNat)).2.1.take 2 = [0x7800, 0] := by decide +kernel
/-- Chapter 11's worked example: 12 hops within dies, and an output to the causeway or the unit at the end of each of three legs. -/
theorem test_route : (routeTo (corePlace (coreKey (.compute 0 1 3))) 2 ⟨3, atollStop 6⟩).length = 12 + 3 := by decide +kernel
/-- Chapter 10's worked example: the walk of core (1, 2, 4). -/
def walker : State :=
  let s : State := { board4 with cores := [(180, { run := .running, level := .u, sys := [(0x540, 0x800000000005FD00)] })] }
  { s with dram := { bytes := writeBytes (writeBytes (writeBytes [] 0xBFA00006A0 (leBytes 8 0xBFA0200001)) 0xBFA0200008
      (leBytes 8 0xBFA0201001)) 0xBFA0201048 (leBytes 8 0xD23480002F) } }
theorem test_walk :
    isOk ((translate 180 .u .d .load false true 0x6A0041234560).run walker) (fun pa _ => pa == 0xD234834560) = true := by decide +kernel
/-- A core in the boot state runs nothing: an instruction command leaves the state as it is. -/
theorem test_reset_runs_nothing : exec (.add c0 1 1 1) State.reset = .next State.reset := by rfl

end Sys2Proof.Tests
end

section
/-! SUPPORT. What one cycle of ACLK counts and leaves alone, and where TIMER_EXPIRY moves a core's counter (R8, R51 to R53). -/

namespace Sys2Proof.Machine
open Sys2Proof

@[simp] theorem Die.tick_ctr (d : Die) (n m : Nat) : (d.tick n m).ctr = nextCount d.ctr := rfl
@[simp] theorem Die.tick_powered (d : Die) (n m : Nat) : (d.tick n m).powered = d.powered := rfl
@[simp] theorem Die.tickArbiters_ctr (d : Die) : d.tickArbiters.ctr = d.ctr := rfl
@[simp] theorem Die.tickArbiters_powered (d : Die) : d.tickArbiters.powered = d.powered := rfl

@[simp] theorem State.tickDie_cores (s : State) (d : Nat) : (s.tickDie d).cores = s.cores := by
  unfold State.tickDie; split <;> rfl
@[simp] theorem State.tickDie_atolls (s : State) (d : Nat) : (s.tickDie d).atolls = s.atolls := by
  unfold State.tickDie; split <;> rfl
@[simp] theorem State.tickDie_ports (s : State) (d : Nat) : (s.tickDie d).ports = s.ports := by
  unfold State.tickDie; split <;> rfl
@[simp] theorem State.tickDie_dram (s : State) (d : Nat) : (s.tickDie d).dram = s.dram := by
  unfold State.tickDie; split <;> rfl
@[simp] theorem State.tickDie_board (s : State) (d : Nat) : (s.tickDie d).board = s.board := by
  unfold State.tickDie; split <;> rfl
@[simp] theorem State.tickDie_pending (s : State) (d : Nat) : (s.tickDie d).pending = s.pending := by
  unfold State.tickDie; split <;> rfl

theorem State.die_tickDie_other (s : State) {d j : Nat} (h : j ≠ d) : (s.tickDie d).die j = s.die j := by
  unfold State.tickDie
  split
  · exact State.die_updDie_other s h _
  · rfl

/-- A powered die counts; the others, and a die without power, do not (R51, R52). -/
theorem State.ctr_tickDie (s : State) (d j : Nat) :
    ((s.tickDie d).die j).ctr = if j = d ∧ (s.die j).powered then nextCount (s.die j).ctr else (s.die j).ctr := by
  by_cases h : j = d
  · subst h
    by_cases hp : (s.die j).powered
    · by_cases hb : s.board.phase <;> simp [State.tickDie, hp, hb]
    · simp [State.tickDie, hp]
  · simp [State.die_tickDie_other s h, h]

@[simp] theorem State.powered_tickDie (s : State) (d j : Nat) : ((s.tickDie d).die j).powered = (s.die j).powered := by
  by_cases h : j = d
  · subst h
    unfold State.tickDie
    split
    · by_cases hb : s.board.phase <;> simp [hb]
    · rfl
  · rw [State.die_tickDie_other s h]

/-- A cycle moves clocks, ages and meters; cores, memory, atolls, ports and the queue stand. -/
theorem State.tick_frame (s : State) :
    s.tick.cores = s.cores ∧ s.tick.dram = s.dram ∧ s.tick.atolls = s.atolls ∧ s.tick.ports = s.ports
      ∧ s.tick.pending = s.pending := by
  unfold State.tick
  by_cases hb : s.board.phase <;> simp [hb]

/-- Each powered die's counter goes up by one in a cycle of ACLK (R51, R52). -/
theorem State.ctr_die_tick (s : State) {d : Nat} (hd : d < 4) :
    (s.tick.die d).ctr = if (s.die d).powered then nextCount (s.die d).ctr else (s.die d).ctr := by
  have hfold : (s.tick.die d).ctr = (([0, 1, 2, 3].foldl (fun s d => s.tickDie d) s).die d).ctr := by
    unfold State.tick
    by_cases hb : s.board.phase <;> simp [hb]
  rw [hfold]
  interval_cases d <;> simp [State.ctr_tickDie]

theorem State.mctr_tick (s : State) :
    s.tick.board.mctr = if s.board.mainlandOn then nextCount s.board.mctr else s.board.mctr := by
  unfold State.tick
  by_cases hb : s.board.phase <;> simp [hb]

/-- The service counter counts MCLK cycles, one for two of ACLK (R8, R51). -/
theorem State.svcCtr_tick (s : State) :
    s.tick.board.svcCtr
      = if s.board.servicePowered && s.board.phase then nextCount s.board.svcCtr else s.board.svcCtr := by
  unfold State.tick
  by_cases hb : s.board.phase <;> simp [hb]

@[simp] theorem State.setCtrOf_cores (s : State) (k v : Nat) : (s.setCtrOf k v).cores = s.cores := by
  unfold State.setCtrOf; split_ifs <;> rfl
@[simp] theorem State.setCtrOf_dram (s : State) (k v : Nat) : (s.setCtrOf k v).dram = s.dram := by
  unfold State.setCtrOf; split_ifs <;> rfl
@[simp] theorem State.core_setCtrOf (s : State) (k v j : Nat) : (s.setCtrOf k v).core j = s.core j := by
  simp [State.core]

/-- The counter of a core's own domain reads what it was moved to. -/
@[simp] theorem State.ctrOf_setCtrOf (s : State) (k v : Nat) : (s.setCtrOf k v).ctrOf k = v := by
  unfold State.setCtrOf State.ctrOf
  split_ifs <;> simp

theorem execTimerExpiry_next {s : State} {c : CoreId} (hp : s.corePowered (coreKey c) = true)
    (h0 : ((s.core (coreKey c)).sr cmpNo).toNat ≠ 0) (hlt : s.ctrOf (coreKey c) < ((s.core (coreKey c)).sr cmpNo).toNat) :
    execTimerExpiry c s = .next (s.setCtrOf (coreKey c) ((s.core (coreKey c)).sr cmpNo).toNat) := by
  simp only [execTimerExpiry, hp, bne_iff_ne.mpr h0, decide_eq_true hlt, Bool.and_self, if_true]

/-- TIMER is pending once CTR stands at a nonzero CTR.CMP (R53). -/
theorem timerPending_setCtrOf {s : State} {k : Nat} (h0 : ((s.core k).sr cmpNo).toNat ≠ 0) :
    (s.setCtrOf k ((s.core k).sr cmpNo).toNat).timerPending k = true := by
  simp only [State.timerPending, State.core_setCtrOf, State.ctrOf_setCtrOf, le_refl, decide_true, Bool.and_true]
  exact bne_iff_ne.mpr h0

end Sys2Proof.Machine

open Sys2Proof Sys2Proof.Machine

/-- Settles O2: the counters, by what one tick does to each clock domain; TIMER_EXPIRY, by what setCtrOf moves. -/
theorem countersCount : Obligations.CountersCount := by
  refine ⟨fun s hq => ⟨s.tick, by simp [step, hq], ?_⟩, fun s c hp h0 hlt => ?_⟩
  · obtain ⟨hcores, hdram, hatolls, hports, hpending⟩ := s.tick_frame
    exact ⟨fun d hd => s.ctr_die_tick hd, s.mctr_tick, s.svcCtr_tick, hcores, hdram, hatolls, hports, hpending.trans hq⟩
  · exact ⟨_, execTimerExpiry_next hp h0 hlt, s.ctrOf_setCtrOf .., timerPending_setCtrOf h0, s.setCtrOf_cores ..,
      s.setCtrOf_dram ..⟩
end

section
/-! SUPPORT. The system register instructions: the checks of R49, what each form leaves, and which command runs which form. -/

namespace Sys2Proof.Machine
open Sys2Proof Sys2Proof.Claims

/-- The state that a form leaves: 1 SRW, 2 SRSET, 3 SRCLR, else SRR (R49, R50). -/
def State.afterSys (s : State) (k sub : Nat) (d a : Reg) (n : Nat) : State :=
  let v := (s.core k).rx a
  let old := s.sysRead k n
  if sub = 0 then s.updCore k fun x => x.wx d old
  else if sub = 1 then s.sysWrite k n v
  else if sub = 2 then (s.sysModify k n fun o => o ||| v).updCore k fun x => x.wx d old
  else (s.sysModify k n fun o => o &&& ~~~v).updCore k fun x => x.wx d old

section
variable {s : State} {k w n : Nat} {rd wr : Bool}

theorem sysChecks_pass (hp : sysPresent k n = true) (h3 : sysReadLevel n ≠ 3)
    (hr : rd = true → sysReadLevel n ≤ (s.core k).level.code)
    (hw : wr = true → sysWriteLevel n = 3 ∨ sysWriteLevel n ≤ (s.core k).level.code) :
    sysChecks k w n rd wr s = .ok () s := by
  have hrd : (rd && decide ((s.core k).level.code < sysReadLevel n)) = false := by
    cases rd <;> simp_all
  have hwr : (wr && sysWriteLevel n != 3 && decide ((s.core k).level.code < sysWriteLevel n)) = false := by
    cases wr
    · rfl
    · rcases hw rfl with h | h <;> simp [h]
  simp [sysChecks, hp, h3, hrd, hwr, getC, bind, EStateM.bind, get, getThe, MonadStateOf.get, EStateM.get, pure, EStateM.pure]

/-- A number with no register raises ILLEGAL, whatever the level (R49). -/
theorem sysChecks_illegal (h : sysPresent k n = false ∨ sysReadLevel n = 3) :
    sysChecks k w n rd wr s = .error (.exc (ill w)) s := by
  have hi : (!sysPresent k n || sysReadLevel n == 3) = true := by simpa using h
  simp only [sysChecks, hi, getC, bind, EStateM.bind, get, getThe, MonadStateOf.get, EStateM.get, pure, EStateM.pure, if_true,
    illegal, trap, throw, throwThe, MonadExceptOf.throw, EStateM.throw, ill]

/-- A register that the level may not read, or not write, as the form asks, raises PRIVILEGE (R49). -/
theorem sysChecks_privilege (hp : sysPresent k n = true) (h3 : sysReadLevel n ≠ 3)
    (h : (rd = true ∧ (s.core k).level.code < sysReadLevel n)
      ∨ (wr = true ∧ sysWriteLevel n ≠ 3 ∧ (s.core k).level.code < sysWriteLevel n)) :
    sysChecks k w n rd wr s = .error (.exc (priv w)) s := by
  have hi : (!sysPresent k n || sysReadLevel n == 3) = false := by simp [hp, h3]
  by_cases hr : (rd && decide ((s.core k).level.code < sysReadLevel n)) = true
  · simp only [sysChecks, hi, hr, getC, bind, EStateM.bind, get, getThe, MonadStateOf.get, EStateM.get, pure, EStateM.pure,
      Bool.false_eq_true, if_false, if_true, privilege, trap, throw, throwThe, MonadExceptOf.throw, EStateM.throw, priv]
  · have hw : (wr && sysWriteLevel n != 3 && decide ((s.core k).level.code < sysWriteLevel n)) = true := by
      rcases h with ⟨hrd, hlt⟩ | ⟨hwr, hro, hlt⟩
      · exact absurd (by simp [hrd, hlt]) hr
      · simp [hwr, hro, hlt]
    simp only [sysChecks, hi, hr, hw, getC, bind, EStateM.bind, get, getThe, MonadStateOf.get, EStateM.get, pure, EStateM.pure,
      Bool.false_eq_true, if_false, if_true, privilege, trap, throw, throwThe, MonadExceptOf.throw, EStateM.throw, priv]

end

section
variable {s : State} {k w sub : Nat} {d a : Reg} {n : Nat}

/-- Past its checks, a form stores and reads as R49 and R50 say. -/
theorem sysBody_next (hsub : sub < 4) (hc : sysChecks k w n (sub != 1) (sub != 0) s = .ok () s) :
    (sysBody k w sub d a n).run s = .ok .next (s.afterSys k sub d a n) := by
  simp only [sysBody, EStateM.run, bind, EStateM.bind, hc]
  interval_cases sub <;> rfl

theorem sysBody_error {e : Err} (hc : sysChecks k w n (sub != 1) (sub != 0) s = .error e s) :
    (sysBody k w sub d a n).run s = .error e s := by
  simp only [sysBody, EStateM.run, bind, EStateM.bind, hc]

end

section
variable {s : State} {c : CoreId} {w sub : Nat} {d a : Reg} {n : Nat}

theorem sysInstr_next (hr : s.ready c = true) (hsub : sub < 4)
    (hc : sysChecks (coreKey c) w n (sub != 1) (sub != 0) s = .ok () s) :
    sysInstr c w sub d a n s = .next ((s.afterSys (coreKey c) sub d a n).retire (coreKey c) (pcOf s c)) :=
  runInstr_next hr rfl (sysBody_next hsub hc)

theorem sysInstr_takes {e : Event} (hr : s.ready c = true) (he : e.code ≠ 0x12)
    (hc : sysChecks (coreKey c) w n (sub != 1) (sub != 0) s = .error (.exc e) s) :
    sysInstr c w sub d a n s = s.takes (coreKey c) e (pcOf s c) :=
  runInstr_exc hr rfl (sysBody_error hc) he (calm_mchk (ready_calm hr))

end

@[simp] theorem SrOp.sub_lt (op : SrOp) : op.sub < 4 := by cases op <;> decide

/-- Every command that names a form and a number is the instruction of that form on that number. -/
theorem exec_of_sysForm {i : Instr} {c : CoreId} {sub : Nat} {d a : Reg} {n : Nat}
    (h : sysForm i = some (c, sub, d, a, n)) :
    sub < 4 ∧ ∀ s, exec i s = sysInstr c (wSys sub d a n) sub d a n s := by
  unfold sysForm at h
  split at h <;> cases h
  all_goals exact ⟨by simp, fun _ => rfl⟩

end Sys2Proof.Machine

open Sys2Proof Sys2Proof.Machine Sys2Proof.Claims

/-- Settles O16: the checks of R49 decide which of the three happens. -/
theorem systemRegisterInstructions : Obligations.SystemRegisterInstructions := by
  refine ⟨fun i s c sub d a n hi hr hp h3 hrd hwr => ?_, fun i s c sub d a n hi hr => ?_⟩
  · obtain ⟨hsub, hexec⟩ := exec_of_sysForm hi
    rw [hexec]
    exact sysInstr_next hr hsub (sysChecks_pass hp h3 (by simpa using hrd) (by simpa using hwr))
  · obtain ⟨-, hexec⟩ := exec_of_sysForm hi
    rw [hexec]
    exact ⟨fun h => sysInstr_takes hr (by simp [ill]) (sysChecks_illegal h),
      fun hp h3 h => sysInstr_takes hr (by simp [priv]) (sysChecks_privilege hp h3 (by simpa using h))⟩
end

section
/-! SUPPORT. What a write leaves in the registers that a core stores as they are: FFLAGS, the pointer registers and CTR.CMP
(R11, R50). -/

namespace Sys2Proof.Machine
open Sys2Proof

/-- FFLAGS and the pointer registers: numbers whose every write lands in the core's own stored word. -/
def IsFlagsOrPointer (n : Nat) : Prop := n = 0x040 ∨ (0x080 ≤ n ∧ n ≤ 0x097)

/-- The bits that a write of a number can change at all (R11). -/
def storedBits (n : Nat) : W64 := rwBits n ||| w1cBits n

section
variable {n : Nat} (hn : IsFlagsOrPointer n) (s : State) (k : Nat)
include hn

theorem isWO_flagsOrPointer : isWO n = false := by
  unfold IsFlagsOrPointer at hn
  simp only [isWO, Bool.or_eq_false_iff, beq_eq_false_iff_ne]
  omega

theorem sysRead_flagsOrPointer : s.sysRead k n = (s.core k).sr n := by
  have hwo := isWO_flagsOrPointer hn
  unfold IsFlagsOrPointer at hn
  unfold State.sysRead State.readU
  dsimp only
  rw [if_neg (ne_true_of_eq_false hwo), if_pos (by omega)]
  iterate 6 rw [if_neg (by omega)]

theorem sr_sysPut_flagsOrPointer (v : W64) :
    ((s.sysPut k n v).core k).sr n = ((s.core k).sr n &&& ~~~storedBits n) ||| (v &&& storedBits n) := by
  unfold IsFlagsOrPointer at hn
  unfold State.sysPut State.putLow
  dsimp only
  rw [if_pos (by omega)]
  iterate 9 rw [if_neg (by omega)]
  rw [State.core_updCore_same, Core.sr_setSr_same, storedBits]

end

/-- SRW keeps every bit that is neither RW nor W1C. -/
theorem masked_srwValue (n : Nat) (old v : W64) :
    (old &&& ~~~storedBits n) ||| (srwValue n old v &&& storedBits n) = srwValue n old v := by
  unfold srwValue storedBits
  ext i hi
  simp only [BitVec.getElem_or, BitVec.getElem_and, BitVec.getElem_not]
  grind

/-- So do SRSET and SRCLR, whatever they make of the old value. -/
theorem masked_modified (n : Nat) (old x : W64) :
    (old &&& ~~~storedBits n) ||| (((old &&& ~~~rwBits n) ||| (x &&& rwBits n)) &&& storedBits n)
      = (old &&& ~~~rwBits n) ||| (x &&& rwBits n) := by
  unfold storedBits
  ext i hi
  simp only [BitVec.getElem_or, BitVec.getElem_and, BitVec.getElem_not]
  grind

/-- Setting the RW bits of a value, and clearing them, in terms of the value itself (R50). -/
theorem or_merged (old v m : W64) : (old &&& ~~~m) ||| ((old ||| v) &&& m) = old ||| (v &&& m) := by
  ext i hi
  simp only [BitVec.getElem_or, BitVec.getElem_and, BitVec.getElem_not]
  grind
theorem andNot_merged (old v m : W64) : (old &&& ~~~m) ||| ((old &&& ~~~v) &&& m) = old &&& ~~~(v &&& m) := by
  ext i hi
  simp only [BitVec.getElem_or, BitVec.getElem_and, BitVec.getElem_not]
  grind

section
variable {n : Nat} (hn : IsFlagsOrPointer n) (hw : sysWriteLevel n ≠ 3) (s : State) (k : Nat)
include hn hw

/-- SRW of FFLAGS or a pointer register (R50). -/
theorem sr_sysWrite_flagsOrPointer (hb : rwBits n ||| w1cBits n ≠ 0) (v : W64) :
    ((s.sysWrite k n v).core k).sr n = srwValue n ((s.core k).sr n) v := by
  have hne : n ≠ 0x070 := by unfold IsFlagsOrPointer at hn; omega
  rw [State.sysWrite, if_neg hw, if_neg (ne_true_of_eq_false (isWO_flagsOrPointer hn)), if_neg hb, if_neg hne,
    sr_sysPut_flagsOrPointer hn, sysRead_flagsOrPointer hn, masked_srwValue]

/-- SRSET or SRCLR of FFLAGS or a pointer register (R50). -/
theorem sr_sysModify_flagsOrPointer (hb : rwBits n ≠ 0) (g : W64 → W64) :
    ((s.sysModify k n g).core k).sr n
      = ((s.core k).sr n &&& ~~~rwBits n) ||| (g ((s.core k).sr n) &&& rwBits n) := by
  rw [State.sysModify, if_neg (not_or.mpr ⟨hw, hb⟩), sr_sysPut_flagsOrPointer hn, sysRead_flagsOrPointer hn,
    masked_modified]

end

theorem rwBits_fflags : rwBits 0x040 = 0xC0 := by decide
theorem w1cBits_fflags : w1cBits 0x040 = 0x3F := by decide
theorem rwBits_pointer0 : rwBits 0x080 = 0x0FFF0FFF := by decide
theorem w1cBits_pointer0 : w1cBits 0x080 = 0#64 := by decide
theorem rwBits_ctrCmp : rwBits cmpNo = BitVec.allOnes 64 := by decide
theorem w1cBits_ctrCmp : w1cBits cmpNo = 0#64 := by decide

/-- Every bit of CTR.CMP is RW, so SRW leaves the value itself (R53). -/
theorem sr_sysWrite_ctrCmp (s : State) (k : Nat) (v : W64) : ((s.sysWrite k cmpNo v).core k).sr cmpNo = v := by
  have hv (old : W64) : srwValue cmpNo old v = v := by
    rw [srwValue, rwBits_ctrCmp, w1cBits_ctrCmp, BitVec.not_allOnes]
    simp only [BitVec.and_zero, BitVec.zero_or, BitVec.not_zero, BitVec.and_allOnes]
  have hput : s.sysPut k cmpNo v
      = s.updCore k fun c => c.setSr cmpNo ((c.sr cmpNo &&& ~~~rwBits cmpNo) ||| (v &&& rwBits cmpNo)) := rfl
  have hwrite : s.sysWrite k cmpNo v = s.sysPut k cmpNo (srwValue cmpNo (s.sysRead k cmpNo) v) := rfl
  rw [hwrite, hv, hput, State.core_updCore_same, Core.sr_setSr_same, rwBits_ctrCmp, BitVec.not_allOnes]
  simp only [BitVec.and_zero, BitVec.zero_or, BitVec.and_allOnes]

end Sys2Proof.Machine

open Sys2Proof Sys2Proof.Machine

/-- Settles O17: the masks of R11 for each register, put into what SRW, SRSET and SRCLR leave. -/
theorem systemWriteAccessTypes : Obligations.SystemWriteAccessTypes := by
  intro s k v
  have hf : IsFlagsOrPointer 0x040 := .inl rfl
  have hp : IsFlagsOrPointer 0x080 := .inr ⟨by decide, by decide⟩
  refine ⟨?_, ?_, ?_, sr_sysWrite_ctrCmp s k v, ?_⟩
  · rw [sr_sysWrite_flagsOrPointer hf (by decide) s k (by decide), srwValue, rwBits_fflags, w1cBits_fflags]
    simp only [BitVec.ofNat_eq_ofNat]
  · rw [sr_sysModify_flagsOrPointer hf (by decide) s k (by decide), or_merged, rwBits_fflags]
  · rw [sr_sysModify_flagsOrPointer hf (by decide) s k (by decide), andNot_merged, rwBits_fflags]
  · rw [sr_sysWrite_flagsOrPointer hp (by decide) s k (by decide), srwValue, rwBits_pointer0, w1cBits_pointer0]
    simp only [BitVec.and_zero, BitVec.not_zero, BitVec.and_allOnes, BitVec.ofNat_eq_ofNat]
end

section
/-! SUPPORT. Bodies of instructions, run step by step. -/

namespace Sys2Proof.Machine
open Sys2Proof Sys2Proof.Claims

theorem run_bind_ok {α β : Type} {x : M α} {f : α → M β} {s t : State} {a : α} (h : x.run s = .ok a t) :
    (x >>= f).run s = (f a).run t := by
  simp only [EStateM.run, bind, EStateM.bind] at h ⊢
  rw [h]

theorem run_getC_bind {α : Type} (k : Nat) (f : Core → M α) (s : State) :
    (getC k >>= f).run s = (f (s.core k)).run s := rfl
theorem run_get_bind {α : Type} (f : State → M α) (s : State) : ((get : M State) >>= f).run s = (f s).run s := rfl
theorem run_modC_bind {α : Type} (k : Nat) (g : Core → Core) (f : Unit → M α) (s : State) :
    (modC k g >>= f).run s = (f ()).run (s.updCore k g) := rfl
theorem run_modify_bind {α : Type} (g : State → State) (f : Unit → M α) (s : State) :
    ((modify g : M Unit) >>= f).run s = (f ()).run (g s) := rfl
theorem run_pure {α : Type} (a : α) (s : State) : (pure a : M α).run s = .ok a s := rfl

/-- An action that ends a body early ends the actions after it too. -/
theorem run_bind_error {α β : Type} {x : M α} {f : α → M β} {s t : State} {e : Err} (h : x.run s = .error e t) :
    (x >>= f).run s = .error e t := by
  simp only [EStateM.run, bind, EStateM.bind] at h ⊢
  rw [h]

/-- A body that raises ILLEGAL with its word, before it has changed anything. -/
theorem runInstr_illegal {s : State} {c : CoreId} {w n : Nat} {ctl : Bool} {body : M Flow} (hr : s.ready c = true)
    (hl : (ctl && (s.core (coreKey c)).atLoopEnd) = false) (hb : body.run s = .error (.exc (ill n)) s) :
    runInstr c w ctl body s = s.takes (coreKey c) (ill n) (pcOf s c) :=
  runInstr_exc hr hl hb (by simp [ill]) (calm_mchk (ready_calm hr))

end Sys2Proof.Machine
end

section
/-! SUPPORT. The values of R30 to R32: the model's functions of words, against the table's. -/

namespace Sys2Proof.Machine
open Sys2Proof Sys2Proof.Claims

theorem b64_slt (a b : W64) : b64 (a.slt b) = if a.toInt < b.toInt then 1 else 0 := by
  simp only [b64, BitVec.slt_iff_toInt_lt]
theorem b64_ult (a b : W64) : b64 (a.ult b) = if a.toNat < b.toNat then 1 else 0 := by
  simp only [b64, BitVec.ult_iff_toNat_lt]

theorem ite_slt_eq_min (a b : W64) : (if b.slt a then b else a) = BitVec.ofInt 64 (min a.toInt b.toInt) := by
  rw [min_def]
  by_cases h : b.toInt < a.toInt
  · rw [if_pos (BitVec.slt_iff_toInt_lt.mpr h), if_neg (not_le.mpr h), BitVec.ofInt_toInt]
  · rw [if_neg (mt BitVec.slt_iff_toInt_lt.mp h), if_pos (not_lt.mp h), BitVec.ofInt_toInt]
theorem ite_slt_eq_max (a b : W64) : (if a.slt b then b else a) = BitVec.ofInt 64 (max a.toInt b.toInt) := by
  rw [max_def_lt]
  by_cases h : a.toInt < b.toInt
  · rw [if_pos (BitVec.slt_iff_toInt_lt.mpr h), if_pos h, BitVec.ofInt_toInt]
  · rw [if_neg (mt BitVec.slt_iff_toInt_lt.mp h), if_neg h, BitVec.ofInt_toInt]
theorem ite_ult_eq_min (a b : W64) : (if b.ult a then b else a) = BitVec.ofNat 64 (min a.toNat b.toNat) := by
  rw [min_def]
  by_cases h : b.toNat < a.toNat
  · rw [if_pos (BitVec.ult_iff_toNat_lt.mpr h), if_neg (not_le.mpr h), BitVec.ofNat_toNat, BitVec.setWidth_eq]
  · rw [if_neg (mt BitVec.ult_iff_toNat_lt.mp h), if_pos (not_lt.mp h), BitVec.ofNat_toNat, BitVec.setWidth_eq]
theorem ite_ult_eq_max (a b : W64) : (if a.ult b then b else a) = BitVec.ofNat 64 (max a.toNat b.toNat) := by
  rw [max_def_lt]
  by_cases h : a.toNat < b.toNat
  · rw [if_pos (BitVec.ult_iff_toNat_lt.mpr h), if_pos h, BitVec.ofNat_toNat, BitVec.setWidth_eq]
  · rw [if_neg (mt BitVec.ult_iff_toNat_lt.mp h), if_neg h, BitVec.ofNat_toNat, BitVec.setWidth_eq]

/-- The numbers below `n` from 0 up that satisfy `p`, where the first that does not is `m`. -/
theorem length_takeWhile_range {p : Nat → Bool} {m n : Nat} (hmn : m < n) (hp : ∀ i < m, p i = true) (hm : p m = false) :
    ((List.range n).takeWhile p).length = m := by
  obtain ⟨r, rfl⟩ := Nat.exists_eq_add_of_lt hmn
  rw [Nat.add_assoc, List.range_add, List.takeWhile_append_of_pos fun i hi => hp i (List.mem_range.mp hi),
    Nat.add_comm r, Nat.add_comm 1, List.range_succ_eq_map]
  simp [hm]

/-- The zeros above the highest one bit, which stands at the logarithm. -/
theorem clz64_eq_leadingZeros (a : W64) : clz64 a = BitVec.ofNat 64 (leadingZeros a) := by
  by_cases h : a = 0
  · subst h; decide
  · have h0 : a.toNat ≠ 0 := fun e => h (BitVec.eq_of_toNat_eq e)
    have hlog : a.toNat.log2 < 64 := (Nat.log2_lt h0).mpr a.isLt
    have hlen : leadingZeros a = 63 - a.toNat.log2 := by
      refine length_takeWhile_range (by omega) (fun i hi => ?_) ?_
      · rw [BitVec.getLsbD, Nat.testBit_lt_two_pow ((Nat.log2_lt h0).mp (by omega))]; rfl
      · rw [BitVec.getLsbD, show 63 - (63 - a.toNat.log2) = a.toNat.log2 by omega, Nat.testBit_log2 h0]; rfl
    rw [clz64, if_neg h, hlen, w64]

theorem foldl_b2n_eq_filter (p : Nat → Bool) (l : List Nat) (n : Nat) :
    l.foldl (fun n i => n + b2n (p i)) n = n + (l.filter p).length := by
  induction l generalizing n with
  | nil => rfl
  | cons i l ih =>
    rw [List.foldl_cons, ih]
    cases h : p i <;> simp [h, b2n, Nat.add_assoc, Nat.add_comm 1]

theorem popc64_eq_oneBits (a : W64) : popc64 a = BitVec.ofNat 64 (oneBits a) := by
  rw [popc64, foldl_b2n_eq_filter, Nat.zero_add, w64, oneBits]

theorem mul_eq_ofNat (a b : W64) : a * b = BitVec.ofNat 64 (a.toNat * b.toNat) := BitVec.mul_def
theorem high64_natCast (n : Nat) : high64 (n : Int) = BitVec.ofNat 64 (n / 2 ^ 64) := by
  rw [high64, w64i, ← BitVec.ofInt_natCast]; rfl

/-- Division rounded toward zero is the bit vectors' own, −2^63 by −1 and a divisor of 0 among it (R31). -/
theorem divS_eq_sdiv (a b : W64) : divS a b = a.sdiv b := by
  by_cases hb : b = 0
  · subst hb; rw [divS, if_pos rfl]; exact BitVec.sdiv_zero.symm
  · rw [divS, if_neg hb, w64i]
    exact BitVec.eq_of_toInt_eq (by rw [BitVec.toInt_ofInt, BitVec.toInt_sdiv])
theorem remS_eq_srem (a b : W64) : remS a b = a.srem b := by
  by_cases hb : b = 0
  · subst hb; rw [remS, if_pos rfl, w64i, BitVec.ofInt_toInt]; exact BitVec.srem_zero.symm
  · rw [remS, if_neg hb, w64i, ← BitVec.toInt_srem, BitVec.ofInt_toInt]
theorem divU_eq_udiv (a b : W64) : divU a b = a / b := by
  rw [divU, w64, ← BitVec.toNat_udiv, BitVec.ofNat_toNat, BitVec.setWidth_eq]
theorem remU_eq_umod (a b : W64) : remU a b = a % b := by
  rw [remU, w64, ← BitVec.toNat_umod, BitVec.ofNat_toNat, BitVec.setWidth_eq]

end Sys2Proof.Machine
end

section
/-! SUPPORT. The integer and immediate instructions: the operand forms of the model, and the row of the table that each command
is (R25, R30 to R32). -/

namespace Sys2Proof.Machine
open Sys2Proof Sys2Proof.Claims

section
variable {s : State} {c : CoreId} {w : Nat} {d a b : Reg} {v : Core → W64} (hr : s.ready c = true)
include hr

theorem aluOp_next {g : W64 → W64 → W64} (hv : ∀ x : Core, g (x.rx a) (x.rx b) = v x) :
    aluOp c w d a b g s = .next ((s.updCore (coreKey c) fun x => x.wx d (v x)).retire (coreKey c) (pcOf s c)) := by
  simp only [← hv]
  exact runInstr_next hr rfl rfl

theorem aluImm_next {g : W64 → W64 → W64} (hv : ∀ x : Core, g (x.rx a) (x.rx d) = v x) :
    aluImm c w d a g s = .next ((s.updCore (coreKey c) fun x => x.wx d (v x)).retire (coreKey c) (pcOf s c)) := by
  simp only [← hv]
  exact runInstr_next hr rfl rfl

theorem aluUnary_next {g : W64 → W64} (hv : ∀ x : Core, g (x.rx a) = v x) :
    aluUnary c w d a 0 g s = .next ((s.updCore (coreKey c) fun x => x.wx d (v x)).retire (coreKey c) (pcOf s c)) := by
  simp only [← hv]
  exact runInstr_next hr rfl rfl

theorem shiftImm_next {g : W64 → W64} (hv : ∀ x : Core, g (x.rx a) = v x) :
    shiftImm c w d a 0 g s = .next ((s.updCore (coreKey c) fun x => x.wx d (v x)).retire (coreKey c) (pcOf s c)) := by
  simp only [← hv]
  exact runInstr_next hr rfl rfl

/-- A nonzero high immediate raises ILLEGAL (R31). -/
theorem shiftImm_illegal {g : W64 → W64} {hi : BitVec 8} (hhi : hi ≠ 0) :
    shiftImm c w d a hi g s = s.takes (coreKey c) (ill w) (pcOf s c) := by
  unfold shiftImm
  rw [if_pos hhi]
  exact runInstr_illegal hr rfl rfl

theorem loadImm_next {imm : BitVec 16} {keep : Bool} (ha : a.toNat < 4)
    (hv : ∀ x : Core, (if keep then x.rx d &&& ~~~(0xFFFF#64 <<< (16 * a.toNat)) else 0) ||| imm.setWidth 64 <<< (16 * a.toNat) = v x) :
    loadImm c w d a imm keep s = .next ((s.updCore (coreKey c) fun x => x.wx d (v x)).retire (coreKey c) (pcOf s c)) := by
  simp only [← hv]
  unfold loadImm
  rw [if_neg (not_le.mpr ha), Nat.mod_eq_of_lt ha]
  exact runInstr_next hr rfl rfl

end

/-- Each integer ALU, multiply and divide instruction writes the value of its row (R30, R31). -/
theorem exec_of_aluValue {i : Instr} {s : State} {c : CoreId} {d : Reg} {v : Core → W64}
    (h : aluValue i = some (c, d, v)) (hr : s.ready c = true) :
    exec i s = .next ((s.updCore (coreKey c) fun x => x.wx d (v x)).retire (coreKey c) (pcOf s c)) := by
  unfold aluValue at h
  split at h
  case h_25 => contradiction
  case h_15 => -- CLZ
    obtain ⟨rfl, h⟩ := Option.ite_none_right_eq_some.mp h
    cases h
    dsimp only [exec]
    exact aluUnary_next hr fun _ => clz64_eq_leadingZeros _
  case h_16 => -- POPC
    obtain ⟨rfl, h⟩ := Option.ite_none_right_eq_some.mp h
    cases h
    dsimp only [exec]
    exact aluUnary_next hr fun _ => popc64_eq_oneBits _
  all_goals
    cases h
    dsimp only [exec]
  case h_9 => exact aluOp_next hr fun _ => b64_slt .. -- SLT
  case h_10 => exact aluOp_next hr fun _ => b64_ult .. -- SLTU
  case h_11 => exact aluOp_next hr fun _ => ite_slt_eq_min .. -- MIN
  case h_12 => exact aluOp_next hr fun _ => ite_slt_eq_max .. -- MAX
  case h_13 => exact aluOp_next hr fun _ => ite_ult_eq_min .. -- MINU
  case h_14 => exact aluOp_next hr fun _ => ite_ult_eq_max .. -- MAXU
  case h_18 => exact aluOp_next hr fun _ => mul_eq_ofNat .. -- MUL
  case h_20 => exact aluOp_next hr fun _ => high64_natCast _ -- MULHU
  case h_21 => exact aluOp_next hr fun _ => divS_eq_sdiv .. -- DIV
  case h_22 => exact aluOp_next hr fun _ => divU_eq_udiv .. -- DIVU
  case h_23 => exact aluOp_next hr fun _ => remS_eq_srem .. -- REM
  case h_24 => exact aluOp_next hr fun _ => remU_eq_umod .. -- REMU
  all_goals exact aluOp_next hr fun _ => rfl

/-- So does each instruction with an immediate (R28, R31, R32). -/
theorem exec_of_immValue {i : Instr} {s : State} {c : CoreId} {d : Reg} {v : Core → W64}
    (h : immValue i = some (c, d, v)) (hr : s.ready c = true) :
    exec i s = .next ((s.updCore (coreKey c) fun x => x.wx d (v x)).retire (coreKey c) (pcOf s c)) := by
  unfold immValue at h
  split at h
  case h_1 | h_2 | h_3 | h_4 => -- ADDI, ANDI, ORI, XORI
    cases h
    dsimp only [exec]
    exact aluImm_next hr fun _ => rfl
  case h_5 => -- SLTI
    cases h
    dsimp only [exec]
    exact aluImm_next hr fun _ => by rw [b64_slt, sext64, BitVec.toInt_signExtend_of_le (by decide)]
  case h_6 | h_7 | h_8 => -- SLLI, SRLI, SRAI
    obtain ⟨rfl, h⟩ := Option.ite_none_right_eq_some.mp h
    cases h
    dsimp only [exec]
    exact shiftImm_next hr fun _ => rfl
  case h_9 => -- LIZ
    obtain ⟨ha, h⟩ := Option.ite_none_right_eq_some.mp h
    cases h
    dsimp only [exec]
    exact loadImm_next hr ha fun _ => BitVec.zero_or
  case h_10 => -- LIK
    obtain ⟨ha, h⟩ := Option.ite_none_right_eq_some.mp h
    cases h
    dsimp only [exec]
    exact loadImm_next hr ha fun _ => rfl
  case h_11 => contradiction

end Sys2Proof.Machine

open Sys2Proof Sys2Proof.Machine

/-- Settles O7: every row is an operand form of the model with the table's value. -/
theorem integerResults : Obligations.IntegerResults := by
  rintro i s c d v (h | h) hr
  · exact exec_of_aluValue h hr
  · exact exec_of_immValue h hr
end

section
/-! SUPPORT. The corners of division and the illegal forms of the shift immediates (R31). -/

namespace Sys2Proof.Machine
open Sys2Proof Sys2Proof.Claims

section
variable {s : State} {c : CoreId} {d : Reg} {v : Core → W64} {i : Instr} (hr : s.ready c = true)
include hr

/-- The value written is that of the core as it stands. -/
theorem exec_of_aluValue_at (h : aluValue i = some (c, d, v)) :
    exec i s = .next ((s.updCore (coreKey c) fun x => x.wx d (v (s.core (coreKey c)))).retire (coreKey c) (pcOf s c)) :=
  (exec_of_aluValue h hr).trans rfl
theorem exec_of_immValue_at (h : immValue i = some (c, d, v)) :
    exec i s = .next ((s.updCore (coreKey c) fun x => x.wx d (v (s.core (coreKey c)))).retire (coreKey c) (pcOf s c)) :=
  (exec_of_immValue h hr).trans rfl

/-- A reserved word raises ILLEGAL (R27, R28). -/
theorem exec_reservedOpcode {w : W32} (hw : reservedWord w = true) :
    exec (.reservedOpcode c w) s = s.takes (coreKey c) (ill w.toNat) (pcOf s c) := by
  dsimp only [exec]
  rw [execReservedOpcode, if_pos hw]
  refine runInstr_illegal hr rfl ?_
  rw [ill, BitVec.ofNat_toNat, BitVec.setWidth_eq]
  rfl

end

/-- No layout of major 0x07 has the kind 0b11 (R31). -/
theorem reservedWord_of_shiftKind3 {w : W32} (hmaj : bitsOf w.toNat 31 26 = 0x07) (hkind : bitsOf w.toNat 7 6 = 3) :
    reservedWord w = true := by
  simp [reservedWord, laidOut, hmaj, hkind]

end Sys2Proof.Machine

open Sys2Proof Sys2Proof.Machine Sys2Proof.Claims

/-- Settles O8: the rows of the division forms at their corners, and the forms of major 0x07 that no row has. -/
theorem divisionCornersAndShiftForms : Obligations.DivisionCornersAndShiftForms := by
  intro s c d a b hr x done
  have hdiv : exec (.div c d a b) s = done ((x.rx a).sdiv (x.rx b)) :=
    exec_of_aluValue_at (v := fun x => (x.rx a).sdiv (x.rx b)) hr rfl
  have hdivu : exec (.divu c d a b) s = done (x.rx a / x.rx b) := exec_of_aluValue_at (v := fun x => x.rx a / x.rx b) hr rfl
  have hrem : exec (.rem c d a b) s = done ((x.rx a).srem (x.rx b)) :=
    exec_of_aluValue_at (v := fun x => (x.rx a).srem (x.rx b)) hr rfl
  have hremu : exec (.remu c d a b) s = done (x.rx a % x.rx b) := exec_of_aluValue_at (v := fun x => x.rx a % x.rx b) hr rfl
  refine ⟨⟨⟨_, hdiv⟩, ⟨_, hdivu⟩, ⟨_, hrem⟩, _, hremu⟩, fun hb => ?_, fun ha hb => ?_, fun sh => ?_, fun hi sh hhi => ?_,
    fun w hmaj hkind => exec_reservedOpcode hr (reservedWord_of_shiftKind3 hmaj hkind)⟩
  · rw [hdiv, hdivu, hrem, hremu, hb]
    exact ⟨congrArg done BitVec.sdiv_zero, congrArg done BitVec.udiv_zero, congrArg done BitVec.srem_zero,
      congrArg done BitVec.umod_zero⟩
  · rw [hdiv, hrem, ha, hb]
    exact ⟨congrArg done (by decide), congrArg done (by decide)⟩
  · exact ⟨exec_of_immValue_at (v := fun x => x.rx a <<< sh.toNat) hr rfl,
      exec_of_immValue_at (v := fun x => x.rx a >>> sh.toNat) hr rfl,
      exec_of_immValue_at (v := fun x => (x.rx a).sshiftRight sh.toNat) hr rfl⟩
  · dsimp only [exec]
    exact ⟨shiftImm_illegal hr hhi, shiftImm_illegal hr hhi, shiftImm_illegal hr hhi⟩
end

section
/-! SUPPORT. The scalar FP32 instructions: the operand forms of the model, and the row of the table that each command is (R36,
R37). -/

namespace Sys2Proof.Machine
open Sys2Proof Sys2Proof.Claims

/-- ORing flags into FFLAGS after a write of f[d], or of x[d], is the table's write. -/
theorem orFflags_wf (x : Core) (d : Reg) (v : Nat × Flags) :
    (x.wf d (BitVec.ofNat 32 v.1)).orFflags v.2 = fpWrite x (.inl d) v := rfl
theorem orFflags_wx (x : Core) (d : Reg) (v : Nat × Flags) :
    (x.wx d (BitVec.ofNat 64 v.1)).orFflags v.2 = fpWrite x (.inr d) v := by
  rw [Core.orFflags, Core.sr_wx]
  rfl

section
variable {s : State} {c : CoreId} {w : Nat} {d a b : Reg} {v : Core → Nat × Flags} (hr : s.ready c = true)
include hr

theorem fpOp_next {g : RMode → FV → FV → FV → FV × Flags}
    (hv : ∀ x : Core, fpRes x (g x.frm (fpReg x d) (fpReg x a) (fpReg x b)) = v x) :
    fpOp c w d a b g s
      = .next ((s.updCore (coreKey c) fun x => fpWrite x (.inl d) (v x)).retire (coreKey c) (pcOf s c)) := by
  unfold fpOp
  simp only [fpRes, fpReg] at hv
  simp only [orFflags_wf, hv]
  exact runInstr_next hr rfl rfl

theorem fpToX_next {g : Core → W64 × Flags} (hv : ∀ x : Core, g x = (BitVec.ofNat 64 (v x).1, (v x).2)) :
    fpToX c w d g s
      = .next ((s.updCore (coreKey c) fun x => fpWrite x (.inr d) (v x)).retire (coreKey c) (pcOf s c)) := by
  unfold fpToX
  simp only [hv, orFflags_wx]
  exact runInstr_next hr rfl rfl

theorem xToFp_next {g : Core → W32 × Flags} (hv : ∀ x : Core, g x = (BitVec.ofNat 32 (v x).1, (v x).2)) :
    xToFp c w d g s
      = .next ((s.updCore (coreKey c) fun x => fpWrite x (.inl d) (v x)).retire (coreKey c) (pcOf s c)) := by
  unfold xToFp
  simp only [hv, orFflags_wf]
  exact runInstr_next hr rfl rfl

theorem execFsqrt_next (hv : ∀ x : Core, fpRes x (fvSqrt (fpReg x a)) = v x) :
    execFsqrt c d a 0 s
      = .next ((s.updCore (coreKey c) fun x => fpWrite x (.inl d) (v x)).retire (coreKey c) (pcOf s c)) := by
  unfold execFsqrt
  simp only [fpRes, fpReg] at hv
  simp only [orFflags_wf, hv]
  exact runInstr_next hr rfl rfl

end

/-- A compare is 1 where neither operand is a NaN and the order is the one asked for (R206). -/
theorem b64_compare (p q : FV) (o : Int) :
    b64 (!p.isNan && !q.isNan && fvCmp p q == o)
      = BitVec.ofNat 64 (if p.isNan ∨ q.isNan then 0 else if fvCmp p q = o then 1 else 0) := by
  cases p.isNan <;> cases q.isNan <;> by_cases h : fvCmp p q = o <;> simp [b64, h]

/-- An ordered compare with a NaN is 0 and raises NV (R206). -/
theorem less_eq_flags (p q : FV) :
    let v : Nat × Flags := if p.isNan ∨ q.isNan then (0, flNV) else (if fvCmp p q = -1 then 1 else 0, 0)
    (b64 (!p.isNan && !q.isNan && fvCmp p q == -1), nanFlag p q) = (BitVec.ofNat 64 v.1, v.2) := by
  by_cases h : p.isNan ∨ q.isNan
  · simp [b64_compare, nanFlag, h]
  · simp [b64_compare, nanFlag, h]

/-- Each scalar FP32 instruction writes the result and the flags of its row (R36, R37). -/
theorem exec_of_fpValue {i : Instr} {s : State} {c : CoreId} {d : Sum Reg Reg} {v : Core → Nat × Flags}
    (h : fpValue i = some (c, d, v)) (hr : s.ready c = true) :
    exec i s = .next ((s.updCore (coreKey c) fun x => fpWrite x d (v x)).retire (coreKey c) (pcOf s c)) := by
  unfold fpValue at h
  split at h
  case h_15 => contradiction
  case h_5 => -- FSQRT
    obtain ⟨rfl, h⟩ := Option.ite_none_right_eq_some.mp h
    cases h
    dsimp only [exec]
    exact execFsqrt_next hr fun _ => rfl
  all_goals
    cases h
    dsimp only [exec]
  case h_1 | h_2 | h_3 | h_4 | h_6 | h_7 | h_8 => exact fpOp_next hr fun _ => rfl
  case h_9 => exact fpToX_next hr fun _ => rfl -- FCVT.W
  case h_10 => exact xToFp_next hr fun _ => rfl -- FCVT.F
  case h_11 => -- FMV.X
    exact fpToX_next hr fun x => Prod.ext (by rw [BitVec.ofNat_toNat, BitVec.setWidth_eq]; rfl) rfl
  case h_12 => -- FMV.F
    exact xToFp_next hr fun x => Prod.ext (BitVec.eq_of_toNat_eq (by simp)) rfl
  case h_13 => -- FEQ
    exact fpToX_next hr fun x => Prod.ext (b64_compare ..) rfl
  case h_14 => -- FLT
    exact fpToX_next hr fun x => less_eq_flags ..

end Sys2Proof.Machine

open Sys2Proof Sys2Proof.Machine

/-- Settles O9: every row is an operand form of the model with the table's result. -/
theorem scalarFpResults : Obligations.ScalarFpResults :=
  fun _ _ _ _ _ h hr => exec_of_fpValue h hr
end

section
/-! SUPPORT. What the end of an instruction leaves alone, and the frame of the register instructions (R25, R42). -/

namespace Sys2Proof.Machine
open Sys2Proof Sys2Proof.Claims

@[simp] theorem State.core_retire_same (s : State) (k : Nat) (pc : W64) :
    (s.retire k pc).core k = (s.core k).loopStep pc := State.core_updCore_same ..
theorem State.core_retire_other (s : State) {k j : Nat} (h : j ≠ k) (pc : W64) : (s.retire k pc).core j = s.core j :=
  State.core_updCore_other s h _

@[simp] theorem loopStep_level (c : Core) (e : W64) : (c.loopStep e).level = c.level := by
  obtain ⟨p, y, h⟩ := loopStep_frame c e; rw [h]
@[simp] theorem loopStep_ieS (c : Core) (e : W64) : (c.loopStep e).ieS = c.ieS := by
  obtain ⟨p, y, h⟩ := loopStep_frame c e; rw [h]
@[simp] theorem loopStep_ieM (c : Core) (e : W64) : (c.loopStep e).ieM = c.ieM := by
  obtain ⟨p, y, h⟩ := loopStep_frame c e; rw [h]
@[simp] theorem loopStep_l1 (c : Core) (e : W64) : (c.loopStep e).l1 = c.l1 := by
  obtain ⟨p, y, h⟩ := loopStep_frame c e; rw [h]

theorem sr_loopTest_other (c : Core) (e : W64) {lv n : Nat} (h : n ≠ loopNo lv 2) : (c.loopTest lv e).2.sr n = c.sr n := by
  unfold Core.loopTest
  split_ifs
  · exact Core.sr_setSr_other c h _
  · exact Core.sr_setSr_other c h _
  · rfl

/-- The loop test writes the two counts and no other system register (R42). -/
theorem sr_loopStep_other (c : Core) (e : W64) {n : Nat} (h0 : n ≠ 0x102) (h1 : n ≠ 0x106) :
    (c.loopStep e).sr n = c.sr n := by
  have hinner : (({ c with pc := e + 4 } : Core).loopTest 1 e).2.sr n = c.sr n := sr_loopTest_other _ e h1
  unfold Core.loopStep
  dsimp only
  split_ifs
  · exact hinner
  · exact (sr_loopTest_other _ e h0).trans hinner

/-- What a change of a core leaves alone but for the x and f registers named, FFLAGS and the loop counts. -/
def Core.FrameOf (c c' : Core) (dx df : Option Reg) : Prop :=
  (∀ r, dx ≠ some r → c'.rx r = c.rx r) ∧ (∀ r, df ≠ some r → c'.rf r = c.rf r)
    ∧ (∀ n, n ≠ fflagsNo → n ≠ 0x102 → n ≠ 0x106 → c'.sr n = c.sr n)
    ∧ c'.level = c.level ∧ c'.ieS = c.ieS ∧ c'.ieM = c.ieM ∧ c'.l1 = c.l1

theorem Core.frameOf_wx (c : Core) (d : Reg) (v : W64) : c.FrameOf (c.wx d v) (some d) none :=
  ⟨fun _ h => c.rx_wx_other (fun e => h (congrArg some e.symm)) v, fun r _ => c.rf_wx d r v, fun n _ _ _ => c.sr_wx n d v,
    c.wx_level d v, c.wx_ieS d v, c.wx_ieM d v, c.wx_l1 d v⟩

theorem Core.frameOf_wf (c : Core) (d : Reg) (v : W32) : c.FrameOf (c.wf d v) none (some d) :=
  ⟨fun r _ => c.rx_wf d r v, fun _ h => c.rf_wf_other (fun e => h (congrArg some e.symm)) v, fun _ _ _ _ => rfl, rfl, rfl, rfl, rfl⟩

/-- A write of FFLAGS after it stays within the frame. -/
theorem Core.FrameOf.setFflags {c c' : Core} {dx df : Option Reg} (h : c.FrameOf c' dx df) (v : W64) :
    c.FrameOf (c'.setSr fflagsNo v) dx df := by
  obtain ⟨hx, hf, hsr, hrest⟩ := h
  exact ⟨hx, hf, fun n hn h0 h1 => (c'.sr_setSr_other hn v).trans (hsr n hn h0 h1), hrest⟩

/-- So does the loop test. -/
theorem Core.FrameOf.loopStep {c c' : Core} {dx df : Option Reg} (h : c.FrameOf c' dx df) (e : W64) :
    c.FrameOf (c'.loopStep e) dx df := by
  obtain ⟨hx, hf, hsr, hlevel, hieS, hieM, hl1⟩ := h
  refine ⟨fun r hr => ?_, fun r hr => ?_, fun n hn h0 h1 => ?_, ?_, ?_, ?_, ?_⟩
  · rw [loopStep_rx, hx r hr]
  · rw [loopStep_rf, hf r hr]
  · rw [sr_loopStep_other c' e h0 h1, hsr n hn h0 h1]
  · rw [loopStep_level, hlevel]
  · rw [loopStep_ieS, hieS]
  · rw [loopStep_ieM, hieM]
  · rw [loopStep_l1, hl1]

theorem Core.frameOf_fpWrite_x (c : Core) (d : Reg) (v : Nat × Flags) : c.FrameOf (fpWrite c (.inr d) v) (some d) none :=
  (c.frameOf_wx d _).setFflags _
theorem Core.frameOf_fpWrite_f (c : Core) (d : Reg) (v : Nat × Flags) : c.FrameOf (fpWrite c (.inl d) v) none (some d) :=
  (c.frameOf_wf d _).setFflags _

/-- Each register instruction is one change of its core within the frame, and retires. -/
theorem exec_registerInstruction {i : Instr} {s : State} {c : CoreId} {dx df : Option Reg} (hr : s.ready c = true)
    (hi : (∃ d v, (aluValue i = some (c, d, v) ∨ immValue i = some (c, d, v)) ∧ dx = some d ∧ df = none)
      ∨ (∃ d v, fpValue i = some (c, .inr d, v) ∧ dx = some d ∧ df = none)
      ∨ ∃ d v, fpValue i = some (c, .inl d, v) ∧ dx = none ∧ df = some d) :
    ∃ g : Core → Core, (∀ x : Core, x.FrameOf (g x) dx df)
      ∧ exec i s = .next ((s.updCore (coreKey c) g).retire (coreKey c) (pcOf s c)) := by
  obtain ⟨d, v, h | h, rfl, rfl⟩ | ⟨d, v, h, rfl, rfl⟩ | ⟨d, v, h, rfl, rfl⟩ := hi
  · exact ⟨_, fun _ => Core.frameOf_wx _ d _, exec_of_aluValue h hr⟩
  · exact ⟨_, fun _ => Core.frameOf_wx _ d _, exec_of_immValue h hr⟩
  · exact ⟨_, fun _ => Core.frameOf_fpWrite_x _ d _, exec_of_fpValue h hr⟩
  · exact ⟨_, fun _ => Core.frameOf_fpWrite_f _ d _, exec_of_fpValue h hr⟩

end Sys2Proof.Machine

open Sys2Proof Sys2Proof.Machine

/-- Settles O10: the write and the loop test each stay within the frame, and neither leaves the core. -/
theorem registerInstructionFrame : Obligations.RegisterInstructionFrame := by
  intro i s t c dx df hi hr ht
  obtain ⟨g, hg, hexec⟩ := exec_registerInstruction hr hi
  cases hexec.symm.trans ht
  have hframe := (hg (s.core (coreKey c))).loopStep (Claims.pcOf s c)
  rw [State.core_retire_same, State.core_updCore_same]
  obtain ⟨hx, hf, hsr, hlevel, hieS, hieM, hl1⟩ := hframe
  exact ⟨hx, hf, hsr, hlevel, hieS, hieM,
    fun j hj => (State.core_retire_other _ hj _).trans (State.core_updCore_other s hj g), hl1, rfl, rfl⟩
end

section
/-! SUPPORT. The loads and stores (R33, R34). -/

namespace Sys2Proof.Machine
open Sys2Proof Sys2Proof.Claims

/-- A misaligned access raises MISALIGN with its size and address, and touches nothing (R33, R76). -/
theorem scalarLoad_misaligned {k n : Nat} {va : W64} (h : va.toNat % n ≠ 0) (s : State) :
    (scalarLoad k va n).run s = .error (.exc { code := 0x03, detail := n, addr := va }) s := by
  unfold scalarLoad
  rw [if_pos h]
  rfl
theorem scalarStore_misaligned {k n v : Nat} {va : W64} (h : va.toNat % n ≠ 0) (s : State) :
    (scalarStore k va n v).run s = .error (.exc { code := 0x03, detail := n, addr := va }) s := by
  unfold scalarStore
  rw [if_pos h]
  rfl

/-- Sign extension of a number of `n` bytes subtracts its range where its top bit is set (R33). -/
theorem extended_eq {n v : Nat} (sx : Bool) (hv : v < 2 ^ (8 * n)) :
    (if sx then w64i (signed (8 * n) v) else w64 v)
      = if sx && decide (2 ^ (8 * n - 1) ≤ v) then BitVec.ofInt 64 ((v : Int) - 2 ^ (8 * n)) else BitVec.ofNat 64 v := by
  cases sx
  · rfl
  · rw [signed, Nat.mod_eq_of_lt hv]
    by_cases h : v < 2 ^ (8 * n - 1)
    · simp [h, w64i, not_le.mpr h]
    · simp [h, w64i, not_lt.mp h]

section
variable {s t : State} {c : CoreId} {w n v : Nat} {d a : Reg} {imm : BitVec 16} (hr : s.ready c = true)
include hr

theorem loadX_next {sx : Bool} (h : (scalarLoad (coreKey c) (addrOf s c a imm) n).run s = .ok v t) (hv : v < 2 ^ (8 * n)) :
    loadX c w d a imm n sx s
      = .next ((t.updCore (coreKey c) fun x => loadWrite x n (.inl (d, sx)) v).retire (coreKey c) (pcOf s c)) := by
  refine runInstr_next hr rfl ?_
  rw [run_getC_bind]
  refine (run_bind_ok h).trans ?_
  rw [run_modC_bind, run_pure, extended_eq sx hv]
  rfl

theorem execFlw_next (h : (scalarLoad (coreKey c) (addrOf s c a imm) 4).run s = .ok v t) :
    execFlw c d a imm s
      = .next ((t.updCore (coreKey c) fun x => loadWrite x 4 (.inr d) v).retire (coreKey c) (pcOf s c)) := by
  refine runInstr_next hr rfl ?_
  rw [run_getC_bind]
  exact run_bind_ok h

theorem storeX_next {g : Core → Nat}
    (h : (scalarStore (coreKey c) (addrOf s c a imm) n (g (s.core (coreKey c)))).run s = .ok () t) :
    storeX c w a imm n g s = .next (t.retire (coreKey c) (pcOf s c)) := by
  refine runInstr_next hr rfl ?_
  rw [run_getC_bind]
  exact run_bind_ok h

/-- An instruction that raises MISALIGN, before it has changed anything. -/
theorem runInstr_misaligned {ctl : Bool} {body : M Flow} {va : W64}
    (hl : (ctl && (s.core (coreKey c)).atLoopEnd) = false)
    (hb : body.run s = .error (.exc { code := 0x03, detail := n, addr := va }) s) :
    runInstr c w ctl body s = s.takes (coreKey c) { code := 0x03, detail := n, addr := va } (pcOf s c) :=
  runInstr_exc hr hl hb (by simp) (calm_mchk (ready_calm hr))

theorem loadX_misaligned {sx : Bool} (hm : (addrOf s c a imm).toNat % n ≠ 0) :
    loadX c w d a imm n sx s
      = s.takes (coreKey c) { code := 0x03, detail := n, addr := addrOf s c a imm } (pcOf s c) :=
  runInstr_misaligned hr rfl ((run_getC_bind ..).trans (run_bind_error (scalarLoad_misaligned hm s)))

theorem storeX_misaligned {g : Core → Nat} (hm : (addrOf s c a imm).toNat % n ≠ 0) :
    storeX c w a imm n g s
      = s.takes (coreKey c) { code := 0x03, detail := n, addr := addrOf s c a imm } (pcOf s c) :=
  runInstr_misaligned hr rfl ((run_getC_bind ..).trans (run_bind_error (scalarStore_misaligned hm s)))

theorem execFlw_misaligned (hm : (addrOf s c a imm).toNat % 4 ≠ 0) :
    execFlw c d a imm s
      = s.takes (coreKey c) { code := 0x03, detail := 4, addr := addrOf s c a imm } (pcOf s c) :=
  runInstr_misaligned hr rfl ((run_getC_bind ..).trans (run_bind_error (scalarLoad_misaligned hm s)))

end

/-- What each load does where its memory operation answers, and where its address is misaligned. -/
theorem exec_of_loadForm {i : Instr} {s : State} {c : CoreId} {a : Reg} {imm : BitVec 16} {n : Nat} {d : Sum (Reg × Bool) Reg}
    (h : loadForm i = some (c, a, imm, n, d)) (hr : s.ready c = true) :
    (∀ v t, (scalarLoad (coreKey c) (addrOf s c a imm) n).run s = .ok v t → v < 2 ^ (8 * n) →
        exec i s = .next ((t.updCore (coreKey c) fun x => loadWrite x n d v).retire (coreKey c) (pcOf s c)))
      ∧ ((addrOf s c a imm).toNat % n ≠ 0 →
          exec i s = s.takes (coreKey c) { code := 0x03, detail := n, addr := addrOf s c a imm } (pcOf s c)) := by
  unfold loadForm at h
  split at h
  case h_9 => contradiction
  all_goals
    cases h
    dsimp only [exec]
  case h_8 => exact ⟨fun _ _ h _ => execFlw_next hr h, execFlw_misaligned hr⟩ -- FLW
  all_goals exact ⟨fun _ _ h hv => loadX_next hr h hv, loadX_misaligned hr⟩

/-- The same of each store. -/
theorem exec_of_storeForm {i : Instr} {s : State} {c : CoreId} {a : Reg} {imm : BitVec 16} {n : Nat} {v : Core → Nat}
    (h : storeForm i = some (c, a, imm, n, v)) (hr : s.ready c = true) :
    (∀ t, (scalarStore (coreKey c) (addrOf s c a imm) n (v (s.core (coreKey c)))).run s = .ok () t →
        exec i s = .next (t.retire (coreKey c) (pcOf s c)))
      ∧ ((addrOf s c a imm).toNat % n ≠ 0 →
          exec i s = s.takes (coreKey c) { code := 0x03, detail := n, addr := addrOf s c a imm } (pcOf s c)) := by
  unfold storeForm at h
  split at h
  case h_6 => contradiction
  all_goals
    cases h
    dsimp only [exec]
    exact ⟨fun _ h => storeX_next hr h, storeX_misaligned hr⟩

end Sys2Proof.Machine

open Sys2Proof Sys2Proof.Machine

/-- Settles O11: each row is a load or a store form of the model. -/
theorem loadAndStoreResults : Obligations.LoadAndStoreResults :=
  ⟨fun _ _ _ _ _ _ _ h hr => exec_of_loadForm h hr, fun _ _ _ _ _ _ _ h hr => exec_of_storeForm h hr⟩
end

section
/-! SUPPORT. Branches and jumps, and the loop levels that a taken transfer ends (R27, R28, R43, R44). -/

namespace Sys2Proof.Machine
open Sys2Proof Sys2Proof.Claims

/-- An offset counts words: sign extension and two zero bits are its value times 4 (R27). -/
theorem relTarget_eq_pcPlus {n : Nat} (pc : W64) (off : BitVec n) : relTarget pc off = pcPlus pc off := by
  rw [relTarget, pcPlus, sext64, BitVec.shiftLeft_eq_mul_twoPow, BitVec.ofInt_add, BitVec.ofInt_mul, BitVec.mul_comm,
    BitVec.ofInt_natCast, BitVec.ofNat_toNat, BitVec.setWidth_eq]
  rfl

section
variable {s : State} {c : CoreId} {w : Nat} {a b : Reg} {off : BitVec 16} (hr : s.ready c = true)
include hr

theorem branch_next {cond : W64 → W64 → Bool} {p : Core → Bool} (hl : (s.core (coreKey c)).atLoopEnd = false)
    (hp : ∀ x : Core, cond (x.rx a) (x.rx b) = p x) :
    branch c w a b off cond s
      = .next (if p (s.core (coreKey c)) then s.goTo (coreKey c) (pcOf s c) (pcPlus (pcOf s c) off)
          else s.retire (coreKey c) (pcOf s c)) := by
  rw [← hp, ← relTarget_eq_pcPlus]
  cases hc : cond ((s.core (coreKey c)).rx a) ((s.core (coreKey c)).rx b)
  · exact runInstr_next hr hl (by rw [run_getC_bind, hc]; rfl)
  · exact runInstr_jump hr hl (by rw [run_getC_bind, hc]; rfl)

end

theorem not_slt_eq_decide (a b : W64) : (!a.slt b) = decide (b.toInt ≤ a.toInt) := by
  rw [BitVec.slt_eq_decide, ← decide_not, decide_eq_decide, not_lt]

theorem bne_eq_decide (a b : W64) : (a != b) = decide (a ≠ b) := by
  rw [decide_not]; rfl

theorem not_ult_eq_decide (a b : W64) : (!a.ult b) = decide (b.toNat ≤ a.toNat) := by
  rw [BitVec.ult_eq_decide, ← decide_not, decide_eq_decide, not_lt]

/-- Each conditional branch goes where its condition says (R27, R28). -/
theorem exec_of_branchForm {i : Instr} {s : State} {c : CoreId} {off : BitVec 16} {p : Core → Bool}
    (h : branchForm i = some (c, off, p)) (hr : s.ready c = true) (hl : (s.core (coreKey c)).atLoopEnd = false) :
    exec i s = .next (if p (s.core (coreKey c)) then s.goTo (coreKey c) (pcOf s c) (pcPlus (pcOf s c) off)
      else s.retire (coreKey c) (pcOf s c)) := by
  unfold branchForm at h
  split at h
  case h_7 => contradiction
  all_goals
    cases h
    dsimp only [exec]
  case h_1 => exact branch_next hr hl fun _ => beq_eq_decide .. -- BEQ
  case h_2 => exact branch_next (cond := fun x y => x != y) hr hl fun _ => bne_eq_decide .. -- BNE
  case h_3 => exact branch_next hr hl fun _ => rfl -- BLT
  case h_4 => exact branch_next (cond := fun x y => !x.slt y) hr hl fun _ => not_slt_eq_decide .. -- BGE
  case h_5 => exact branch_next hr hl fun _ => rfl -- BLTU
  case h_6 => exact branch_next (cond := fun x y => !x.ult y) hr hl fun _ => not_ult_eq_decide .. -- BGEU

/-- At the end of a loop body each of them raises ILLEGAL with its word (R43). -/
theorem exec_of_branchForm_atLoopEnd {i : Instr} {s : State} {c : CoreId} {off : BitVec 16} {p : Core → Bool}
    (h : branchForm i = some (c, off, p)) (hr : s.ready c = true) (hl : (s.core (coreKey c)).atLoopEnd = true) :
    exec i s = s.takes (coreKey c) (ill (instrWord i)) (pcOf s c) := by
  unfold branchForm at h
  split at h
  case h_7 => contradiction
  all_goals
    cases h
    dsimp only [exec]
    exact runInstr_loopEnd hr hl

theorem exec_jmp_next {s : State} {c : CoreId} {off : BitVec 26} (hr : s.ready c = true)
    (hl : (s.core (coreKey c)).atLoopEnd = false) :
    exec (.jmp c off) s = .next (s.goTo (coreKey c) (pcOf s c) (pcPlus (pcOf s c) off)) := by
  rw [← relTarget_eq_pcPlus]
  dsimp only [exec]
  exact runInstr_jump hr hl rfl

theorem exec_call_next {s : State} {c : CoreId} {off : BitVec 26} (hr : s.ready c = true)
    (hl : (s.core (coreKey c)).atLoopEnd = false) :
    exec (.call c off) s = .next ((s.updCore (coreKey c) fun x => x.wx 1 (pcOf s c + 4)).goTo (coreKey c) (pcOf s c)
      (pcPlus (pcOf s c) off)) := by
  rw [← relTarget_eq_pcPlus]
  dsimp only [exec]
  exact runInstr_jump hr hl rfl

/-- A transfer from e to t leaves the body of an active level (R44). -/
abbrev Core.leavesLoop (x : Core) (e t : W64) (lv : Nat) : Prop :=
  x.loopActive lv = true ∧ ((x.sr (loopNo lv 0)).toNat ≤ e.toNat ∧ e.toNat ≤ (x.sr (loopNo lv 1)).toNat)
    ∧ ¬ ((x.sr (loopNo lv 0)).toNat ≤ t.toNat ∧ t.toNat ≤ (x.sr (loopNo lv 1)).toNat)

theorem jumpFrom_eq (x : Core) (e t : W64) :
    x.jumpFrom e t = if x.leavesLoop e t 0 then { (x.endLoop 0).endLoop 1 with pc := t }
      else if x.leavesLoop e t 1 then { x.endLoop 1 with pc := t } else { x with pc := t } := by
  have hout : ∀ lv, (x.loopActive lv && decide ((x.sr (loopNo lv 0)).toNat ≤ e.toNat ∧ e.toNat ≤ (x.sr (loopNo lv 1)).toNat)
      && !decide ((x.sr (loopNo lv 0)).toNat ≤ t.toNat ∧ t.toNat ≤ (x.sr (loopNo lv 1)).toNat)) = decide (x.leavesLoop e t lv) := by
    intro lv
    rw [Bool.eq_iff_iff]
    simp only [Core.leavesLoop, Bool.and_eq_true, Bool.not_eq_true', decide_eq_true_eq, decide_eq_false_iff_not, and_assoc]
  simp only [Core.jumpFrom, hout, decide_eq_true_eq]
  split_ifs <;> rfl

theorem Core.sr_endLoop_same (x : Core) (lv : Nat) : (x.endLoop lv).sr (loopNo lv 2) = 0 := x.sr_setSr_same ..
theorem Core.sr_endLoop_other (x : Core) {lv n : Nat} (h : n ≠ loopNo lv 2) : (x.endLoop lv).sr n = x.sr n := x.sr_setSr_other h 0

/-- A level whose count register holds 0 is not active, and its count is 0 (R46). -/
theorem Core.loop_ended {x : Core} {lv : Nat} (h : x.sr (loopNo lv 2) = 0) : x.loopActive lv = false ∧ x.loopCount lv = 0 := by
  simp [Core.loopActive, Core.loopCount, h, bitsOf]

end Sys2Proof.Machine

open Sys2Proof Sys2Proof.Machine

/-- Settles O13: a transfer's answer is one lemma per form, and what it does to the loop registers is that it clears the counts of
the levels it leaves. -/
theorem branchAndJumpResults : Obligations.BranchAndJumpResults := by
  refine ⟨fun _ _ _ _ _ => exec_of_branchForm, fun _ _ _ hr hl => ⟨exec_jmp_next hr hl, exec_call_next hr hl⟩,
    fun _ _ _ _ _ => exec_of_branchForm_atLoopEnd, fun s c off hr hl => ?_, fun x e t => ⟨rfl, fun h0 => ?_, fun h0 h1 => ?_, fun h0 h1 n => ?_⟩⟩
  · dsimp only [exec]
    exact ⟨runInstr_loopEnd hr hl, runInstr_loopEnd hr hl⟩
  · rw [jumpFrom_eq, if_pos h0]
    intro lv hlv
    obtain rfl | rfl : lv = 0 ∨ lv = 1 := by omega
    · exact Core.loop_ended ((Core.sr_endLoop_other (n := 0x102) (lv := 1) _ (by decide)).trans (x.sr_endLoop_same 0))
    · exact Core.loop_ended (Core.sr_endLoop_same ..)
  · rw [jumpFrom_eq, if_neg h0, if_pos h1]
    obtain ⟨hactive, hcount⟩ := Core.loop_ended (x := { x.endLoop 1 with pc := t }) (x.sr_endLoop_same 1)
    exact ⟨hactive, hcount, x.sr_endLoop_other (n := 0x102) (lv := 1) (by decide)⟩
  · rw [jumpFrom_eq, if_neg h0, if_neg h1]
    rfl
end

section
/-! SUPPORT. JR, and what the entry of a handler leaves of the registers (R35, R78, R80). -/

namespace Sys2Proof.Machine
open Sys2Proof Sys2Proof.Claims

/-- The two low bits of a word are 0 where 4 divides it. -/
theorem and_three_eq_zero_iff (t : W64) : t &&& 3 = 0 ↔ t.toNat % 4 = 0 := by
  rw [← BitVec.toNat_inj, BitVec.toNat_and]
  exact iff_of_eq (congrArg (· = 0) (Nat.and_two_pow_sub_one_eq_mod t.toNat 2))

/-- A handler's entry saves the PC of its event, without the two low bits (R78, R80): none of its later writes is to SAVE.PC. -/
theorem sr_enter_savePc (x : Core) (t : Level) (g : Gate) (e : Event) (pc : W64) :
    (x.enter t g e pc).sr (saveBase t) = pc &&& ~~~3 := by
  unfold Core.enter
  extract_lets b x2 c1 c2 c3 c4 c5 c6 c7 c8 c9
  have hb : b = 0x050 ∨ b = 0x550 ∨ b = 0xA50 := by cases t <;> decide
  have h1 : c1.sr b = pc &&& ~~~3 := x.sr_setSr_same ..
  have h5 : c5.sr b = c1.sr b := by
    rw [Core.sr_setSr_other _ (by omega), Core.sr_setSr_other _ (by omega), Core.sr_setSr_other _ (by omega),
      Core.sr_setSr_other _ (by omega)]
  have h6 : c6.sr b = c5.sr b := by
    rw [Core.sr_endLoop_other _ (by simp only [loopNo]; omega), Core.sr_endLoop_other _ (by simp only [loopNo]; omega)]
  have h7 : c7.sr b = c6.sr b := by
    simp only [c7, apply_ite (Core.sr · b)]
    simp [Core.sr_setSr_other, vposNo, tposNo, show b ≠ 0x060 ∧ b ≠ 0x061 by omega]
  have h8 : c8.sr b = c7.sr b := by
    simp only [c8, apply_ite (Core.sr · b)]
    simp [Core.sr_setSr_other]
  have h9 : c9.sr b = c8.sr b := by
    simp only [c9]
    split_ifs
    · cases t <;> rfl
    · rfl
  exact h9.trans (h8.trans (h7.trans (h6.trans (h5.trans h1))))

/-- What the writes of a handler's entry leave alone, one by one, the entry leaves alone (R78). -/
theorem enter_keeps {α : Type} {p : Core → α} (hsr : ∀ c n v, p (Core.setSr c n v) = p c) (hwx : ∀ c v, p (Core.wx c 2 v) = p c)
    (hieS : ∀ c : Core, p { c with ieS := false } = p c) (hieM : ∀ c : Core, p { c with ieM := false } = p c)
    (hend : ∀ (c : Core) lv pc, p { c with level := lv, pc := pc, wait := .none } = p c)
    (x : Core) (t : Level) (g : Gate) (e : Event) (pc : W64) : p (x.enter t g e pc) = p x := by
  unfold Core.enter
  extract_lets b x2 c1 c2 c3 c4 c5 c6 c7 c8 c9
  have h6 : p c6 = p x := by
    simp only [c6, Core.endLoop, hsr, c5, c4, c3, c2, c1]
  have h7 : p c7 = p c6 := by
    simp only [c7]
    split_ifs <;> simp only [hsr]
  have h8 : p c8 = p c7 := by
    simp only [c8]
    split_ifs
    · rfl
    · rw [hwx, hsr]
  have h9 : p c9 = p c8 := by
    simp only [c9]
    split_ifs
    · cases t
      · rfl
      · exact hieS c8
      · exact hieM c8
    · rfl
  rw [hend, h9, h8, h7, h6]

theorem rx_enter_other (x : Core) (t : Level) (g : Gate) (e : Event) (pc : W64) {d : Reg} (hd : d ≠ 2) :
    (x.enter t g e pc).rx d = x.rx d :=
  enter_keeps (p := (Core.rx · d)) (fun c n v => c.rx_setSr n d v) (fun c v => c.rx_wx_other hd v) (fun _ => rfl) (fun _ => rfl)
    (fun _ _ _ => rfl) x t g e pc

@[simp] theorem enter_trace (x : Core) (t : Level) (g : Gate) (e : Event) (pc : W64) : (x.enter t g e pc).trace = x.trace :=
  enter_keeps (p := Core.trace) Core.setSr_trace (fun c v => c.wx_trace 2 v) (fun _ => rfl) (fun _ => rfl) (fun _ _ _ => rfl) x t g e pc

/-- Only a machine check has a note. -/
theorem noteMcheck_other (x : Core) {e : Event} (he : e.code ≠ 0x12) : x.noteMcheck e = x := if_neg he

theorem traceNote_untraced {s : State} {k : Nat} (h : (s.core k).trace = none) (kind : TraceKind) (a : W64) :
    s.traceNote k kind a = s := by
  rw [State.traceNote, h]

theorem max_lowest_u (l : Level) : l.max .u = l := by cases l <;> rfl

/-- An event whose gate is found, with a free save set, is entered there; the core is not on shipped firmware and is not traced
(R75, R78). -/
theorem run_takeEvent_enter {s u : State} {k n : Nat} {e : Event} {pc : W64} {lv : Level} {g : Gate} (he : e.code ≠ 0x12)
    (hf : (findGate k e.code 3 ((s.core k).level.max (lowestLevel e.code))).run s = .ok (.gate lv g) u)
    (hb : (u.core k).busy lv = false) (hm : lv = .m → (u.core k).mfw = false) (ht : (u.core k).trace = none) :
    (takeEvent k (n + 1) e pc).run s = .ok true (u.updCore k fun c => c.enter lv g e pc) := by
  have htrace : ((u.updCore k fun c => c.enter lv g e pc).core k).trace = none := by
    rw [State.core_updCore_same, enter_trace, ht]
  have hfw : ¬ (lv = .m ∧ (u.core k).mfw = true) := fun ⟨hlv, hon⟩ => Bool.false_ne_true ((hm hlv).symm.trans hon)
  refine (run_bind_ok hf).trans ((run_getC_bind k _ u).trans ?_)
  rw [hb, if_neg Bool.false_ne_true, if_neg hfw, run_modC_bind, run_modify_bind]
  simp only [noteMcheck_other _ he]
  rw [traceNote_untraced htrace, run_pure]

/-- JR writes the return address and goes to an aligned target (R35). -/
theorem execJr_next {s : State} {c : CoreId} {d a : Reg} {imm : BitVec 16} (hr : s.ready c = true)
    (hl : (s.core (coreKey c)).atLoopEnd = false) (ht : (addrOf s c a imm).toNat % 4 = 0) :
    execJr c d a imm s = .next ((s.updCore (coreKey c) fun x => x.wx d (pcOf s c + 4)).goTo (coreKey c) (pcOf s c) (addrOf s c a imm)) :=
  runInstr_jump hr hl (by
    have h : ((s.core (coreKey c)).rx a + sext64 imm) &&& 3 = 0 := (and_three_eq_zero_iff _).mpr ht
    rw [run_getC_bind]
    dsimp only
    rw [if_neg (not_not.mpr h)]
    rfl)

/-- A target of JR that is not aligned raises MISALIGN (R35). -/
theorem execJr_misaligned {s : State} {c : CoreId} {d a : Reg} {imm : BitVec 16} (hr : s.ready c = true)
    (hl : (s.core (coreKey c)).atLoopEnd = false) (ht : (addrOf s c a imm).toNat % 4 ≠ 0) :
    execJr c d a imm s = s.takes (coreKey c) { code := 0x03, detail := 4, addr := addrOf s c a imm } (pcOf s c) :=
  runInstr_misaligned hr hl (by
    have h : ((s.core (coreKey c)).rx a + sext64 imm) &&& 3 ≠ 0 := mt (and_three_eq_zero_iff _).mp ht
    rw [run_getC_bind]
    dsimp only
    rw [if_pos h]
    rfl)

end Sys2Proof.Machine

open Sys2Proof Sys2Proof.Machine

/-- Settles O14: the exception is taken at its gate, whose entry saves the PC of the JR and writes x2 alone. -/
theorem jrResults : Obligations.JrResults := by
  intro s c d a imm hr hl t
  refine ⟨fun ht => ?_, fun ht => ⟨?_, fun u lv g hf hb hm htr => ⟨u.updCore (coreKey c) fun x =>
    x.enter lv g { code := 0x03, detail := 4, addr := t } (Claims.pcOf s c), ?_, ?_, fun hd => ?_⟩⟩⟩
  · dsimp only [exec]
    exact execJr_next hr hl ht
  · dsimp only [exec]
    exact execJr_misaligned hr hl ht
  · dsimp only [exec]
    rw [← max_lowest_u (s.core (coreKey c)).level] at hf
    rw [execJr_misaligned hr hl ht, State.takes, finish_discard, raise, run_takeEvent_enter (by simp) hf hb hm htr]
    rfl
  · rw [State.core_updCore_same, sr_enter_savePc]
    rfl
  · rw [State.core_updCore_same, rx_enter_other _ _ _ _ _ hd]
end

section
/-! SUPPORT. Hardware loops: how one starts, and the loop test at the end of a body (R41 to R43, R46). -/

namespace Sys2Proof.Machine
open Sys2Proof Sys2Proof.Claims

/-! ### The count register -/

theorem loopCnt_active {n : Nat} (h : n < 2 ^ 32) : loopCnt true n = BitVec.ofNat 64 (2 ^ 63 + n) := by
  rw [loopCnt, Nat.mod_eq_of_lt h]
  rfl

theorem Core.loopCount_lt (x : Core) (lv : Nat) : x.loopCount lv < 2 ^ 32 := by
  simp only [Core.loopCount, bitsOf]
  omega

/-- A level whose count register was written with a count is active, with that count (R46). -/
theorem Core.loop_started {x : Core} {lv n : Nat} (hn : n < 2 ^ 32) (h : x.sr (loopNo lv 2) = loopCnt true n) :
    x.loopActive lv = true ∧ x.loopCount lv = n := by
  rw [Core.loopActive, Core.loopCount, h, loopCnt_active hn]
  constructor
  · rw [BitVec.getLsbD_ofNat, Nat.testBit_two_pow_add_eq, Nat.testBit_lt_two_pow (by omega)]
    rfl
  · rw [BitVec.toNat_ofNat]
    simp only [bitsOf, Nat.shiftRight_zero]
    omega

/-! ### The loop test (R42) -/

/-- An instruction at e is the last one of an active level's body. -/
abbrev Core.endsBody (x : Core) (e : W64) (lv : Nat) : Prop := x.loopActive lv = true ∧ x.sr (loopNo lv 1) = e

section
variable {x : Core} {lv : Nat} {e : W64}

theorem loopTest_elsewhere (h : ¬ x.endsBody e lv) : x.loopTest lv e = (false, x) := by
  rw [Core.loopTest, if_neg (by simpa using h)]

theorem loopTest_repeats (h : x.endsBody e lv) (hc : 1 < x.loopCount lv) :
    x.loopTest lv e = (true, { x.setSr (loopNo lv 2) (loopCnt true (x.loopCount lv - 1)) with pc := x.sr (loopNo lv 0) }) := by
  rw [Core.loopTest, if_pos (by simpa using h), if_pos hc]

theorem loopTest_ends (h : x.endsBody e lv) (hc : x.loopCount lv ≤ 1) :
    x.loopTest lv e = (false, x.endLoop lv) := by
  rw [Core.loopTest, if_pos (by simpa using h), if_neg (not_lt.mpr hc)]

/-- Elsewhere than at an active END the PC goes up by 4. -/
theorem loopStep_elsewhere (h0 : ¬ x.endsBody e 0)
    (h1 : ¬ x.endsBody e 1) : x.loopStep e = { x with pc := e + 4 } := by
  have inner := loopTest_elsewhere (x := { x with pc := e + 4 }) h1
  have outer := loopTest_elsewhere (x := { x with pc := e + 4 }) h0
  rw [Core.loopStep, inner]
  exact congrArg Prod.snd outer

theorem loopStep_inner_repeats (h1 : x.endsBody e 1) (hc : 1 < x.loopCount 1) :
    x.loopStep e = { x.setSr (loopNo 1 2) (loopCnt true (x.loopCount 1 - 1)) with pc := x.sr (loopNo 1 0) } := by
  have inner := loopTest_repeats (x := { x with pc := e + 4 }) h1 hc
  rw [Core.loopStep, inner]
  rfl

theorem loopStep_inner_ends (h1 : x.endsBody e 1) (hc : x.loopCount 1 ≤ 1)
    (h0 : ¬ x.endsBody e 0) : x.loopStep e = { x.endLoop 1 with pc := e + 4 } := by
  have inner := loopTest_ends (x := { x with pc := e + 4 }) h1 hc
  have hactive : (x.endLoop 1).loopActive 0 = x.loopActive 0 :=
    congrArg (·.getLsbD 63) (x.sr_endLoop_other (n := 0x102) (lv := 1) (by decide))
  have hend : (x.endLoop 1).sr (loopNo 0 1) = x.sr (loopNo 0 1) := x.sr_endLoop_other (by decide)
  have outer := loopTest_elsewhere (x := { x.endLoop 1 with pc := e + 4 }) (lv := 0) (e := e) 
    (fun ⟨ha, he⟩ => h0 ⟨hactive.symm.trans ha, hend.symm.trans he⟩)
  rw [Core.loopStep, inner]
  exact congrArg Prod.snd outer

theorem loopStep_outer_repeats (h1 : ¬ x.endsBody e 1)
    (h0 : x.endsBody e 0) (hc : 1 < x.loopCount 0) :
    x.loopStep e = { x.setSr (loopNo 0 2) (loopCnt true (x.loopCount 0 - 1)) with pc := x.sr (loopNo 0 0) } := by
  have inner := loopTest_elsewhere (x := { x with pc := e + 4 }) h1
  have outer := loopTest_repeats (x := { x with pc := e + 4 }) h0 hc
  rw [Core.loopStep, inner]
  exact congrArg Prod.snd outer

theorem loopStep_outer_ends (h1 : ¬ x.endsBody e 1)
    (h0 : x.endsBody e 0) (hc : x.loopCount 0 ≤ 1) :
    x.loopStep e = { x.endLoop 0 with pc := e + 4 } := by
  have inner := loopTest_elsewhere (x := { x with pc := e + 4 }) h1
  have outer := loopTest_ends (x := { x with pc := e + 4 }) h0 hc
  rw [Core.loopStep, inner]
  exact congrArg Prod.snd outer

end

/-! ### How a loop starts (R41, R42) -/

/-- A core after LOOP or LOOPI at pc has started a level, whose registers begin at `first`, over the body that ends at `last`. -/
def Core.startLoop (x : Core) (first : Nat) (pc last : W64) (count : Nat) : Core :=
  { ((x.setSr first (pc + 4)).setSr (first + 1) last).setSr (first + 2) (BitVec.ofNat 64 (2 ^ 63 + count)) with pc := pc + 4 }

section
variable {s : State} {k w n count : Nat}

theorem loopBody_length_zero :
    (loopBody k w 0 count).run s = .ok .done (s.updCore k fun x => { x with pc := (s.core k).pc + 4 }) := rfl

theorem loopBody_count_zero (hn : n ≠ 0) :
    (loopBody k w n 0).run s = .ok .done (s.updCore k fun x => { x with pc := (s.core k).pc + w64 (4 * n) + 4 }) := by
  rw [loopBody, run_getC_bind]
  dsimp only
  rw [if_neg hn, if_pos rfl]
  rfl

variable (hn : n ≠ 0) (hc : count ≠ 0)
include hn hc

theorem loopBody_starts_outer (hlt : count < 2 ^ 32) (h0 : (s.core k).loopActive 0 = false) :
    (loopBody k w n count).run s
      = .ok .done (s.updCore k fun x => x.startLoop 0x100 (s.core k).pc ((s.core k).pc + w64 (4 * n)) count) := by
  rw [loopBody, run_getC_bind]
  dsimp only
  rw [if_neg hn, if_neg hc, h0, loopCnt_active hlt]
  rfl

theorem loopBody_starts_inner (hlt : count < 2 ^ 32) (h0 : (s.core k).loopActive 0 = true) (h1 : (s.core k).loopActive 1 = false)
    (hle : ((s.core k).pc + w64 (4 * n)).toNat ≤ ((s.core k).sr 0x101).toNat) :
    (loopBody k w n count).run s
      = .ok .done (s.updCore k fun x => x.startLoop 0x104 (s.core k).pc ((s.core k).pc + w64 (4 * n)) count) := by
  rw [loopBody, run_getC_bind]
  dsimp only
  rw [if_neg hn, if_neg hc, h0, h1, loopCnt_active hlt]
  simp only [Bool.and_false, Bool.false_eq_true, true_and, if_true, if_false]
  rw [if_neg (not_lt.mpr hle : ¬ ((s.core k).sr (loopNo 0 1)).toNat < _)]
  rfl

/-- A third level, and an inner body that ends beyond the outer's END, raise ILLEGAL. -/
theorem loopBody_illegal (h0 : (s.core k).loopActive 0 = true)
    (h : (s.core k).loopActive 1 = true ∨ ((s.core k).sr 0x101).toNat < ((s.core k).pc + w64 (4 * n)).toNat) :
    (loopBody k w n count).run s = .error (.exc (ill w)) s := by
  rw [loopBody, run_getC_bind]
  dsimp only
  rw [if_neg hn, if_neg hc, h0]
  cases h1 : (s.core k).loopActive 1
  · have hout : ((s.core k).sr (loopNo 0 1)).toNat < ((s.core k).pc + w64 (4 * n)).toNat := h.resolve_left (by simp [h1])
    simp only [Bool.and_false, Bool.false_eq_true, true_and, if_true, if_false]
    rw [if_pos hout]
    rfl
  · rfl

end

/-- What LOOP and LOOPI answer with a nonzero count and length; `body` is the body of either. -/
theorem runInstr_loopBody {s : State} {c : CoreId} {w n count : Nat} {body : M Flow} (hr : s.ready c = true)
    (hl : (s.core (coreKey c)).atLoopEnd = false) (hb : body.run s = (loopBody (coreKey c) w n count).run s)
    (hn : n ≠ 0) (hc : count ≠ 0) (hlt : count < 2 ^ 32) :
    let outer := (s.core (coreKey c)).loopActive 0
    let inner := (s.core (coreKey c)).loopActive 1
    let end0 := ((s.core (coreKey c)).sr 0x101).toNat
    let last := pcOf s c + w64 (4 * n)
    (outer = false → runInstr c w true body s = .next (s.updCore (coreKey c) fun x => x.startLoop 0x100 (pcOf s c) last count))
      ∧ (outer = true → inner = false → last.toNat ≤ end0 →
          runInstr c w true body s = .next (s.updCore (coreKey c) fun x => x.startLoop 0x104 (pcOf s c) last count))
      ∧ (outer = true → (inner = true ∨ end0 < last.toNat) →
          runInstr c w true body s = s.takes (coreKey c) (ill w) (pcOf s c)) :=
  ⟨fun h0 => runInstr_done hr hl (hb.trans (loopBody_starts_outer hn hc hlt h0)),
    fun h0 h1 hle => runInstr_done hr hl (hb.trans (loopBody_starts_inner hn hc hlt h0 h1 hle)),
    fun h0 h => runInstr_illegal hr hl (hb.trans (loopBody_illegal hn hc h0 h))⟩

theorem exec_of_notAtEnd {i : Instr} {s : State} {c : CoreId} (h : notAtEnd i = some c) (hr : s.ready c = true)
    (hl : (s.core (coreKey c)).atLoopEnd = true) : exec i s = s.takes (coreKey c) (ill (instrWord i)) (pcOf s c) := by
  unfold notAtEnd at h
  split at h
  case h_8 => contradiction
  all_goals
    cases h
    dsimp only [exec]
    exact runInstr_loopEnd hr hl

end Sys2Proof.Machine

open Sys2Proof Sys2Proof.Machine

/-- Settles O15: LOOP and LOOPI run one body, and the loop test takes the inner level first. -/
theorem loopsRepeatTheirBody : Obligations.LoopsRepeatTheirBody := by
  refine ⟨fun s c a m n hr hl => ?_, fun _ _ _ => exec_of_notAtEnd, fun x e => ?_⟩
  · have hpos : ∀ {j : Nat} {v : BitVec j}, v ≠ 0 → v.toNat ≠ 0 := fun hv h => hv (BitVec.eq_of_toNat_eq h)
    have hlt := Nat.mod_lt ((s.core (coreKey c)).rx a).toNat (show 2 ^ 32 > 0 by decide)
    have hm : m.toNat < 2 ^ 32 := lt_trans m.isLt (by decide)
    intro outer inner end0 last go start bad cnt
    dsimp only [exec]
    refine ⟨?_, fun hn hc => ?_, fun hn hc => ?_, fun hn hc => ?_, fun hn hc => ?_⟩
    · rintro rfl
      exact ⟨runInstr_done hr hl (loopBody_length_zero (w := instrWord (.loop c a 0)) (count := cnt)),
        runInstr_done hr hl (loopBody_length_zero (w := instrWord (.loopi c m 0)) (count := m.toNat))⟩
    · exact runInstr_done hr hl ((run_getC_bind ..).trans
        ((congrArg (fun q => (loopBody _ _ _ q).run s) hc).trans (loopBody_count_zero (hpos hn))))
    · subst hc
      exact runInstr_done hr hl (loopBody_count_zero (hpos hn))
    · exact runInstr_loopBody hr hl (run_getC_bind ..) (hpos hn) hc hlt
    · exact runInstr_loopBody hr hl rfl (hpos hn) (hpos hc) hm
  · refine ⟨fun ⟨h0, h1⟩ => loopStep_elsewhere h0 h1, fun lv hlv h hout hc => ?_, fun lv hlv h hc hout hin => ?_⟩
    · have hlt : x.loopCount lv - 1 < 2 ^ 32 := (Nat.sub_le ..).trans_lt (x.loopCount_lt lv)
      obtain ⟨hactive, hcount⟩ := Core.loop_started (x := x.setSr (loopNo lv 2) (loopCnt true (x.loopCount lv - 1))) hlt
        (x.sr_setSr_same ..)
      obtain rfl | rfl : lv = 0 ∨ lv = 1 := by omega
      · rw [loopStep_outer_repeats (hout rfl) h hc]
        exact ⟨rfl, hcount, hactive⟩
      · rw [loopStep_inner_repeats h hc]
        exact ⟨rfl, hcount, hactive⟩
    · have hended := (Core.loop_ended (x := x.endLoop lv) (x.sr_endLoop_same lv)).1
      obtain rfl | rfl : lv = 0 ∨ lv = 1 := by omega
      · rw [loopStep_outer_ends (hin rfl) h hc]
        exact ⟨rfl, hended⟩
      · rw [loopStep_inner_ends h hc (hout rfl)]
        exact ⟨rfl, hended⟩
end

section
/-! SUPPORT. SEND (R54 to R57). -/

namespace Sys2Proof.Machine
open Sys2Proof Sys2Proof.Claims

/-- A field of a word is its quotient by the field's place, modulo the field's size. -/
theorem bitsOf_eq_div_mod (w hi lo : Nat) : bitsOf w hi lo = w / 2 ^ lo % 2 ^ (hi + 1 - lo) := by
  rw [bitsOf, Nat.shiftRight_eq_div_pow]

section
variable {s : State} {c : CoreId} {w n : Nat} {body : M Flow} (hr : s.ready c = true)
include hr

/-- A body that raises PRIVILEGE with its word, before it has changed anything. -/
theorem runInstr_privilege (hb : body.run s = .error (.exc (priv n)) s) :
    runInstr c w false body s = s.takes (coreKey c) (priv n) (pcOf s c) :=
  runInstr_exc hr rfl hb (by simp [priv]) (calm_mchk (ready_calm hr))

end

/-- The message of SEND, from the fields of its destination word (R55). -/
theorem sentMessage_eq (s : State) (c : CoreId) (a b : Reg) (len : BitVec 4) :
    sentMessage s c a b len =
      { tag := BitVec.ofNat 16 (bitsOf ((s.core (coreKey c)).rx a).toNat 63 48), epoch := (s.core (coreKey c)).epoch
        src := s.lcoreOf (coreKey c), mbx := bitsOf ((s.core (coreKey c)).rx a).toNat 12 9
        dst := bitsOf ((s.core (coreKey c)).rx a).toNat 8 0, payload := (s.core (coreKey c)).regsFrom b.toNat len.toNat
        engine := none } := by
  have htag : BitVec.ofNat 16 (((s.core (coreKey c)).rx a).toNat / 2 ^ 48 % 2 ^ 16)
      = BitVec.ofNat 16 (((s.core (coreKey c)).rx a).toNat / 2 ^ 48) := BitVec.eq_of_toNat_eq (by simp)
  simp only [sentMessage, bitsOf_eq_div_mod, Core.regsFrom, rangeFrom, List.map_map, htag, pow_zero, Nat.div_one]
  rfl

/-- The encodings of SEND that do not raise ILLEGAL (R29, R54, R55). -/
abbrev sendFits (c : CoreId) (b : Reg) (len : BitVec 4) : Prop :=
  isCompute (coreKey c) = true ∧ len.toNat ≤ 8 ∧ b.toNat + len.toNat ≤ 32

/-- The level may send to the mailbox (R54). -/
abbrev Core.maySend (x : Core) (a : Reg) : Prop := (x.rx a).toNat / 2 ^ 9 % 16 < 14 ∨ x.level = .m

theorem sendFits_check (c : CoreId) (b : Reg) (len : BitVec 4) :
    (!isCompute (coreKey c) || decide (8 < len.toNat) || decide (32 < b.toNat + len.toNat)) = true ↔ ¬ sendFits c b len := by
  simp only [Bool.or_eq_true, Bool.not_eq_true', decide_eq_true_eq, ← Bool.not_eq_true, ← not_le, sendFits]
  tauto

theorem maySend_check (x : Core) (a : Reg) : (14 ≤ bitsOf (x.rx a).toNat 12 9 ∧ x.level ≠ .m) ↔ ¬ x.maySend a := by
  rw [bitsOf_eq_div_mod, Core.maySend, not_or, not_lt]
  exact Iff.rfl

section
variable {s : State} {c : CoreId} {a b : Reg} {len : BitVec 4} (hr : s.ready c = true)
include hr

theorem execSend_illegal (hfits : ¬ sendFits c b len) :
    execSend c a b len s = s.takes (coreKey c) (ill (instrWord (.send c a b len))) (pcOf s c) := by
  refine runInstr_illegal hr rfl ?_
  rw [run_getC_bind, if_pos ((sendFits_check c b len).mpr hfits)]
  rfl

theorem execSend_privilege (hfits : sendFits c b len) (hmay : ¬ (s.core (coreKey c)).maySend a) :
    execSend c a b len s = s.takes (coreKey c) (priv (instrWord (.send c a b len))) (pcOf s c) := by
  refine runInstr_privilege hr ?_
  rw [run_getC_bind, if_neg (mt (sendFits_check c b len).mp (not_not.mpr hfits)), if_pos ((maySend_check _ a).mpr hmay)]
  rfl

theorem execSend_stall (hfits : sendFits c b len) (hmay : (s.core (coreKey c)).maySend a)
    (hfull : 8 ≤ (s.core (coreKey c)).outq.length) : execSend c a b len s = .next s := by
  refine runInstr_stall hr rfl ?_
  rw [run_getC_bind, if_neg (mt (sendFits_check c b len).mp (not_not.mpr hfits)),
    if_neg (mt (maySend_check _ a).mp (not_not.mpr hmay)), if_pos hfull]
  rfl

theorem execSend_next (hfits : sendFits c b len) (hmay : (s.core (coreKey c)).maySend a)
    (hroom : (s.core (coreKey c)).outq.length < 8) :
    execSend c a b len s
      = .next ((s.updCore (coreKey c) fun y => { y with outq := y.outq ++ [{ msg := sentMessage s c a b len }] }).retire
          (coreKey c) (pcOf s c)) := by
  refine runInstr_next hr rfl ?_
  rw [run_getC_bind, if_neg (mt (sendFits_check c b len).mp (not_not.mpr hfits)),
    if_neg (mt (maySend_check _ a).mp (not_not.mpr hmay)), if_neg (not_le.mpr hroom), run_get_bind, sentMessage_eq]
  rfl

end

end Sys2Proof.Machine

open Sys2Proof Sys2Proof.Machine

/-- Settles O19: the checks of SEND come one after another, and its message is the one that the registers give. -/
theorem sendQueuesMessage : Obligations.SendQueuesMessage := by
  intro s c a b len hr k x w fits may
  dsimp only [exec]
  exact ⟨execSend_next hr, execSend_stall hr, execSend_illegal hr, execSend_privilege hr⟩
end

section
/-! SUPPORT. RECV and RECV.NB: their checks (R29, R54, R56). -/

namespace Sys2Proof.Machine
open Sys2Proof Sys2Proof.Claims

/-- The encodings of RECV and RECV.NB that do not raise ILLEGAL (R29, R56). -/
abbrev recvFits (c : CoreId) (d : Reg) : Prop := isCompute (coreKey c) = true ∧ d ≠ 0 ∧ d.toNat ≤ 23

theorem recvFits_check (c : CoreId) (d : Reg) :
    (!isCompute (coreKey c) || d == 0 || decide (23 < d.toNat)) = true ↔ ¬ recvFits c d := by
  simp only [Bool.or_eq_true, Bool.not_eq_true', beq_iff_eq, decide_eq_true_eq, ← Bool.not_eq_true, ← not_le, recvFits]
  tauto

section
variable {s : State} {c : CoreId} {d : Reg} {mbx : BitVec 4} {w : Nat}

theorem recvChecks_illegal (hfits : ¬ recvFits c d) :
    (recvChecks (coreKey c) (BitVec.ofNat 32 w) d mbx).run s = .error (.exc (ill w)) s := by
  rw [recvChecks, run_getC_bind, if_pos ((recvFits_check c d).mpr hfits)]
  rfl

theorem recvChecks_privilege (hfits : recvFits c d) (hbelow : (s.core (coreKey c)).level.code < mbxLevel mbx.toNat) :
    (recvChecks (coreKey c) (BitVec.ofNat 32 w) d mbx).run s = .error (.exc (priv w)) s := by
  rw [recvChecks, run_getC_bind, if_neg (mt (recvFits_check c d).mp (not_not.mpr hfits)), if_pos hbelow]
  rfl

theorem recvChecks_pass (hfits : recvFits c d) (hmay : mbxLevel mbx.toNat ≤ (s.core (coreKey c)).level.code) :
    (recvChecks (coreKey c) (BitVec.ofNat 32 w) d mbx).run s = .ok () s := by
  rw [recvChecks, run_getC_bind, if_neg (mt (recvFits_check c d).mp (not_not.mpr hfits)), if_neg (not_lt.mpr hmay)]
  rfl

theorem execRecv_illegal (hr : s.ready c = true) (hfits : ¬ recvFits c d) :
    execRecv c d mbx s = s.takes (coreKey c) (ill (instrWord (.recv c d mbx))) (pcOf s c) :=
  runInstr_illegal hr rfl (run_bind_error (recvChecks_illegal hfits))

theorem execRecvNb_illegal (hr : s.ready c = true) (hfits : ¬ recvFits c d) :
    execRecvNb c d mbx s = s.takes (coreKey c) (ill (instrWord (.recvNb c d mbx))) (pcOf s c) :=
  runInstr_illegal hr rfl (run_bind_error (recvChecks_illegal hfits))

theorem execRecv_privilege (hr : s.ready c = true) (hfits : recvFits c d)
    (hbelow : (s.core (coreKey c)).level.code < mbxLevel mbx.toNat) :
    execRecv c d mbx s = s.takes (coreKey c) (priv (instrWord (.recv c d mbx))) (pcOf s c) :=
  runInstr_privilege hr (run_bind_error (recvChecks_privilege hfits hbelow))

theorem execRecvNb_privilege (hr : s.ready c = true) (hfits : recvFits c d)
    (hbelow : (s.core (coreKey c)).level.code < mbxLevel mbx.toNat) :
    execRecvNb c d mbx s = s.takes (coreKey c) (priv (instrWord (.recvNb c d mbx))) (pcOf s c) :=
  runInstr_privilege hr (run_bind_error (recvChecks_privilege hfits hbelow))

end

end Sys2Proof.Machine
end

section
/-! SUPPORT. The cores that the engine instructions need (R29). -/

namespace Sys2Proof.Machine
open Sys2Proof Sys2Proof.Claims

theorem needCompute_elsewhere {k : Nat} (hk : isCompute k = false) (w : Nat) (s : State) :
    (needCompute k w).run s = .error (.exc (ill w)) s := by
  rw [needCompute, hk]
  rfl

theorem needVector_elsewhere {k : Nat} (hk : hasVector k = false) (w : Nat) (s : State) :
    (needVector k w).run s = .error (.exc (ill w)) s := by
  rw [needVector, hk]
  rfl

section
variable {s : State} {c : CoreId} {w : Nat} (hr : s.ready c = true)
include hr

/-- What begins with the check of its core raises ILLEGAL where the check fails, whatever follows. -/
theorem runInstr_needCompute (hk : isCompute (coreKey c) = false) (rest : Unit → M Flow) :
    runInstr c w false (needCompute (coreKey c) w >>= rest) s = s.takes (coreKey c) (ill w) (pcOf s c) :=
  runInstr_illegal hr rfl (run_bind_error (needCompute_elsewhere hk w s))

theorem runInstr_needVector (hk : hasVector (coreKey c) = false) (rest : Unit → M Flow) :
    runInstr c w false (needVector (coreKey c) w >>= rest) s = s.takes (coreKey c) (ill w) (pcOf s c) :=
  runInstr_illegal hr rfl (run_bind_error (needVector_elsewhere hk w s))

/-- The control of a stream unit checks the core before the unit's level. -/
theorem runInstr_unitLevel (hk : isCompute (coreKey c) = false) (i : Nat) (rest : Unit → M Flow) :
    runInstr c w false (unitLevel (coreKey c) w i >>= rest) s = s.takes (coreKey c) (ill w) (pcOf s c) :=
  runInstr_illegal hr rfl (run_bind_error (run_bind_error (needCompute_elsewhere hk w s)))

end

/-- Majors 0x38 to 0x3E and 0x2D off the compute cores: each checks its core first. -/
theorem exec_of_computeOnly {i : Instr} {s : State} {c : CoreId} (h : computeOnly i = some c) (hr : s.ready c = true)
    (hk : isCompute (coreKey c) = false) : exec i s = s.takes (coreKey c) (ill (instrWord i)) (pcOf s c) := by
  unfold computeOnly at h
  split at h
  case h_28 => contradiction
  all_goals
    cases h
    dsimp only [exec]
  case h_7 => exact runInstr_unitLevel hr hk _ _ -- SCRED
  case h_8 => exact runInstr_unitLevel hr hk _ _ -- SRESUME
  case h_9 => exact runInstr_unitLevel hr hk _ _ -- SSTOP
  case h_10 => exact runInstr_unitLevel hr hk _ _ -- SCANCEL
  case h_25 => exact execSend_illegal hr fun hfits => Bool.false_ne_true (hk.symm.trans hfits.1) -- SEND
  case h_26 => exact execRecv_illegal hr fun hfits => Bool.false_ne_true (hk.symm.trans hfits.1) -- RECV
  case h_27 => exact execRecvNb_illegal hr fun hfits => Bool.false_ne_true (hk.symm.trans hfits.1) -- RECV.NB
  all_goals exact runInstr_needCompute hr hk _

/-- The resumable forms of majors 0x30 to 0x36 where there is no vector engine. -/
theorem exec_of_vecRow {i : Instr} {s : State} {r : VecRow} (h : vecRow i = some r) (hr : s.ready r.core = true)
    (hk : hasVector (coreKey r.core) = false) : exec i s = s.takes (coreKey r.core) (ill (instrWord i)) (pcOf s r.core) := by
  unfold vecRow at h
  split at h
  case h_64 => contradiction
  all_goals
    cases h
    dsimp only [exec]
    exact runInstr_needVector hr hk _

/-- Majors 0x30 to 0x36 there: each checks its core first. -/
theorem exec_of_vectorOnly {i : Instr} {s : State} {c : CoreId} (h : vectorOnly i = some c) (hr : s.ready c = true)
    (hk : hasVector (coreKey c) = false) : exec i s = s.takes (coreKey c) (ill (instrWord i)) (pcOf s c) := by
  unfold vectorOnly at h
  split at h
  case h_7 =>
    obtain ⟨r, hrow, rfl⟩ := Option.map_eq_some_iff.mp h
    exact exec_of_vecRow hrow hr hk
  all_goals
    cases h
    dsimp only [exec]
    exact runInstr_needVector hr hk _

end Sys2Proof.Machine

open Sys2Proof Sys2Proof.Machine

/-- Settles O31: in every form the check of the core comes before anything else. -/
theorem engineInstructionsNeedTheirCore : Obligations.EngineInstructionsNeedTheirCore := by
  rintro i s c hr (⟨hi, hk⟩ | ⟨hi, hk⟩)
  · exact exec_of_computeOnly hi hr hk
  · exact exec_of_vectorOnly hi hr hk
end

section
/-! SUPPORT. Messages as a core takes them from its mailboxes, and RECV and RECV.NB (R54, R56, R58, R300). -/

namespace Sys2Proof.Machine
open Sys2Proof Sys2Proof.Claims

/-! ### What a packet's way through the mesh leaves alone -/

/-- A packet that enters the mesh changes the dies alone. -/
theorem postAt_frame (s : State) (cls : Nat) (r : List Nat) : ∃ d, s.postAt cls r = { s with dies := d } := by
  cases r with
  | nil => exact ⟨s.dies, rfl⟩
  | cons h rest =>
    unfold State.postAt
    dsimp only
    split_ifs <;> exact ⟨_, rfl⟩

theorem postBack_frame (s : State) (k : Nat) (engine : Option Nat) (src : Nat) :
    ∃ d, s.postBack k engine src = { s with dies := d } := by
  unfold State.postBack
  dsimp only
  split_ifs
  · exact ⟨s.dies, rfl⟩
  · exact postAt_frame ..

@[simp] theorem postBack_cores (s : State) (k : Nat) (engine : Option Nat) (src : Nat) :
    (s.postBack k engine src).cores = s.cores := by
  obtain ⟨d, h⟩ := postBack_frame s k engine src
  rw [h]

@[simp] theorem postBack_dram (s : State) (k : Nat) (engine : Option Nat) (src : Nat) :
    (s.postBack k engine src).dram = s.dram := by
  obtain ⟨d, h⟩ := postBack_frame s k engine src
  rw [h]

theorem core_congr {s t : State} (h : t.cores = s.cores) (k : Nat) : t.core k = s.core k := by
  rw [State.core, h]
  rfl

/-- The oldest waiter of a mailbox moves from the wait list to the reservations (R300). -/
def Core.wakeWaiter (c : Core) (w : Waiter) : Core := { c with waitlist := c.waitlist.erase w, reserved := c.reserved ++ [w] }

/-- A WAKE changes of its core the wait list and the reservations, and nothing in DRAM (R300). -/
theorem wakeOldest_frame (s : State) (k m : Nat) :
    (∃ wl rs, (s.wakeOldest k m).core k = { s.core k with waitlist := wl, reserved := rs }) ∧ (s.wakeOldest k m).dram = s.dram := by
  unfold State.wakeOldest
  split
  · exact ⟨⟨_, _, rfl⟩, rfl⟩
  · next w _ =>
    have hcore : (s.updCore k (Core.wakeWaiter · w)).core k = (s.core k).wakeWaiter w := s.core_updCore_same k _
    refine ⟨⟨_, _, (core_congr (s := s.updCore k (Core.wakeWaiter · w)) ?_ k).trans hcore⟩, postBack_dram ..⟩
    exact postBack_cores ..

/-- Taking a message changes of its core the mailbox, the wait list and the reservations, and nothing in DRAM (R58, R300). -/
theorem takeMessage_frame {s : State} {k m : Nat} {g : Msg} {rest : List Msg} (h : (s.core k).mail m = g :: rest) :
    ∃ t wl rs, s.takeMessage k m = (some g, t) ∧ t.core k = { (s.core k).setMail m rest with waitlist := wl, reserved := rs }
      ∧ t.dram = s.dram := by
  obtain ⟨⟨wl, rs, hcore⟩, hdram⟩ := wakeOldest_frame (s.updCore k fun c => c.setMail m rest) k m
  rw [State.core_updCore_same] at hcore
  exact ⟨_, wl, rs, by rw [State.takeMessage, h], hcore, hdram⟩

theorem takeMessage_empty {s : State} {k m : Nat} (h : (s.core k).mail m = []) : s.takeMessage k m = (none, s) := by
  rw [State.takeMessage, h]

/-! ### The registers that a message is written to (R56, R58) -/

/-- Values written to consecutive x registers, none of them x0. -/
theorem Core.rx_writes (c : Core) (v : Nat → W64) (a n : Nat) (ha : 0 < a) (hn : a + n ≤ 32) (r : Reg) :
    ((List.range n).foldl (fun c i => c.wx (BitVec.ofNat 5 (a + i)) (v i)) c).rx r
      = if a ≤ r.toNat ∧ r.toNat < a + n then v (r.toNat - a) else c.rx r := by
  induction n with
  | zero => rw [if_neg (by omega)]; rfl
  | succ n ih =>
    have hreg : (BitVec.ofNat 5 (a + n)).toNat = a + n := Nat.mod_eq_of_lt (by omega)
    rw [List.range_succ, List.foldl_append, List.foldl_cons, List.foldl_nil]
    by_cases hr : r.toNat = a + n
    · obtain rfl : r = BitVec.ofNat 5 (a + n) := BitVec.eq_of_toNat_eq (hr.trans hreg.symm)
      have h0 : BitVec.ofNat 5 (a + n) ≠ 0 := fun h => by simp [h] at hreg; omega
      rw [Core.rx_wx_same _ h0, if_pos (by omega), hreg, Nat.add_sub_cancel_left]
    · rw [Core.rx_wx_other _ (fun h => hr ((congrArg BitVec.toNat h).trans hreg)), ih (by omega)]
      exact if_congr (by omega) rfl rfl

/-- A received message's header is in x[d], its payload in the registers after it, and the others are as they were (R56, R58). -/
theorem Core.rx_receive (c : Core) {d : Reg} {g : Msg} (hfit : d.toNat + 1 + g.payload.length ≤ 32) (r : Reg) :
    (c.receive d.toNat g).rx r = if d.toNat + 1 ≤ r.toNat ∧ r.toNat < d.toNat + 1 + g.payload.length
      then g.payload.getD (r.toNat - (d.toNat + 1)) 0 else (c.wx d g.header).rx r := by
  rw [Core.receive, Core.rx_writes _ (g.payload.getD · 0) _ _ (by omega) hfit, BitVec.ofNat_toNat, BitVec.setWidth_eq]

theorem wx_frame (c : Core) (r : Reg) (v : W64) : ∃ y, c.wx r v = { c with x := y } := by
  unfold Core.wx
  split_ifs
  · exact ⟨c.x, rfl⟩
  · exact ⟨_, rfl⟩

/-- Receiving a message writes x registers alone. -/
theorem receive_frame (c : Core) (d : Nat) (g : Msg) : ∃ y, c.receive d g = { c with x := y } := by
  unfold Core.receive
  refine List.foldlRecOn (motive := fun x => ∃ y, x = { c with x := y }) _ _ (wx_frame ..) ?_
  rintro _ ⟨y, rfl⟩ i _
  exact wx_frame { c with x := y } ..

/-! ### RECV and RECV.NB past their checks -/

theorem ready_wait {s : State} {c : CoreId} (h : s.ready c = true) : (s.core (coreKey c)).wait = .none := by
  simp only [State.ready, Bool.and_eq_true, beq_iff_eq] at h
  exact h.1.2

theorem run_modifyGet_bind {α β : Type} (g : State → α × State) (f : α → M β) (s : State) :
    ((modifyGet g : M α) >>= f).run s = (f (g s).1).run (g s).2 := rfl

/-- A core that holds what `received` says of its registers, its mailboxes, its wait and DRAM. -/
theorem received_of_parts {s t : State} {c : CoreId} {d : Reg} {m : Nat} {g : Msg} {rest : List Msg} (hd : d ≠ 0)
    (hd23 : d.toNat ≤ 23) (hlen : g.payload.length ≤ 8) (hsrc : g.src < 512)
    (hx : ∀ r, (t.core (coreKey c)).rx r = ((s.core (coreKey c)).receive d.toNat g).rx r)
    (hmail : (t.core (coreKey c)).mail m = rest) (hwait : (t.core (coreKey c)).wait = .none)
    (hf : (t.core (coreKey c)).f = (s.core (coreKey c)).f) (hdram : t.dram = s.dram) : received s t c d m g rest := by
  have hfit : d.toNat + 1 + g.payload.length ≤ 32 := by omega
  refine ⟨?_, fun i hi => ?_, fun r hr => ?_, hmail, hwait, hf, hdram⟩
  · rw [hx, Core.rx_receive _ hfit, if_neg (by omega), Core.rx_wx_same _ hd, Msg.header, headerWord,
      Nat.mod_eq_of_lt (by omega : g.payload.length < 16), Nat.mod_eq_of_lt hsrc]
    rfl
  · have hreg : (BitVec.ofNat 5 (d.toNat + 1 + i)).toNat = d.toNat + 1 + i := Nat.mod_eq_of_lt (by omega)
    rw [hx, Core.rx_receive _ hfit, hreg, if_pos (by omega), Nat.add_sub_cancel_left]
  · rw [hx, Core.rx_receive _ hfit, if_neg (by omega), Core.rx_wx_other _ (fun h => by subst h; omega)]

theorem rx_receive_congr {x y : Core} (h : ∀ r, x.rx r = y.rx r) {d : Reg} (hd : d ≠ 0) {g : Msg}
    (hfit : d.toNat + 1 + g.payload.length ≤ 32) (r : Reg) : (x.receive d.toNat g).rx r = (y.receive d.toNat g).rx r := by
  have hwx : (x.wx d g.header).rx r = (y.wx d g.header).rx r := by
    by_cases hr : r = d
    · rw [hr, Core.rx_wx_same _ hd, Core.rx_wx_same _ hd]
    · rw [Core.rx_wx_other _ hr, Core.rx_wx_other _ hr, h]
  rw [Core.rx_receive _ hfit, Core.rx_receive _ hfit, hwx]

/-- What RECV and RECV.NB leave once they have taken a message: `f` is what each does to its core, apart from the receiving nothing
but the end of a wait. -/
theorem received_of_takes {s u : State} {c : CoreId} {d : Reg} {m : Nat} {g : Msg} {rest : List Msg} {f : Core → Core} {wl rs : List Waiter}
    (hd : d ≠ 0) (hd23 : d.toNat ≤ 23) (hlen : g.payload.length ≤ 8) (hsrc : g.src < 512)
    (hu : u.core (coreKey c) = { (s.core (coreKey c)).setMail m rest with waitlist := wl, reserved := rs }) (hdram : u.dram = s.dram)
    (hf : f (u.core (coreKey c)) = { (u.core (coreKey c)).receive d.toNat g with wait := .none }) (pc : W64) :
    received s ((u.updCore (coreKey c) f).retire (coreKey c) pc) c d m g rest := by
  obtain ⟨x, hx⟩ := receive_frame (u.core (coreKey c)) d.toNat g
  obtain ⟨p, y, hstep⟩ := loopStep_frame (f (u.core (coreKey c))) pc
  have hcore : ((u.updCore (coreKey c) f).retire (coreKey c) pc).core (coreKey c) = (f (u.core (coreKey c))).loopStep pc := by
    rw [State.core_retire_same, State.core_updCore_same]
  refine received_of_parts hd hd23 hlen hsrc (fun r => ?_) ?_ ?_ ?_ hdram <;> rw [hcore]
  · rw [loopStep_rx, hf]
    exact rx_receive_congr (fun r => by rw [hu]; rfl) hd (by omega) r
  · rw [hstep, hf, hx, hu]
    exact SMap.get_set_same ..
  · rw [hstep, hf]
  · rw [hstep, hf, hx, hu]
    rfl

section
variable {s : State} {c : CoreId} {d : Reg} {mbx : BitVec 4} (hr : s.ready c = true) (hfits : recvFits c d)
  (hmay : mbxLevel mbx.toNat ≤ (s.core (coreKey c)).level.code)
include hr hfits hmay

theorem execRecv_empty (h : (s.core (coreKey c)).mail mbx.toNat = []) :
    execRecv c d mbx s = .next (s.updCore (coreKey c) fun x => { x with wait := .recv d mbx }) := by
  refine runInstr_stall hr rfl ?_
  rw [recvBody, run_bind_ok (recvChecks_pass hfits hmay), run_modifyGet_bind, takeMessage_empty h]
  rfl

theorem execRecvNb_empty (h : (s.core (coreKey c)).mail mbx.toNat = []) :
    execRecvNb c d mbx s = .next ((s.updCore (coreKey c) fun x => x.wx d 0).retire (coreKey c) (pcOf s c)) := by
  refine runInstr_next hr rfl ?_
  rw [run_bind_ok (recvChecks_pass hfits hmay), run_modifyGet_bind, takeMessage_empty h]
  rfl

theorem execRecv_takes {g : Msg} {t : State} (h : s.takeMessage (coreKey c) mbx.toNat = (some g, t)) :
    execRecv c d mbx s
      = .next ((t.updCore (coreKey c) fun x => { x.receive d.toNat g with wait := .none }).retire (coreKey c) (pcOf s c)) := by
  refine runInstr_next hr rfl ?_
  rw [recvBody, run_bind_ok (recvChecks_pass hfits hmay), run_modifyGet_bind, h]
  rfl

theorem execRecvNb_takes {g : Msg} {t : State} (h : s.takeMessage (coreKey c) mbx.toNat = (some g, t)) :
    execRecvNb c d mbx s = .next ((t.updCore (coreKey c) fun x => x.receive d.toNat g).retire (coreKey c) (pcOf s c)) := by
  refine runInstr_next hr rfl ?_
  rw [run_bind_ok (recvChecks_pass hfits hmay), run_modifyGet_bind, h]
  rfl

variable {g : Msg} {rest : List Msg} (hm : (s.core (coreKey c)).mail mbx.toNat = g :: rest) (hlen : g.payload.length ≤ 8)
  (hsrc : g.src < 512)
include hm hlen hsrc

theorem execRecv_receives : ∃ t, execRecv c d mbx s = .next t ∧ received s t c d mbx.toNat g rest := by
  obtain ⟨u, wl, rs, htake, hu, hdram⟩ := takeMessage_frame hm
  exact ⟨_, execRecv_takes hr hfits hmay htake, received_of_takes hfits.2.1 hfits.2.2 hlen hsrc hu hdram rfl _⟩

theorem execRecvNb_receives : ∃ t, execRecvNb c d mbx s = .next t ∧ received s t c d mbx.toNat g rest := by
  obtain ⟨u, wl, rs, htake, hu, hdram⟩ := takeMessage_frame hm
  have hwait : (u.core (coreKey c)).wait = .none := by
    rw [hu]
    exact ready_wait hr
  obtain ⟨x, hx⟩ := receive_frame (u.core (coreKey c)) d.toNat g
  refine ⟨_, execRecvNb_takes hr hfits hmay htake, received_of_takes hfits.2.1 hfits.2.2 hlen hsrc hu hdram ?_ _⟩
  rw [hx, ← hwait]

end

/-! ### The end of a wait -/

/-- A core that does not wait. -/
def Core.awake (x : Core) : Core := { x with wait := .none }

theorem ready_issuing {s : State} {c : CoreId} (h : s.ready c = true) : s.issuing (coreKey c) = true := by
  simp only [State.ready, Bool.and_eq_true] at h
  exact h.1.1

/-- Whether a core issues does not depend on its wait. -/
theorem issuing_awake (s : State) (k : Nat) : (s.updCore k Core.awake).issuing k = s.issuing k := by
  simp only [State.issuing, State.core_updCore_same]
  rfl

/-- A waiting RECV whose mailbox has a message is the RECV run again on its core, which no longer waits (R58). -/
theorem execRecvComplete_eq {s : State} {c : CoreId} {d : Reg} {mbx : BitVec 4} {g : Msg} {rest : List Msg}
    (hw : (s.core (coreKey c)).wait = .recv d mbx) (hm : (s.core (coreKey c)).mail mbx.toNat = g :: rest)
    (hr : (s.updCore (coreKey c) Core.awake).ready c = true) :
    execRecvComplete c s = execRecv c d mbx (s.updCore (coreKey c) Core.awake) := by
  have hi : s.issuing (coreKey c) = true := (issuing_awake ..).symm.trans (ready_issuing hr)
  rw [execRecvComplete]
  simp only [hw, hm, hi, List.isEmpty_cons, Bool.not_false, Bool.and_self, if_true]
  rfl

/-- What is received does not depend on the wait that ended. -/
theorem received_of_awake {s t : State} {c : CoreId} {d : Reg} {m : Nat} {g : Msg} {rest : List Msg}
    (h : received (s.updCore (coreKey c) Core.awake) t c d m g rest) : received s t c d m g rest := by
  simp only [received, State.core_updCore_same] at h
  exact h

theorem level_below_mbxLevel {l : Level} {m : Nat} (h : (12 ≤ m ∧ l = .u) ∨ (14 ≤ m ∧ l = .s)) : l.code < mbxLevel m := by
  unfold mbxLevel
  obtain ⟨hm, rfl⟩ | ⟨hm, rfl⟩ := h
  · rw [if_neg (by omega)]
    split_ifs <;> decide
  · rw [if_neg (by omega), if_neg (by omega)]
    decide

end Sys2Proof.Machine

open Sys2Proof Sys2Proof.Machine Sys2Proof.Claims

/-- Settles O20: the checks come first, the message is the oldest one, and a wait's end runs the RECV again. -/
theorem receiveOldestMessage : Obligations.ReceiveOldestMessage := by
  refine ⟨fun s c d mbx hk hd hd23 hmay => ⟨fun hr => ⟨fun g rest hm hlen hsrc => ?_, fun hm => ?_⟩, fun g rest hw hm hlen hsrc hr => ?_⟩,
    fun s c d mbx hr => ⟨fun hfits => ?_, fun hfits hbelow => ?_⟩⟩
  all_goals dsimp only [exec]
  · exact ⟨execRecv_receives hr ⟨hk, hd, hd23⟩ hmay hm hlen hsrc, execRecvNb_receives hr ⟨hk, hd, hd23⟩ hmay hm hlen hsrc⟩
  · exact ⟨execRecv_empty hr ⟨hk, hd, hd23⟩ hmay hm, execRecvNb_empty hr ⟨hk, hd, hd23⟩ hmay hm⟩
  · have hcore : (s.updCore (coreKey c) Core.awake).core (coreKey c) = (s.core (coreKey c)).awake := s.core_updCore_same ..
    have hr : (s.updCore (coreKey c) Core.awake).ready c = true := hr
    obtain ⟨t, ht, hreceived⟩ := execRecv_receives hr ⟨hk, hd, hd23⟩ (hmay.trans_eq (congrArg (·.level.code) hcore.symm))
      ((congrArg (Core.mail · mbx.toNat) hcore).trans hm) hlen hsrc
    exact ⟨t, (execRecvComplete_eq hw hm hr).trans ht, received_of_awake hreceived⟩
  · exact ⟨execRecv_illegal hr hfits, execRecvNb_illegal hr hfits⟩
  · have hlevel := level_below_mbxLevel hbelow
    exact ⟨execRecv_privilege hr hfits hlevel, execRecvNb_privilege hr hfits hlevel⟩
end

section
/-! SUPPORT. The outbound queue of a core: its launch, and what comes back to it (R57, R299, R300). -/

namespace Sys2Proof.Machine
open Sys2Proof Sys2Proof.Claims

/-! ### The queue -/

/-- The oldest message of a queue may leave as soon as it waits to. -/
theorem firstLaunch_oldest {e : OutMsg} (rest : List OutMsg) (he : e.st = .queued) : firstLaunch (e :: rest) = some 0 := by
  rw [firstLaunch, List.length_cons, List.range_succ_eq_map, List.find?_cons_of_pos]
  simp [he]

theorem findInFlight_oldest (g : Msg) (rest : List OutMsg) : findInFlight ({ msg := g, st := .inFlight } :: rest) g = some 0 := by
  simp [findInFlight, List.findIdx?_cons]

/-- A message that enters the mesh is on the wire; the dies carry it, and nothing else changes (R289, R299). -/
theorem putOnWire_frame (s : State) (g : Msg) : ∃ d, s.putOnWire g = { s with wireMsgs := s.wireMsgs ++ [g], dies := d } := by
  unfold State.putOnWire
  dsimp only
  split_ifs
  · exact ⟨s.dies, rfl⟩
  · exact postAt_frame ..

@[simp] theorem putOnWire_cores (s : State) (g : Msg) : (s.putOnWire g).cores = s.cores := by
  obtain ⟨d, h⟩ := putOnWire_frame s g
  rw [h]

@[simp] theorem putOnWire_wireMsgs (s : State) (g : Msg) : (s.putOnWire g).wireMsgs = s.wireMsgs ++ [g] := by
  obtain ⟨d, h⟩ := putOnWire_frame s g
  rw [h]

@[simp] theorem putOnWire_dram (s : State) (g : Msg) : (s.putOnWire g).dram = s.dram := by
  obtain ⟨d, h⟩ := putOnWire_frame s g
  rw [h]

/-- A core with another outbound queue. -/
def Core.setOutq (x : Core) (q : List OutMsg) : Core := { x with outq := q }

theorem execMessageLaunch_oldest {s : State} {c : CoreId} {e : OutMsg} {rest : List OutMsg} (hk : isCompute (coreKey c) = true)
    (hp : s.corePowered (coreKey c) = true) (hq : (s.core (coreKey c)).outq = e :: rest) (he : e.st = .queued) :
    execMessageLaunch c s
      = .next ((s.updCore (coreKey c) (Core.setOutq · ({ e with st := .inFlight } :: rest))).putOnWire e.msg) := by
  rw [execMessageLaunch]
  simp only [hk, hp, hq, firstLaunch_oldest rest he, Bool.and_self, if_true]
  rfl

/-! ### The way back -/

/-- Where no causeway on the way is down, messages get through (R293). -/
theorem pathUp_of_linked {s : State} {a b : Nat} (h : linked s a b) : s.pathUp a b = true := by
  rw [State.pathUp, List.all_eq_true]
  intro cw hcw
  rw [List.all_eq_true.mp h cw hcw, Bool.true_or]

/-- What an answer does to the core whose oldest message it is for (R299). -/
def Core.answered (x : Core) (g : Msg) (rest : List OutMsg) : Answer → Core
  | .accept => x.setOutq rest
  | .discard => (x.setOutq rest).setSr mbxstatNo (x.sr mbxstatNo ||| 0x10000)
  | .refuse => x.setOutq ({ msg := g, st := .refused } :: rest)
  | .refuseFull => x.setOutq ({ msg := g, st := .refusedFull } :: rest)

theorem Core.answered_discard_stat (x : Core) (g : Msg) (rest : List OutMsg) :
    ((x.answered g rest .discard).sr mbxstatNo).getLsbD 16 = true := by
  rw [Core.answered, Core.sr_setSr_same, BitVec.getLsbD_or, Bool.or_eq_true]
  exact .inr (by decide)

theorem execAckArrival_oldest {s : State} {i : Nat} {g : Msg} {ans : Answer} {rest : List OutMsg}
    (hack : s.wireAcks[i]? = some { msg := g, ans := ans }) (heng : g.engine = none) (hlink : linked s (g.dst / 128) (s.srcDie g))
    (hq : (s.core (s.keyOfLcore g.src)).outq = { msg := g, st := .inFlight } :: rest) :
    ∃ t, execAckArrival i s = .next t ∧ t.core (s.keyOfLcore g.src) = (s.core (s.keyOfLcore g.src)).answered g rest ans
      ∧ t.wireAcks = s.wireAcks.eraseIdx i := by
  have hout : ({ s with wireAcks := s.wireAcks.eraseIdx i } : State).outOf g.engine g.src = { msg := g, st := .inFlight } :: rest := by
    rw [heng]
    exact hq
  rw [execAckArrival, hack]
  simp only [pathUp_of_linked hlink, hout, findInFlight_oldest, Bool.not_true, Bool.false_eq_true, if_false]
  simp only [heng, State.setOut, State.engineFreed]
  cases ans
  · exact ⟨_, rfl, State.core_updCore_same .., rfl⟩
  · exact ⟨_, rfl, (State.core_updCore_same ..).trans (congrArg (fun x : Core => x.setSr mbxstatNo (x.sr mbxstatNo ||| 0x10000))
      (State.core_updCore_same ..)), rfl⟩
  · exact ⟨_, rfl, State.core_updCore_same .., rfl⟩
  · exact ⟨_, rfl, State.core_updCore_same .., rfl⟩

theorem execWakeArrival_oldest {s : State} {i : Nat} {w : Wake} {e : OutMsg} {rest : List OutMsg}
    (hwake : s.wireWakes[i]? = some w) (heng : w.engine = none) (hlink : linked s (w.dst / 128) (w.sender / 128))
    (hq : (s.core (s.keyOfLcore w.sender)).outq = e :: rest) (hdst : e.msg.dst = w.dst) (hmbx : e.msg.mbx = w.mbx)
    (he : e.st = .refused ∨ e.st = .refusedFull) :
    ∃ t, execWakeArrival i s = .next t ∧ (t.core (s.keyOfLcore w.sender)).outq = { e with st := .queued } :: rest
      ∧ t.wireWakes = s.wireWakes.eraseIdx i := by
  have hout : ({ s with wireWakes := s.wireWakes.eraseIdx i } : State).outOf none w.sender = e :: rest := hq
  have hst : (e.st == .refused || e.st == .refusedFull) = true := by simpa using he
  rw [execWakeArrival, hwake]
  simp only [heng, Option.getD_none, pathUp_of_linked hlink, hout, List.findIdx?_cons, hdst, hmbx, hst, BEq.rfl, Bool.and_self,
    Bool.not_true, Bool.false_eq_true, if_false, if_true, State.setOut]
  exact ⟨_, rfl, congrArg Core.outq (State.core_updCore_same ..), rfl⟩

theorem execRefuseRetryTimeout_refused {s : State} {c : CoreId} {i : Nat} {e : OutMsg} (hk : isCompute (coreKey c) = true)
    (hq : (s.core (s.keyOfLcore (s.lcoreOf (coreKey c)))).outq[i]? = some e) (he : e.st = .refusedFull) :
    execRefuseRetryTimeout c i s = .next (s.updCore (s.keyOfLcore (s.lcoreOf (coreKey c))) fun x =>
      x.setOutq ((s.core (s.keyOfLcore (s.lcoreOf (coreKey c)))).outq.set i { e with st := .queued })) := by
  have hc : ∀ d, c ≠ .dieCtl d := by
    rintro d rfl
    exact absurd (of_decide_eq_true hk) (by simp only [coreKey]; omega)
  have hout : s.outOf none (s.lcoreOf (coreKey c)) = (s.core (s.keyOfLcore (s.lcoreOf (coreKey c)))).outq := rfl
  rw [execRefuseRetryTimeout]
  · simp only [hk, hout, hq, he, Bool.or_true, if_true, State.setOut, List.modify_eq_set_getElem?]
    rfl
  · exact hc

/-- With nobody in the wait list no WAKE goes out (R300). -/
theorem wakeOldest_nobody {s : State} {k : Nat} (h : (s.core k).waitlist = []) (m : Nat) : s.wakeOldest k m = s := by
  rw [State.wakeOldest, h]
  rfl

theorem execReservationLapse_nobody {s : State} {c : CoreId} {mbx : BitVec 4} {w : Waiter} {rest : List Waiter}
    (hres : (s.core (coreKey c)).reserved = w :: rest) (hw : w.mbx = mbx.toNat) (hwait : (s.core (coreKey c)).waitlist = []) :
    execReservationLapse c mbx s = .next (s.updCore (coreKey c) fun x => { x with reserved := x.reserved.erase w }) := by
  have hnobody : ((s.updCore (coreKey c) fun x => { x with reserved := x.reserved.erase w }).core (coreKey c)).waitlist = [] :=
    (congrArg Core.waitlist (State.core_updCore_same ..)).trans hwait
  rw [execReservationLapse, hres, List.find?_cons_of_pos (by simp [hw])]
  dsimp only
  rw [wakeOldest_nobody hnobody, ite_self]

end Sys2Proof.Machine

open Sys2Proof Sys2Proof.Machine

/-- Settles O21: each event finds the oldest entry of the queue, and changes that entry alone. -/
theorem outboundQueueProtocol : Obligations.OutboundQueueProtocol := by
  refine ⟨fun s c e rest hk hp hq he => ?_, fun s i g ans st rest hack heng hlink hq => ?_,
    fun s i w e rest hwake heng hlink hq hdst hmbx he => ?_, fun s c i e hk hq he => ?_, fun s c mbx w rest hres hw hwait => ?_⟩
  all_goals dsimp only [exec]
  · have hcore := core_congr (putOnWire_cores (s.updCore (coreKey c) (Core.setOutq · ({ e with st := .inFlight } :: rest))) e.msg)
    refine ⟨_, execMessageLaunch_oldest hk hp hq he, putOnWire_wireMsgs .., ?_, fun j hj => ?_, putOnWire_dram ..⟩
    · rw [hcore, State.core_updCore_same]
      rfl
    · rw [hcore, State.core_updCore_other s hj]
  · obtain ⟨t, ht, hcore, hacks⟩ := execAckArrival_oldest hack heng hlink hq
    refine ⟨?_, ?_, ?_, ?_⟩
    · rintro rfl
      exact ⟨t, ht, congrArg Core.outq hcore, hacks⟩
    · rintro rfl
      refine ⟨t, ht, congrArg Core.outq hcore, ?_⟩
      rw [hcore]
      exact Core.answered_discard_stat ..
    · rintro rfl rfl
      exact ⟨t, ht, congrArg Core.outq hcore⟩
    · rintro rfl rfl
      exact ⟨t, ht, congrArg Core.outq hcore⟩
  · exact execWakeArrival_oldest hwake heng hlink hq hdst hmbx he
  · exact ⟨_, execRefuseRetryTimeout_refused hk hq he, congrArg Core.outq (State.core_updCore_same ..)⟩
  · refine ⟨_, execReservationLapse_nobody hres hw hwait, (congrArg Core.reserved (State.core_updCore_same ..)).trans ?_⟩
    exact (congrArg (List.erase · w) hres).trans (List.erase_cons_head ..)
end

section
/-! SUPPORT. The checks that a vector instruction begins with, where they pass, and the instructions that move the vector
engine's state (R29, R116, R120). -/

namespace Sys2Proof.Machine
open Sys2Proof Sys2Proof.Claims

theorem needVector_here {k : Nat} (hk : hasVector k = true) (w : Nat) (s : State) : (needVector k w).run s = .ok () s := by
  rw [needVector, hk]
  rfl

theorem illegalIf_pass {b : Bool} (hb : b = false) (w : Nat) (s : State) : (illegalIf w b).run s = .ok () s := by
  rw [illegalIf, hb]
  rfl

section
variable {s : State} {c : CoreId} {w : Nat} (hr : s.ready c = true) (hk : hasVector (coreKey c) = true)
include hr hk

/-- An instruction that changes its core once, past the check of the core. -/
theorem runInstr_vectorUpdate (g : Core → Core) :
    runInstr c w false (do needVector (coreKey c) w; modC (coreKey c) g; return .next) s
      = .next ((s.updCore (coreKey c) g).retire (coreKey c) (pcOf s c)) :=
  runInstr_next hr rfl (run_bind_ok (needVector_here hk w s))

/-- RCLR of one accumulator (R120). -/
theorem execRclr_one {acc : BitVec 2} {op : BitVec 3} (hop : op.toNat < 6 ∧ op ≠ 2) :
    execRclr c acc op s = .next ((s.updCore (coreKey c) fun x =>
      x.setSr (raccNo acc.toNat) (w64 (foldIdentity op.toNat))).retire (coreKey c) (pcOf s c)) := by
  obtain ⟨hlt, hmom⟩ := hop
  have hmom' : op.toNat ≠ 2 := fun h => hmom (BitVec.eq_of_toNat_eq h)
  have hfold : badFold op.toNat acc.toNat = false := by simp [badFold, hlt, hmom']
  refine runInstr_next hr rfl ((run_bind_ok (needVector_here hk _ s)).trans ((run_bind_ok (illegalIf_pass hfold _ s)).trans ?_))
  simp only [if_neg hmom]
  rfl

/-- RCLR of the two accumulators of MOM (R118, R120). -/
theorem execRclr_pair {acc : BitVec 2} (hacc : acc.toNat % 2 = 0) :
    execRclr c acc 2 s = .next ((s.updCore (coreKey c) fun x =>
      (x.setSr (0x078 + acc.toNat) 0).setSr (0x079 + acc.toNat) 0).retire (coreKey c) (pcOf s c)) := by
  have hfold : badFold (2#3).toNat acc.toNat = false := by simp [badFold, hacc]
  have hnext : 0x079 + acc.toNat = raccNo (acc.toNat + 1) := by
    rw [raccNo]
    omega
  rw [hnext]
  exact runInstr_next hr rfl ((run_bind_ok (needVector_here hk _ s)).trans (run_bind_ok (illegalIf_pass hfold _ s)))

end

/-- The identity of a reduction, as a register holds it (R118). -/
theorem w64_foldIdentity (op : BitVec 3) :
    w64 (foldIdentity op.toNat) = if op = 3 then 0xFF800000 else if op = 4 then 0x7F800000 else 0 := by
  revert op
  decide

/-- BASE of a pointer after PADD, in integers (R116). -/
theorem padd_low (v : W64) (imm : BitVec 12) :
    (v + sext64 imm) &&& 0xFFF = BitVec.ofInt 64 ((((v.toNat % 4096 : Nat) : Int) + imm.toInt) % 4096) := by
  have hsext : (sext64 imm).toInt = imm.toInt := BitVec.toInt_signExtend_of_le (by decide)
  rw [BitVec.toInt_eq_toNat_cond] at hsext
  apply BitVec.eq_of_toNat_eq
  rw [BitVec.toNat_and, BitVec.toNat_add, BitVec.toNat_ofInt, show (0xFFF : W64).toNat = 2 ^ 12 - 1 from rfl,
    Nat.and_two_pow_sub_one_eq_mod]
  omega

/-- Each instruction of the vector state is one change of its core (R116, R120). -/
theorem exec_of_vecState {i : Instr} {s : State} {c : CoreId} {g : Core → Core} (h : vecState i = some (c, g))
    (hr : s.ready c = true) (hk : hasVector (coreKey c) = true) :
    exec i s = .next ((s.updCore (coreKey c) g).retire (coreKey c) (pcOf s c)) := by
  unfold vecState at h
  split at h
  case h_6 => -- RCLR
    dsimp only at h
    dsimp only [exec]
    rw [← w64_foldIdentity] at h
    split_ifs at h with hone hpair
    · cases h
      exact execRclr_one hr hk hone
    · cases h
      obtain ⟨rfl, hacc⟩ := hpair
      exact execRclr_pair hr hk hacc
  case h_7 => contradiction
  all_goals
    cases h
    dsimp only [exec]
  case h_3 => -- PADD
    simp only [← padd_low]
    exact runInstr_vectorUpdate hr hk _
  all_goals exact runInstr_vectorUpdate hr hk _

end Sys2Proof.Machine

open Sys2Proof Sys2Proof.Machine

/-- Settles O30: each of the six is one change of its core, past the checks that begin it. -/
theorem vectorStateInstructions : Obligations.VectorStateInstructions :=
  fun _ _ _ _ h hr hk => exec_of_vecState h hr hk
end

section
/-! SUPPORT. Actions that end in a value and a state with a property: the rules for the steps that vector instructions are made
of. -/

namespace Sys2Proof.Machine
open Sys2Proof Sys2Proof.Claims

/-- The action ends well from a state, in a value and a state with a property. -/
def Ends {α : Type} (m : M α) (s : State) (Q : α → State → Prop) : Prop := ∃ a t, m.run s = .ok a t ∧ Q a t

section
variable {α β : Type} {s : State}

theorem Ends.of_run {m : M α} {a : α} {t : State} {Q : α → State → Prop} (h : m.run s = .ok a t) (hQ : Q a t) : Ends m s Q :=
  ⟨a, t, h, hQ⟩

theorem Ends.mono {m : M α} {P Q : α → State → Prop} (h : Ends m s P) (hPQ : ∀ a t, P a t → Q a t) : Ends m s Q := by
  obtain ⟨a, t, hrun, hP⟩ := h
  exact ⟨a, t, hrun, hPQ a t hP⟩

theorem Ends.bind {m : M α} {f : α → M β} {P : α → State → Prop} {Q : β → State → Prop} (h : Ends m s P)
    (hf : ∀ a t, P a t → Ends (f a) t Q) : Ends (m >>= f) s Q := by
  obtain ⟨a, t, hrun, hP⟩ := h
  obtain ⟨b, u, hb, hQ⟩ := hf a t hP
  exact ⟨b, u, (run_bind_ok hrun).trans hb, hQ⟩

/-- An action that ends at once in a known value. -/
theorem Ends.bind_run {m : M α} {f : α → M β} {a : α} {t : State} {Q : β → State → Prop} (h : m.run s = .ok a t)
    (hf : Ends (f a) t Q) : Ends (m >>= f) s Q := by
  obtain ⟨b, u, hb, hQ⟩ := hf
  exact ⟨b, u, (run_bind_ok h).trans hb, hQ⟩

/-- A list of actions that each keep an invariant keeps it. -/
theorem Ends.forEach {I : State → Prop} {l : List α} {g : α → M Unit} (hs : I s)
    (hg : ∀ a ∈ l, ∀ t, I t → Ends (g a) t fun _ u => I u) : Ends (forEach l g) s fun _ u => I u := by
  induction l generalizing s with
  | nil => exact .of_run rfl hs
  | cons a l ih =>
    exact (hg a (List.mem_cons_self ..) s hs).bind fun _ t ht => ih ht fun b hb => hg b (List.mem_cons_of_mem _ hb)

/-- A list of reads under an invariant gives the list of their values. -/
theorem Ends.collect {I : State → Prop} {l : List α} {g : α → M β} (v : α → β) (hs : I s)
    (hg : ∀ a ∈ l, ∀ t, I t → Ends (g a) t fun b u => b = v a ∧ I u) :
    Ends (collect l g) s fun bs u => bs = l.map v ∧ I u := by
  induction l generalizing s with
  | nil => exact .of_run rfl ⟨rfl, hs⟩
  | cons a l ih =>
    refine (hg a (List.mem_cons_self ..) s hs).bind fun b t ⟨hb, ht⟩ => ?_
    refine (ih ht fun c hc => hg c (List.mem_cons_of_mem _ hc)).bind fun bs u ⟨hbs, hu⟩ => ?_
    exact .of_run rfl ⟨by rw [hb, hbs, List.map_cons], hu⟩

end

end Sys2Proof.Machine
end

section
/-! SUPPORT. The operand cache: reads where no error stands, and what a write leaves at each byte (R95, R98). -/

namespace Sys2Proof.Machine
open Sys2Proof Sys2Proof.Claims

/-- The bytes after an operand-cache write (R95). -/
def putBytes (m : SMap Byte) (bs : List OcByte) : SMap Byte := bs.foldl (fun m b => m.set 0 b.1 b.2.1) m

theorem putBytes_append (m : SMap Byte) (bs cs : List OcByte) : putBytes m (bs ++ cs) = putBytes (putBytes m bs) cs :=
  List.foldl_append ..

theorem get_putBytes_other {m : SMap Byte} {bs : List OcByte} {i : Nat} (h : ∀ b ∈ bs, b.1 ≠ i) :
    SMap.get 0 (putBytes m bs) i = SMap.get 0 m i := by
  induction bs generalizing m with
  | nil => rfl
  | cons b bs ih =>
    rw [putBytes, List.foldl_cons]
    exact (ih fun c hc => h c (List.mem_cons_of_mem _ hc)).trans
      (SMap.get_set_other 0 m (h b (List.mem_cons_self ..)).symm _)

/-- A byte that a write names, always with one value, has it. -/
theorem get_putBytes_same {m : SMap Byte} {bs : List OcByte} {i : Nat} {v : Byte} (hi : ∃ b ∈ bs, b.1 = i)
    (hv : ∀ b ∈ bs, b.1 = i → b.2.1 = v) : SMap.get 0 (putBytes m bs) i = v := by
  induction bs using List.reverseRecOn with
  | nil => simp at hi
  | append_singleton bs b ih =>
    rw [putBytes_append]
    by_cases hb : b.1 = i
    · rw [← hb, ← hv b (by simp) hb]
      exact SMap.get_set_same ..
    · have hin : ∃ c ∈ bs, c.1 = i := by
        obtain ⟨c, hc, hci⟩ := hi
        rcases List.mem_append.mp hc with h | h
        · exact ⟨c, h, hci⟩
        · exact absurd (List.mem_singleton.mp h ▸ hci) hb
      exact (SMap.get_set_other 0 _ (Ne.symm hb) _).trans
        (ih hin fun c hc => hv c (List.mem_append_left _ hc))

/-- With no armed injection of a detector, none strikes. -/
theorem takeArmed_unarmed {s : State} {u num loc : Nat} (h : ∀ a ∈ s.armed.get [] u, a.num ≠ num) :
    s.takeArmed u num loc = (none, s) := by
  have hfind : ((s.armed.get [] u).find? fun a => a.num == num && a.loc == loc) = none :=
    List.find?_eq_none.mpr fun a ha => by simp [h a ha]
  simp only [State.takeArmed, hfind]

/-- A write of the operand cache with no armed error and none held changes its bytes alone. -/
theorem ocStore_sound {s : State} {k : Nat} (bs : List OcByte) (harm : ∀ a ∈ s.armed.get [] (unitOfKey k), a.num ≠ 0x0104)
    (hbad : (s.core k).ocBad = []) :
    s.ocStore k bs = s.updCore k fun c => { c with oc := putBytes c.oc bs, ocBad := [] } := by
  simp only [State.ocStore, State.armedErr, List.foldl_cons, List.foldl_nil, takeArmed_unarmed harm, if_true, List.append_nil,
    State.updCore, hbad, List.filter_nil]
  rfl

theorem ocRead_sound {s : State} {k : Nat} (h : (s.core k).ocBad = []) (a n : Nat) :
    (ocRead k a n).run s = .ok ((s.core k).ocBytes a n) s := by
  rw [ocRead, run_getC_bind, h]
  rfl

theorem leBytes_eq_map (n v : Nat) : leBytes n v = (List.range n).map fun i => BitVec.ofNat 8 (v / 256 ^ i) := by
  induction n generalizing v with
  | zero => rfl
  | succ n ih =>
    rw [leBytes, ih, List.range_succ_eq_map, List.map_cons, List.map_map, pow_zero, Nat.div_one]
    simp only [Function.comp_def, Nat.pow_succ', Nat.div_div_eq_div_mul]

theorem ofLe_leBytes (n v : Nat) : ofLe (leBytes n v) = v % 2 ^ (8 * n) := by
  induction n generalizing v with
  | zero => simp [leBytes, ofLe, Nat.mod_one]
  | succ n ih =>
    rw [leBytes, ofLe, ih, BitVec.toNat_ofNat, show (2 : Nat) ^ (8 * (n + 1)) = 256 * 2 ^ (8 * n) by rw [Nat.mul_succ, pow_add, mul_comm]; rfl,
      Nat.mod_mul]

theorem ofLe_lt (bs : List Byte) : ofLe bs < 2 ^ (8 * bs.length) := by
  induction bs with
  | nil => simp [ofLe]
  | cons b bs ih =>
    rw [ofLe, List.length_cons, Nat.mul_succ, pow_add]
    have := b.isLt
    omega

/-- Each byte of an operand-cache write stands at its place after the first, wrapping (R95). -/
theorem mem_ocBytesAt {a n v : Nat} {b : OcByte} :
    b ∈ ocBytesAt a (leBytes n v) ↔ ∃ i < n, b = ((a + i) % ocSize, BitVec.ofNat 8 (v / 256 ^ i), true) := by
  simp only [ocBytesAt, leBytes_eq_map, List.mem_map, Prod.exists, List.mem_zipIdx_iff_getElem?, List.getElem?_map]
  constructor
  · rintro ⟨x, i, hx, rfl⟩
    obtain ⟨j, hj, rfl⟩ := Option.map_eq_some_iff.mp hx
    obtain ⟨hi, rfl⟩ := List.getElem?_eq_some_iff.mp hj
    rw [List.getElem_range]
    exact ⟨i, by simpa using hi, rfl⟩
  · rintro ⟨i, hi, rfl⟩
    exact ⟨_, i, by rw [List.getElem?_range hi]; rfl, rfl⟩

/-- The operand-cache bytes of some elements' writes: the address of an element, its size, and pairs of an element and its bits. -/
def elemBytes (addr : Nat → Nat) (z : Nat) (out : List (Nat × Nat)) : List OcByte :=
  out.flatMap fun o => ocBytesAt (addr o.1) (leBytes z o.2)

theorem mem_elemBytes {addr : Nat → Nat} {z : Nat} {out : List (Nat × Nat)} {b : OcByte} :
    b ∈ elemBytes addr z out ↔ ∃ o ∈ out, ∃ i < z, b = ((addr o.1 + i) % ocSize, BitVec.ofNat 8 (o.2 / 256 ^ i), true) := by
  simp only [elemBytes, List.mem_flatMap, mem_ocBytesAt]

/-- The spans of two elements of a size share no byte. -/
def Apart (addr : Nat → Nat) (z e g : Nat) : Prop := ∀ p < z, ∀ q < z, (addr e + p) % ocSize ≠ (addr g + q) % ocSize

/-- An element that a write leaves out, apart from those written, reads as before. -/
theorem ocBytes_elemBytes_other {c : Core} {m : SMap Byte} {addr : Nat → Nat} {z e : Nat} {out : List (Nat × Nat)}
    (hc : c.oc = putBytes m (elemBytes addr z out)) (h : ∀ o ∈ out, Apart addr z e o.1) :
    c.ocBytes (addr e) z = (rangeFrom (addr e) z).map fun i => m.get 0 (i % ocSize) := by
  rw [Core.ocBytes, hc]
  refine List.map_congr_left fun a ha => get_putBytes_other fun b hb hba => ?_
  obtain ⟨p, hp, rfl⟩ := List.mem_map.mp ha
  obtain ⟨o, ho, q, hq, rfl⟩ := mem_elemBytes.mp hb
  exact h o ho p (List.mem_range.mp hp) q hq hba.symm

/-- An element that a write holds, apart from the others, reads as written. -/
theorem ocBytes_elemBytes_same {c : Core} {m : SMap Byte} {addr : Nat → Nat} {z : Nat} {out : List (Nat × Nat)} {o : Nat × Nat}
    (hc : c.oc = putBytes m (elemBytes addr z out)) (hz : z ≤ 8) (ho : o ∈ out)
    (h : ∀ g ∈ out, g = o ∨ Apart addr z o.1 g.1) : c.ocBytes (addr o.1) z = leBytes z o.2 := by
  rw [Core.ocBytes, hc, leBytes_eq_map, rangeFrom, List.map_map]
  refine List.map_congr_left fun p hp => ?_
  have hp := List.mem_range.mp hp
  refine get_putBytes_same ⟨_, mem_elemBytes.mpr ⟨o, ho, p, hp, rfl⟩, rfl⟩ fun b hb hba => ?_
  obtain ⟨g, hg, q, hq, rfl⟩ := mem_elemBytes.mp hb
  rcases h g hg with rfl | hapart
  · have hpq : q = p := by
      simp only [ocSize] at hba
      omega
    rw [hpq]
  · exact absurd hba.symm (hapart p hp q hq)

end Sys2Proof.Machine
end

section
/-! SUPPORT. Bytes of a line: the bits that a masked merge gives and a read takes (R233). -/

namespace Sys2Proof.Machine
open Sys2Proof Sys2Proof.Claims

theorem testBit_ofLe (bs : List Byte) (i : Nat) : (ofLe bs).testBit i = (bs.getD (i / 8) 0).getLsbD (i % 8) := by
  induction bs generalizing i with
  | nil => simp [ofLe]
  | cons b bs ih =>
    rw [ofLe, show b.toNat + 256 * ofLe bs = 2 ^ 8 * ofLe bs + b.toNat by omega, Nat.testBit_two_pow_mul_add _ b.isLt]
    split_ifs with h
    · rw [Nat.div_eq_of_lt h, Nat.mod_eq_of_lt h]
      rfl
    · obtain ⟨j, rfl⟩ := Nat.exists_eq_add_of_le (not_lt.mp h)
      rw [ih, Nat.add_sub_cancel_left, Nat.add_mod_left, Nat.add_div_left _ (by decide)]
      rfl

theorem getLsbD_byteMask (m : LineMask) {i : Nat} (hi : i < 1024) : (byteMask m).getLsbD i = m.getLsbD (i / 8) := by
  have hbyte : i / 8 < 128 := by omega
  have hbit : i % 8 < 8 := by omega
  rw [byteMask, BitVec.getLsbD_ofNat, testBit_ofLe, List.getD_eq_getElem?_getD, List.getElem?_map, List.getElem?_range hbyte]
  simp only [hi, decide_true, Bool.true_and, Option.map_some, Option.getD_some]
  cases m.getLsbD (i / 8)
  · simp
  · revert hbit
    generalize i % 8 = j
    revert j
    decide

theorem getLsbD_spanMask (off n : Nat) {i : Nat} (hi : i < 128) :
    (spanMask off n).getLsbD i = decide (off ≤ i ∧ i < off + n) := by
  rw [spanMask, BitVec.getLsbD_ofNat, Nat.testBit_shiftLeft, Nat.testBit_two_pow_sub_one]
  simp only [hi, decide_true, Bool.true_and, ← Bool.decide_and]
  exact decide_eq_decide.mpr (by omega)

theorem testBit_lineGet (l : LineData) {off n : Nat} (hn : 0 < n) (i : Nat) :
    (lineGet l off n).testBit i = (decide (i < 8 * n) && l.getLsbD (8 * off + i)) := by
  rw [lineGet, bitsOf, Nat.testBit_mod_two_pow, Nat.testBit_shiftRight, BitVec.testBit_toNat]
  congr 2
  exact propext (by omega)

theorem getLsbD_mergeLine (old new : LineData) (m : LineMask) {i : Nat} (hi : i < 1024) :
    (mergeLine old new m).getLsbD i = if m.getLsbD (i / 8) then new.getLsbD i else old.getLsbD i := by
  simp only [mergeLine, BitVec.getLsbD_or, BitVec.getLsbD_and, BitVec.getLsbD_not, getLsbD_byteMask m hi, hi, decide_true,
    Bool.true_and]
  cases m.getLsbD (i / 8) <;> simp

section
variable {old : LineData} {off n v : Nat}

/-- A span read where it was written. -/
theorem lineGet_merge_same (hn : 0 < n) (hoff : off + n ≤ 128) :
    lineGet (mergeLine old (lineAt off (v % 2 ^ (8 * n))) (spanMask off n)) off n = v % 2 ^ (8 * n) := by
  refine Nat.eq_of_testBit_eq fun i => ?_
  rw [testBit_lineGet _ hn]
  by_cases hi : i < 8 * n
  · have hbyte : off ≤ (8 * off + i) / 8 ∧ (8 * off + i) / 8 < off + n := by omega
    rw [getLsbD_mergeLine _ _ _ (by omega), getLsbD_spanMask _ _ (by omega), decide_eq_true hbyte, if_pos rfl, lineAt,
      BitVec.getLsbD_ofNat, Nat.testBit_shiftLeft, decide_eq_true hi, decide_eq_true (show 8 * off + i < 1024 by omega),
      decide_eq_true (show 8 * off + i ≥ 8 * off by omega), Nat.add_sub_cancel_left]
    rfl
  · rw [decide_eq_false hi, Nat.testBit_mod_two_pow, decide_eq_false hi, Bool.false_and, Bool.false_and]

/-- A span read elsewhere. -/
theorem lineGet_merge_other {new : LineData} {off' n' : Nat} (hn' : 0 < n') (hoff' : off' + n' ≤ 128)
    (h : off' + n' ≤ off ∨ off + n ≤ off') :
    lineGet (mergeLine old new (spanMask off n)) off' n' = lineGet old off' n' := by
  refine Nat.eq_of_testBit_eq fun i => ?_
  rw [testBit_lineGet _ hn', testBit_lineGet _ hn']
  by_cases hi : i < 8 * n'
  · rw [getLsbD_mergeLine _ _ _ (by omega), getLsbD_spanMask _ _ (by omega), if_neg (by rw [decide_eq_true_eq]; omega)]
  · rw [decide_eq_false hi, Bool.false_and, Bool.false_and]

theorem lineGet_lt (l : LineData) (hn : 0 < n) : lineGet l off n < 2 ^ (8 * n) := by
  rw [lineGet, bitsOf, show 8 * (off + n) - 1 + 1 - 8 * off = 8 * n by omega]
  exact Nat.mod_lt _ (Nat.two_pow_pos _)

end

end Sys2Proof.Machine
end

section
/-! SUPPORT. Accesses of an engine at M to a line that its L1 holds: what each leaves, and what it reads or stores (R104, R265,
R276). -/

namespace Sys2Proof.Machine
open Sys2Proof Sys2Proof.Claims

/-- Reads may move the order of use of core k's L1, and change nothing else. -/
def Seen (k : Nat) (s t : State) : Prop :=
  t = { s with cores := t.cores }
    ∧ t.core k = { s.core k with l1 := (t.core k).l1, l1clock := (t.core k).l1clock }
    ∧ ∀ key, ∃ u, (t.core k).l1Line key = { (s.core k).l1Line key with lru := u }

theorem Seen.armed {k : Nat} {s t : State} (h : Seen k s t) : t.armed = s.armed := by
  obtain ⟨hst, -⟩ := h
  rw [hst]

theorem Seen.refl (k : Nat) (s : State) : Seen k s s := ⟨rfl, rfl, fun _ => ⟨_, rfl⟩⟩

theorem Seen.trans {k : Nat} {s t u : State} (h : Seen k s t) (h' : Seen k t u) : Seen k s u := by
  obtain ⟨hst, hcore, hline⟩ := h
  obtain ⟨hst', hcore', hline'⟩ := h'
  refine ⟨?_, ?_, fun key => ?_⟩
  · rw [hst', hst]
  · rw [hcore', hcore]
  · obtain ⟨v, hv⟩ := hline key
    obtain ⟨w, hw⟩ := hline' key
    exact ⟨w, by rw [hw, hv]⟩

/-- The lines that an L1 finds depend on which lines stand at which keys. -/
theorem l1Find_congr {x y : Core} (h : ∀ key, (y.l1Line key).valid = (x.l1Line key).valid ∧ (y.l1Line key).line = (x.l1Line key).line)
    (line : Nat) : y.l1Find line = x.l1Find line := by
  simp only [Core.l1Find, fun key => (h key).1, fun key => (h key).2]

theorem region_eq_dram_iff {s : State} {a d : Nat} :
    s.region a = .dram d ↔ a < 4 * dieWindow ∧ a % dieWindow < (s.die (a / dieWindow)).capacity ∧ a / dieWindow = d := by
  unfold State.region
  split_ifs <;> simp_all

/-- A range of DRAM covers whole lines (R267, R268). -/
theorem region_sameLine {s : State} {a b d : Nat} (h : s.region a = .dram d) (hab : b / 128 = a / 128) : s.region b = .dram d := by
  rw [region_eq_dram_iff] at h ⊢
  obtain ⟨hlow, hcap, hdie⟩ := h
  have hb : b / dieWindow = a / dieWindow := by
    simp only [dieWindow]
    omega
  rw [hb]
  have hwhole : (s.die (a / dieWindow)).capacity % 128 = 0 := by
    unfold Die.capacity
    split_ifs <;> rfl
  generalize (s.die (a / dieWindow)).capacity = cap at hcap hwhole ⊢
  simp only [dieWindow] at hlow hcap hdie ⊢
  exact ⟨by omega, by omega, hdie⟩

section
variable {s : State} {k key : Nat} {va : W64} (h : l1Hit s k va key)
include h

theorem l1Hit_level : (s.core k).level = .m := by
  obtain ⟨hlevel, -⟩ := h
  exact hlevel
theorem l1Hit_low : va.toNat < 2 ^ 46 := by
  obtain ⟨-, -, hlow, -⟩ := h
  exact hlow
theorem l1Hit_find : (s.core k).l1Find (va.toNat / 128) = some key := by
  obtain ⟨-, -, -, -, hfind, -⟩ := h
  exact hfind
/-- The line is sound. -/
theorem l1Hit_clean : ((s.core k).l1Line key).err = 0 ∧ ((s.core k).l1Line key).poison = 0 := by
  obtain ⟨-, -, -, -, -, herr, hpoison⟩ := h
  exact ⟨herr, hpoison⟩

end

/-- A hit stays one when the order of use moves. -/
theorem l1Hit_seen {s t : State} {k key : Nat} {va : W64} (h : l1Hit s k va key) (hs : Seen k s t) : l1Hit t k va key := by
  obtain ⟨hlevel, hmatp, hlow, ⟨d, hregion⟩, hfind, herr, hpoison⟩ := h
  obtain ⟨hst, hcore, hline⟩ := hs
  obtain ⟨u, hu⟩ := hline key
  have hfind' := l1Find_congr (x := s.core k) (y := t.core k)
    (fun key' => by obtain ⟨v, hv⟩ := hline key'; rw [hv]; exact ⟨rfl, rfl⟩) (va.toNat / 128)
  refine ⟨?_, ?_, hlow, ⟨d, ?_⟩, hfind'.trans hfind, ?_, ?_⟩
  · rw [hcore]; exact hlevel
  · rw [hcore]; exact hmatp
  · rw [hst]; exact hregion
  · rw [hu]; exact herr
  · rw [hu]; exact hpoison

/-- The address of a byte further on in the same line. -/
theorem toNat_add_w64 {va : W64} {i : Nat} (hlow : va.toNat < 2 ^ 46) (hi : i < 128) : (va + w64 i).toNat = va.toNat + i := by
  rw [BitVec.toNat_add, w64, BitVec.toNat_ofNat]
  omega

theorem l1Hit_within {s : State} {k key i : Nat} {va : W64} (h : l1Hit s k va key) (hi : va.toNat % 128 + i < 128) :
    l1Hit s k (va + w64 i) key := by
  obtain ⟨hlevel, hmatp, hlow, ⟨d, hregion⟩, hfind, herr, hpoison⟩ := h
  have haddr := toNat_add_w64 hlow (i := i) (by omega)
  have hline : (va + w64 i).toNat / 128 = va.toNat / 128 := by omega
  exact ⟨hlevel, hmatp, by omega, ⟨d, region_sameLine hregion hline⟩, by rw [hline]; exact hfind, herr, hpoison⟩

theorem canonical_low {va : W64} (h : va.toNat < 2 ^ 46) : canonical va = true := by
  have hmsb : (va.setWidth 57 : BitVec 57).msb = false := by
    rw [BitVec.msb_eq_decide, decide_eq_false_iff_not, BitVec.toNat_setWidth]
    omega
  rw [canonical, beq_iff_eq, sext64, BitVec.signExtend_eq_setWidth_of_msb_false hmsb]
  apply BitVec.eq_of_toNat_eq
  simp only [BitVec.toNat_setWidth]
  omega

section
variable {s : State} {k key : Nat} {va : W64} (h : l1Hit s k va key)
include h

theorem uncached_hit : s.uncached k va.toNat = false := by
  obtain ⟨-, -, -, ⟨d, hregion⟩, -⟩ := h
  rw [State.uncached, hregion]

/-- With its translation off, M's addresses are physical (R276). -/
theorem translate_hit (acc : Acc) : (translate k .m .d acc true false va).run s = .ok va.toNat s := by
  have huncached := uncached_hit h
  obtain ⟨-, hmatp, hlow, -⟩ := h
  have h57 : va57 va = va.toNat := Nat.mod_eq_of_lt (by omega)
  have hx : s.xlate k .m .d acc false va = (.ok va.toNat, s) := by
    simp only [State.xlate, canonical_low hlow, regMode, beq_self_eq_true, if_true, hmatp, h57, hlow, huncached, Bool.not_true,
      Bool.not_false, Bool.false_eq_true, if_false, decide_true, Bool.and_self, Bool.and_false]
  rw [translate, run_modifyGet_bind, hx]
  rfl

theorem locate_hit {n : Nat} (hn : va.toNat % 128 + n ≤ 128) (acc : Acc) :
    (locate k .m .d acc va n).run s = .ok [(va, va.toNat, n)] s := by
  have hfirst : min n (128 - va.toNat % 128) = n := by omega
  rw [locate, run_bind_ok (translate_hit h acc), hfirst, if_pos rfl]
  rfl

theorem l1Present_hit : s.l1Present k (va.toNat / 128) = (some key, s) := by
  obtain ⟨-, -, -, -, hfind, herr, -⟩ := h
  simp only [State.l1Present, hfind, State.l1Check, herr]
  rfl

theorem l1Read_hit (vline : Nat) (train : Bool) :
    s.l1Read k vline (va.toNat / 128) train = ({ data := ((s.core k).l1Line key).data }, s.l1Touch k key) := by
  have hpresent := l1Present_hit h
  obtain ⟨-, -, -, -, -, -, hpoison⟩ := h
  simp only [State.l1Read, hpresent, hpoison]

theorem seen_l1Touch : Seen k s (s.l1Touch k key) := by
  refine ⟨rfl, ?_, fun key' => ?_⟩
  · rw [State.l1Touch, State.core_updCore_same]
    rfl
  · rw [State.l1Touch, State.core_updCore_same]
    by_cases hkey : key' = key
    · subst hkey
      exact ⟨_, SMap.get_set_same ..⟩
    · exact ⟨((s.core k).l1Line key').lru, SMap.get_set_other _ _ hkey _⟩

/-- A load of a span of the line gives its bytes (R104). -/
theorem load_hit {n : Nat} (hn : va.toNat % 128 + n ≤ 128) :
    ((l1Port k .m).load va n).run s = .ok (lineGet ((s.core k).l1Line key).data (va.toNat % 128) n) (s.l1Touch k key) := by
  have huncached := uncached_hit h
  have hread := l1Read_hit h (va.toNat / 128) true
  obtain ⟨-, -, -, ⟨d, hregion⟩, -⟩ := id h
  have hspan : (loadSpanE k true va va.toNat n true).run s
      = .ok (lineGet ((s.core k).l1Line key).data (va.toNat % 128) n) (s.l1Touch k key) := by
    rw [loadSpanE, run_get_bind]
    simp only [huncached, hregion, Bool.false_and, Bool.false_eq_true, if_false]
    refine (run_modifyGet_bind _ _ s).trans ?_
    rw [hread]
    rfl
  rw [MemPort.load, run_bind_ok (show ((l1Port k .m).loc .load va n).run s = _ from locate_hit h hn .load), readParts,
    run_bind_ok (show ((l1Port k .m).rd va va.toNat n).run s = _ from hspan)]
  show EStateM.Result.ok (_ + 0 * _) _ = _
  rw [Nat.zero_mul, Nat.add_zero]

end

/-- With nothing armed at a unit no write of its cores takes an error (R414). -/
theorem armedErr_unarmed {s : State} {u : Nat} (h : s.armed.get [] u = []) (nums : List Nat) (loc : Nat) :
    s.armedErr u nums loc = (0, s) := by
  induction nums with
  | nil => rfl
  | cons num nums ih =>
    rw [State.armedErr, List.foldl_cons, takeArmed_unarmed (by simp [h])]
    exact ih

theorem armedWord_unarmed {s : State} {u : Nat} (h : s.armed.get [] u = []) (nums : List Nat) (loc : Nat) (mask : LineMask) :
    s.armedWord u nums loc mask = ((0, 0), s) := by
  rw [State.armedWord, armedErr_unarmed h]
  exact ite_self _

/-- Writes of core k's L1 that leave every line at its key, sound and unmarked at `key`, with the bytes that it then holds. -/
def Wrote (k key : Nat) (s t : State) (data : LineData) : Prop :=
  t = { s with cores := t.cores }
    ∧ t.core k = { s.core k with l1 := (t.core k).l1, l1clock := (t.core k).l1clock }
    ∧ (∀ j, ((t.core k).l1Line j).valid = ((s.core k).l1Line j).valid ∧ ((t.core k).l1Line j).line = ((s.core k).l1Line j).line)
    ∧ ((t.core k).l1Line key).err = 0 ∧ ((t.core k).l1Line key).poison = 0 ∧ ((t.core k).l1Line key).data = data

theorem Wrote.trans {k key : Nat} {s t u : State} {d e : LineData} (h : Wrote k key s t d) (h' : Wrote k key t u e) :
    Wrote k key s u e := by
  obtain ⟨hst, hcore, hkeys, -⟩ := h
  obtain ⟨hst', hcore', hkeys', hline'⟩ := h'
  refine ⟨by rw [hst', hst], by rw [hcore', hcore], fun j => ?_, hline'⟩
  obtain ⟨hv, hl⟩ := hkeys j
  obtain ⟨hv', hl'⟩ := hkeys' j
  exact ⟨hv'.trans hv, hl'.trans hl⟩

theorem Wrote.armed {k key : Nat} {s t : State} {d : LineData} (h : Wrote k key s t d) : t.armed = s.armed := by
  obtain ⟨hst, -⟩ := h
  rw [hst]

theorem Wrote.line {k key : Nat} {s t : State} {d : LineData} (h : Wrote k key s t d) : ((t.core k).l1Line key).data = d := by
  obtain ⟨-, -, -, -, -, hdata⟩ := h
  exact hdata

theorem Wrote.l1Find {k key : Nat} {s t : State} {d : LineData} (h : Wrote k key s t d) (line : Nat) :
    (t.core k).l1Find line = (s.core k).l1Find line := by
  obtain ⟨-, -, hkeys, -⟩ := h
  exact l1Find_congr hkeys line

theorem Wrote.l1Hit {k key : Nat} {s t : State} {va : W64} {d : LineData} (h : Wrote k key s t d) (hit : l1Hit s k va key) :
    l1Hit t k va key := by
  have hfind' := h.l1Find (va.toNat / 128)
  obtain ⟨hst, hcore, -, herr, hpoison, -⟩ := h
  obtain ⟨hlevel, hmatp, hlow, ⟨d, hregion⟩, hfind, -, -⟩ := hit
  refine ⟨?_, ?_, hlow, ⟨d, ?_⟩, hfind'.trans hfind, herr, hpoison⟩
  · rw [hcore]; exact hlevel
  · rw [hcore]; exact hmatp
  · rw [hst]; exact hregion

section
variable {s : State} {k key : Nat} {va : W64} (h : l1Hit s k va key) (harm : s.armed.get [] (unitOfKey k) = [])
include h harm

/-- A write of bytes of the line. -/
theorem l1Write_hit (vline : Nat) (data : LineData) (mask : LineMask) :
    ∃ t, s.l1Write k vline (va.toNat / 128) data mask = (true, t)
      ∧ Wrote k key s t (mergeLine ((s.core k).l1Line key).data data mask) := by
  have hpresent := l1Present_hit h
  obtain ⟨-, -, -, -, -, herr, hpoison⟩ := h
  simp only [State.l1Write, hpresent, freshen, hpoison, if_true, armedWord_unarmed harm, herr]
  refine ⟨_, rfl, rfl, ?_, fun j => ?_, ?_⟩
  · simp only [State.l1Touch, State.core_updCore_same]
    rfl
  · simp only [State.l1Touch, State.core_updCore_same]
    by_cases hj : j = key
    · subst hj
      simp only [Core.l1Line, Core.setL1, SMap.get_set_same, and_self]
    · simp only [Core.l1Line, Core.setL1, SMap.get_set_other _ _ hj, and_self]
  · simp only [State.l1Touch, State.core_updCore_same, Core.l1Line, Core.setL1, SMap.get_set_same, and_self]

/-- A store of a span of the line writes its bytes (R104). -/
theorem store_hit {n : Nat} (hn : va.toNat % 128 + n ≤ 128) (v : Nat) :
    Ends ((l1Port k .m).store va n v) s fun _ t => Wrote k key s t
      (mergeLine ((s.core k).l1Line key).data (lineAt (va.toNat % 128) (v % 2 ^ (8 * n))) (spanMask (va.toNat % 128) n)) := by
  have huncached := uncached_hit h
  obtain ⟨t, hwrite, ht⟩ := l1Write_hit h harm (va.toNat / 128) (lineAt (va.toNat % 128) (v % 2 ^ (8 * n))) (spanMask (va.toNat % 128) n)
  obtain ⟨-, -, -, ⟨d, hregion⟩, -⟩ := id h
  have hspan : (storeSpanE k true va va.toNat n (v % 2 ^ (8 * n))).run s = .ok () t := by
    rw [storeSpanE, run_get_bind]
    simp only [huncached, hregion, Bool.false_and, Bool.false_eq_true, if_false, Nat.mod_mod]
    refine (run_modifyGet_bind _ _ s).trans ?_
    rw [hwrite]
    rfl
  refine .of_run (a := ()) (t := t) ?_ ht
  rw [MemPort.store, run_bind_ok (show ((l1Port k .m).loc .store va n).run s = _ from locate_hit h hn .store), writeParts,
    run_bind_ok (show ((l1Port k .m).wr va va.toNat n (v % 2 ^ (8 * n))).run s = _ from hspan)]
  rfl

/-- Neither a load nor a store of a span of the line would meet an error (R90). -/
theorem see_hit {n : Nat} (hn : va.toNat % 128 + n ≤ 128) {acc : Acc} (hacc : acc = .load ∨ acc = .store) :
    ((l1Port k .m).see acc va n).run s = .ok () s := by
  obtain ⟨t, hwrite, -⟩ := l1Write_hit h harm (va.toNat / 128) 0 0
  obtain ⟨-, -, -, ⟨d, hregion⟩, -⟩ := id h
  rw [MemPort.see, run_bind_ok (show ((l1Port k .m).loc acc va n).run s = _ from locate_hit h hn acc)]
  have hprobe : (probeSpan k acc va va.toNat).run s = .ok () s := by
    rcases hacc with rfl | rfl
    · rfl
    · rw [probeSpan, run_get_bind, hregion]
      simp only [hwrite, if_true]
      rfl
  exact run_bind_ok hprobe

end

end Sys2Proof.Machine
end

section
/-! SUPPORT. Operands of a vector instruction as its granules read them: a pointer, a descriptor of the operand cache, or a line of
L1 (R101 to R104, R125). -/

namespace Sys2Proof.Machine
open Sys2Proof Sys2Proof.Claims

/-- The operand lies in memory. -/
def VOpnd.inMemory : VOpnd → Bool
  | .mem _ => true
  | _ => false

/-- Element e of an operand as core x holds it, in the operand's format, with the flags of its conversion (R103). -/
def VRole.element (r : VRole) (x : Core) (e : Nat) : Nat × Flags :=
  match r.op with
  | .ptr _ row => (ofLe (x.ocBytes ((row * 64 + e * r.size) % ocSize) r.size), 0)
  | .mem a => (lineGet (x.l1Line ((x.l1Find (a.toNat / 128)).getD 0)).data (a.toNat % 128 + e * r.size) r.size, 0)
  | .desc d =>
    let b := ofLe (x.ocBytes (d.place 0 e).1 (elemBits d.fmt / 8))
    if d.fmt = r.fmt then (b, 0) else encodeElem r.fmt x.vrm (decodeElem d.fmt b)

/-- The elements of result e, packed, with the flags of all (R103). -/
def VRole.value (r : VRole) (x : Core) (e : Nat) : Nat × Flags :=
  let xs := (rangeFrom (e * r.per) r.per).map (r.element x)
  (packBits (elemBits r.fmt) (xs.map (·.1)), xs.foldl (fun f x => f ||| x.2) 0)

/-- An operand of n elements that core k can use without a fault: a pointer; a descriptor of unscaled elements in the operand cache; or
elements of one line that its L1 holds. -/
def VRole.Sound (r : VRole) (s : State) (k n : Nat) : Prop :=
  match r.op with
  | .ptr _ _ => True
  | .mem a => r.per = 1 ∧ 0 < r.size ∧ a.toNat % r.size = 0 ∧ a.toNat % 128 + n * r.size ≤ 128 ∧ (∃ key, l1Hit s k a key)
      ∧ s.armed.get [] (unitOfKey k) = []
  | .desc d => d.space = 1 ∧ d.malformed = false ∧ d.scaled = false

/-- What the reads of some operands may have changed: with none of them in memory, nothing. -/
def Gathered (rs : List VRole) (k : Nat) (s t : State) : Prop :=
  Seen k s t ∧ ((∀ r ∈ rs, r.op.inMemory = false) → t = s)

theorem Gathered.refl (rs : List VRole) (k : Nat) (s : State) : Gathered rs k s s := ⟨.refl k s, fun _ => rfl⟩

/-- An access to memory after those reads. -/
theorem Gathered.seen {rs : List VRole} {k : Nat} {s t u : State} (h : Gathered rs k s t) (htu : Seen k t u)
    (hmem : ∃ r ∈ rs, r.op.inMemory = true) : Gathered rs k s u := by
  obtain ⟨hseen, -⟩ := h
  obtain ⟨r, hr, hin⟩ := hmem
  exact ⟨hseen.trans htu, fun hnone => absurd (hin.symm.trans (hnone r hr)) (by decide)⟩

section
variable {k : Nat} {s t : State} (h : Seen k s t)
include h

theorem Seen.ocBad : (t.core k).ocBad = (s.core k).ocBad := by
  obtain ⟨-, hcore, -⟩ := h
  rw [hcore]
theorem Seen.ocBytes (a n : Nat) : (t.core k).ocBytes a n = (s.core k).ocBytes a n := by
  obtain ⟨-, hcore, -⟩ := h
  rw [hcore]
  rfl
theorem Seen.sr (n : Nat) : (t.core k).sr n = (s.core k).sr n := by
  obtain ⟨-, hcore, -⟩ := h
  rw [hcore]
  rfl

end

/-- The size of an unscaled element, in bytes. -/
theorem elemBits_unscaled {fmt : Nat} (h : blockScaled fmt = false) : 8 * (elemBits fmt / 8) = elemBits fmt ∧ 8 ≤ elemBits fmt := by
  have hlt : fmt < 7 := by simpa [blockScaled] using h
  have hall : ∀ f < 7, 8 * (elemBits f / 8) = elemBits f ∧ 8 ≤ elemBits f := by decide
  exact hall fmt hlt

/-- An unscaled element of at least a byte begins at one (R132). -/
theorem offBits_unscaled {d : Desc} (h : d.scaled = false) (e : Nat) : d.offBits e % 8 = 0 := by
  obtain ⟨hbits, hle⟩ := elemBits_unscaled (fmt := d.fmt) h
  obtain ⟨m, hm⟩ : (8 : Int) ∣ (d.bits : Int) := ⟨_, by rw [Desc.bits, ← hbits]; push_cast; rfl⟩
  refine Int.emod_eq_zero_of_dvd (dvd_add ?_ (dvd_mul_right ..))
  by_cases hb32 : d.b32 = true
  · rw [if_pos hb32]
    refine dvd_add (dvd_mul_right ..) ?_
    rw [Nat.cast_mul, hm]
    exact Dvd.dvd.mul_left (dvd_mul_right ..) _
  · rw [if_neg hb32, if_pos ⟨hle, by rw [h]; rfl⟩]
    exact dvd_add (dvd_mul_right ..) (dvd_mul_right ..)

theorem place_unscaled {d : Desc} (h : d.scaled = false) (e : Nat) : (d.place 0 e).2 = 0 := by
  simp only [Desc.place, offBits_unscaled h]
  split <;> rfl

theorem ocBytes_lt (x : Core) (a n : Nat) : ofLe (x.ocBytes a n) < 2 ^ (8 * n) := by
  have h := ofLe_lt (x.ocBytes a n)
  rwa [show (x.ocBytes a n).length = n by simp [Core.ocBytes, rangeFrom]] at h

/-- The bits of an unscaled element of the operand cache (R132, R198). -/
theorem readElem_unscaled {d : Desc} {k : Nat} {s : State} (hspace : d.space = 1) (h : d.scaled = false)
    (hbad : (s.core k).ocBad = []) (p : MemPort) (e : Nat) :
    (d.readElem k p 0 e).run s = .ok (ofLe ((s.core k).ocBytes (d.place 0 e).1 (elemBits d.fmt / 8)), 127) s := by
  obtain ⟨hbits, -⟩ := elemBits_unscaled (fmt := d.fmt) h
  have hplace : d.place 0 e = ((d.place 0 e).1, 0) := Prod.ext rfl (place_unscaled h e)
  have hsize : (0 + d.bits + 7) / 8 = elemBits d.fmt / 8 := by
    rw [Desc.bits]
    omega
  have hlt := ocBytes_lt (s.core k) (d.place 0 e).1 (elemBits d.fmt / 8)
  rw [hbits] at hlt
  have hread : (d.readBits k p 0 e).run s = .ok (ofLe ((s.core k).ocBytes (d.place 0 e).1 (elemBits d.fmt / 8))) s := by
    rw [Desc.readBits, hplace]
    simp only [hspace, if_true, hsize]
    rw [map_eq_pure_bind, bind_assoc, run_bind_ok (ocRead_sound hbad ..), pure_bind, run_pure, Nat.shiftRight_zero, Desc.bits,
      Nat.mod_eq_of_lt hlt]
  rw [Desc.readElem, run_bind_ok hread, Desc.readScale, h]
  rfl

theorem valueOf_unscaled {fmt : Nat} (h : blockScaled fmt = false) (b x : Nat) : valueOf fmt (b, x) = decodeElem fmt b := by
  rw [valueOf, h]
  rfl

/-- A result has one element of an operand in memory. -/
theorem Sound.per_of_inMemory {r : VRole} {s : State} {k n : Nat} (hs : r.Sound s k n) (hin : r.op.inMemory = true) : r.per = 1 := by
  obtain ⟨op, fmt, per⟩ := r
  cases op with
  | mem a => exact hs.1
  | ptr q row => contradiction
  | desc d => contradiction

section
variable {rs : List VRole} {r : VRole} {s t : State} {k n e : Nat} (hr : r ∈ rs) (hs : r.Sound s k n)
  (hbad : (s.core k).ocBad = []) (ht : Gathered rs k s t)
include hr hs ht

include hbad in
/-- One element of a sound operand. -/
theorem readOne_ends (he : r.op.inMemory = true → e < n) :
    Ends (r.readOne k (l1Port k (s.core k).level) (s.core k).vrm e) t
      fun b u => b = r.element (s.core k) e ∧ Gathered rs k s u := by
  have hbad' := (Seen.ocBad ht.1).trans hbad
  obtain ⟨op, fmt, per⟩ := r
  cases op with
  | ptr q row =>
    refine .bind_run (ocRead_sound hbad' ..) (.of_run rfl ⟨?_, ht⟩)
    rw [Seen.ocBytes ht.1]
    rfl
  | mem a =>
    obtain ⟨-, hsize, -, hfit, ⟨key, hit⟩, -⟩ := hs
    generalize hz : VRole.size { op := .mem a, fmt := fmt, per := per } = z at hsize hfit
    have hle : e * z + z ≤ n * z := by
      rw [← Nat.succ_mul]
      exact Nat.mul_le_mul_right _ (he rfl)
    have hit' := l1Hit_within (l1Hit_seen hit ht.1) (i := e * z) (by omega)
    have haddr := toNat_add_w64 (l1Hit_low hit) (i := e * z) (by omega)
    have hload := load_hit hit' (n := z) (by omega)
    have hlevel : (s.core k).level = .m := l1Hit_level hit
    rw [hlevel]
    dsimp only [VRole.readOne, VRole.element]
    rw [hz]
    refine .bind_run hload (.of_run rfl ⟨?_, ht.seen (seen_l1Touch hit') ⟨_, hr, rfl⟩⟩)
    obtain ⟨-, -, hline⟩ := ht.1
    obtain ⟨u, hu⟩ := hline key
    have hfind : (s.core k).l1Find (a.toNat / 128) = some key := l1Hit_find hit
    rw [hu, hfind, haddr, Option.getD_some, show (a.toNat + e * z) % 128 = a.toNat % 128 + e * z by omega]
  | desc d =>
    obtain ⟨hspace, -, hscaled⟩ := hs
    refine .bind_run (readElem_unscaled hspace hscaled hbad' ..) (.of_run rfl ⟨?_, ht⟩)
    rw [valueOf_unscaled hscaled, Seen.ocBytes ht.1]
    rfl

include hbad in
/-- The elements of one result. -/
theorem read_ends (he : r.op.inMemory = true → e < n) :
    Ends (r.read k (l1Port k (s.core k).level) (s.core k).vrm e) t
      fun b u => b = r.value (s.core k) e ∧ Gathered rs k s u := by
  refine (Ends.collect (r.element (s.core k)) ht fun e' he' u hu => readOne_ends hr hs hbad hu fun hin => ?_).bind
    fun xs u ⟨hxs, hu⟩ => .of_run rfl ⟨by rw [hxs]; rfl, hu⟩
  have hper := Sound.per_of_inMemory hs hin
  rw [hper] at he'
  obtain ⟨i, hi, rfl⟩ := List.mem_map.mp he'
  have := he hin
  have := List.mem_range.mp hi
  omega

omit hr in
/-- The check of a granule's elements finds nothing to fault. -/
theorem check_ends {acc : Acc} (hacc : acc = .load ∨ acc = .store) {es : List Nat} (hes : ∀ e ∈ es, e < n) :
    Ends (r.check (l1Port k (s.core k).level) acc es) t fun _ u => u = t := by
  obtain ⟨op, fmt, per⟩ := r
  cases op with
  | ptr q row => exact .of_run rfl rfl
  | mem a =>
    obtain ⟨hper, hsize, -, hfit, ⟨key, hit⟩, harm⟩ := hs
    have hlevel : (s.core k).level = .m := l1Hit_level hit
    have harm' : t.armed.get [] (unitOfKey k) = [] := by rw [ht.1.armed]; exact harm
    rw [hlevel]
    refine Ends.forEach (I := fun u => u = t) rfl fun e he u hu => ?_
    rw [hu]
    generalize hz : VRole.size { op := .mem a, fmt := fmt, per := per } = z at hsize hfit
    have hle : e * z + z ≤ n * z := by
      rw [← Nat.succ_mul]
      exact Nat.mul_le_mul_right _ (hes e he)
    have hit' := l1Hit_within (l1Hit_seen hit ht.1) (i := e * z) (by omega)
    have haddr := toNat_add_w64 (l1Hit_low hit) (i := e * z) (by omega)
    dsimp only at hper
    rw [hper, Nat.mul_one, Nat.one_mul]
    exact .of_run (see_hit hit' harm' (by omega) hacc) rfl
  | desc d =>
    obtain ⟨hspace, -, hscaled⟩ := hs
    dsimp only [VRole.check]
    rw [Desc.check, hspace]
    exact .of_run rfl rfl

end

end Sys2Proof.Machine
end

section
/-! SUPPORT. One granule of a vector instruction: what it gathers from sound operands, and what it commits (R90, R101, R118, R125). -/

namespace Sys2Proof.Machine
open Sys2Proof Sys2Proof.Claims

/-- The bit of a mask register for an element (R101). -/
def Core.maskBit (x : Core) (m e : Nat) : Bool := (ofLe (x.ocBytes (x.maskAddr m e) 1)).testBit (e % 8)

theorem readMask_sound {k : Nat} {s : State} (hbad : (s.core k).ocBad = []) (m e : Nat) :
    (readMask k m e).run s = .ok ((s.core k).maskBit m e) s := by
  rw [readMask, run_getC_bind, run_bind_ok (ocRead_sound hbad ..)]
  rfl

theorem Seen.maskBit {k : Nat} {s t : State} (h : Seen k s t) (m e : Nat) : (t.core k).maskBit m e = (s.core k).maskBit m e := by
  simp only [Core.maskBit, Core.maskAddr, Core.rowBase, h.ocBytes, h.sr]

/-- The elements of the granule at g that the governing mask leaves on (R101). -/
def VJob.onElems (j : VJob) (x : Core) (g : Nat) : List Nat :=
  (rangeFrom g (min 64 (j.n - g))).filter fun e => j.gmask == 0 || x.maskBit j.gmask e

/-- What the lane of element e is given, and the flags of its operands' conversions. -/
def VJob.laneIn (j : VJob) (x : Core) (e : Nat) : List Nat × Flags :=
  let vs := j.srcs.map fun r => r.value x e
  (vs.map (·.1) ++ (if j.sel = 0 then [] else [b2n (x.maskBit j.sel e)]), vs.foldl (fun f v => f ||| v.2) 0)

/-- The results of some elements. -/
def VJob.results (j : VJob) (x : Core) (es : List Nat) : List (Nat × Nat) := es.map fun e => (e, (j.lane (j.laneIn x e).1).1)

/-- The flags of the conversions and lanes of some elements (R122). -/
def VJob.flags (j : VJob) (x : Core) (es : List Nat) : Flags :=
  es.foldl (fun f e => f ||| (j.lane (j.laneIn x e).1).2) (es.foldl (fun f e => f ||| (j.laneIn x e).2) 0)

/-- The format of what a tap folds. -/
def VJob.tapFmt (j : VJob) : Nat := (j.dst.orElse fun _ => j.srcs.head?).elim 0 (·.fmt)

/-- The reads of the governing mask. -/
def VJob.maskReads (j : VJob) (k : Nat) (es : List Nat) : M (List (Nat × Bool)) :=
  if j.gmask = 0 then pure (es.map fun e => (e, true)) else collect es fun e => do return (e, ← readMask k j.gmask e)

/-- The reads of some elements' lane inputs. -/
def VJob.gather (j : VJob) (k : Nat) (p : MemPort) (rm : RMode) (es : List Nat) : M (List (Nat × List Nat × Flags)) :=
  collect es fun e => do
    let xs ← collect j.srcs fun r => r.read k p rm e
    let sel ← if j.sel = 0 then pure [] else (fun b => [b2n b]) <$> readMask k j.sel e
    return (e, xs.map (·.1) ++ sel, xs.foldl (fun f x => f ||| x.2) (0 : Flags))

/-- The writes of some results: of the destination's elements, or of a mask's bits. -/
def VJob.writes (j : VJob) (k : Nat) (p : MemPort) (rm : RMode) (out : List (Nat × Nat)) : M (List Put × Flags) :=
  j.dst.elim
    (j.mdst.elim (pure ([], 0)) fun m => do return ([(← getC k).putMask m (out.map fun o => (o.1, o.2 != 0))], 0))
    fun r => r.put k p rm out

/-- The core after the tap of a granule (R118, R119). -/
def VJob.tapped (j : VJob) (g : Nat) (out : List (Nat × Nat)) (c : Core) : Core :=
  j.fold.elim c fun f =>
    let r := c.raccFold f.1 f.2 (foldLanes f.1 j.tapFmt g out)
    r.1.orVflags r.2

/-- What a granule does with its results, their writes and their flags. -/
def VJob.commit (j : VJob) (k g : Nat) (p : MemPort) (out : List (Nat × Nat)) (ws : List Put) (fl : Flags) : M Unit := do
  p.putAll k ws
  modC k fun c => c.orVflags fl
  j.fold.elim (pure ()) fun _ => modC k (j.tapped g out)

/-- The start of a granule, before its reads: the masks and the checks (R101, R125). -/
def VJob.starts (j : VJob) (k g : Nat) (rest : Core → List Nat → M Unit) : M Unit := do
  let c ← getC k
  let on ← j.maskReads k (rangeFrom g (min 64 (j.n - g)))
  let es := (on.filter (·.2)).map (·.1)
  forEach j.srcs fun r => r.check (l1Port k c.level) .load es
  j.dst.elim (pure ()) fun r => r.check (l1Port k c.level) .store (r.reach es)
  rest c es

/-- A granule of an instruction that is no mask logic and copies no bits: the lane inputs, the lanes, the writes (the pseudocode after
R113). -/
theorem granule_eq {j : VJob} (hlogic : j.logic = []) (hcopy : j.copy = false) (k g : Nat) :
    j.granule k g = j.starts k g (fun c es => do
      let ins ← j.gather k (l1Port k c.level) c.vrm es
      let outs := ins.map fun i => (i.1, j.lane i.2.1)
      let out := outs.map fun o => (o.1, o.2.1)
      let w ← j.writes k (l1Port k c.level) c.vrm out
      j.commit k g (l1Port k c.level) out w.1
        (outs.foldl (fun f o => f ||| o.2.2) (ins.foldl (fun f i => f ||| i.2.2) (0 : Flags)) ||| w.2)) := by
  obtain ⟨n, srcs, dst, gmask, sel, mdst, masks, logic, packed, fold, copy, lane⟩ := j
  dsimp only at hlogic hcopy
  subst hlogic hcopy
  simp only [VJob.granule, VJob.starts, VJob.maskReads, VJob.gather, VJob.writes, VJob.commit]
  split_ifs <;> cases dst <;> cases mdst <;> cases fold <;>
    simp only [bind_assoc, pure_bind, Option.elim_none, Option.elim_some] <;> rfl

theorem filter_map_marked {α : Type} (l : List α) (p : α → Bool) : ((l.map fun a => (a, p a)).filter (·.2)).map (·.1) = l.filter p := by
  induction l with
  | nil => rfl
  | cons a l ih => cases h : p a <;> simp_all

section
variable {j : VJob} {k g : Nat} {s : State}

/-- The writes of a granule, then its flags in VFLAGS, then its tap. -/
theorem commit_ends {p : MemPort} {out : List (Nat × Nat)} {ws : List Put} {fl : Flags} {P : State → Prop}
    (hput : Ends (p.putAll k ws) s fun _ u => P u) :
    Ends (j.commit k g p out ws fl) s fun _ t => ∃ u, P u ∧ t = { u with cores := t.cores }
      ∧ t.core k = j.tapped g out ((u.core k).orVflags fl) := by
  refine hput.bind fun _ u hu => ?_
  cases hfold : j.fold with
  | none =>
    refine .of_run rfl ⟨u, hu, rfl, ?_⟩
    rw [VJob.tapped, hfold]
    exact State.core_updCore_same ..
  | some f =>
    refine .of_run rfl ⟨u, hu, rfl, ?_⟩
    rw [State.core_updCore_same, State.core_updCore_same]

theorem onElems_lt {x : Core} {e : Nat} (he : e ∈ j.onElems x g) : e < j.n := by
  obtain ⟨i, hi, rfl⟩ := List.mem_map.mp (List.mem_filter.mp he).1
  have := List.mem_range.mp hi
  omega

variable (hbad : (s.core k).ocBad = [])
include hbad

theorem maskReads_ends :
    Ends (j.maskReads k (rangeFrom g (min 64 (j.n - g)))) s
      fun on t => (on.filter (·.2)).map (·.1) = j.onElems (s.core k) g ∧ t = s := by
  rw [VJob.maskReads, VJob.onElems]
  split_ifs with hmask
  · refine .of_run rfl ⟨?_, rfl⟩
    rw [filter_map_marked _ fun _ => true, hmask]
    rfl
  · have hmask' : (j.gmask == 0) = false := beq_eq_false_iff_ne.mpr hmask
    refine (Ends.collect (I := fun t => t = s) (fun e => (e, (s.core k).maskBit j.gmask e)) rfl fun e _ u hu => ?_).mono
      fun on t ⟨hon, ht⟩ => ⟨?_, ht⟩
    · rw [hu]
      exact .bind_run (readMask_sound hbad ..) (.of_run rfl ⟨rfl, rfl⟩)
    · rw [hon, filter_map_marked]
      simp only [hmask', Bool.false_or]

variable (hsound : ∀ r ∈ j.roles, r.Sound s k j.n)
include hsound

theorem gather_ends {es : List Nat} (hes : ∀ e ∈ es, e < j.n) :
    Ends (j.gather k (l1Port k (s.core k).level) (s.core k).vrm es) s
      fun ins t => ins = es.map (fun e => (e, j.laneIn (s.core k) e)) ∧ Gathered j.roles k s t := by
  refine Ends.collect (fun e => (e, j.laneIn (s.core k) e)) (.refl ..) fun e he t ht => ?_
  refine (Ends.collect (fun r : VRole => r.value (s.core k) e) ht fun r hr u hu => ?_).bind fun xs u ⟨hxs, hu⟩ => ?_
  · exact read_ends (List.mem_append_right _ hr) (hsound r (List.mem_append_right _ hr)) hbad hu fun _ => hes e he
  · split_ifs with hsel
    · refine .bind_run (run_pure ..) (.of_run rfl ⟨?_, hu⟩)
      rw [hxs, VJob.laneIn, if_pos hsel]
    · have hread := readMask_sound (hu.1.ocBad.trans hbad) j.sel e
      rw [map_eq_pure_bind]
      refine .bind_run ((run_bind_ok hread).trans (run_pure ..)) (.of_run rfl ⟨?_, hu⟩)
      rw [hxs, VJob.laneIn, if_neg hsel, hu.1.maskBit]

/-- On sound operands a granule starts, for the elements that are on. -/
theorem starts_ends (hreach : ∀ r ∈ j.dst, r.reach (j.onElems (s.core k) g) = j.onElems (s.core k) g) {Q : Unit → State → Prop}
    {rest : Core → List Nat → M Unit} (hrest : Ends (rest (s.core k) (j.onElems (s.core k) g)) s Q) : Ends (j.starts k g rest) s Q := by
  refine .bind_run (a := s.core k) rfl ?_
  refine (maskReads_ends hbad).bind fun on t ⟨hon, ht⟩ => ?_
  subst ht
  dsimp only
  rw [hon]
  refine Ends.bind (P := fun _ u => u = t) ?_ fun _ u hu => ?_
  · refine Ends.forEach (I := fun u => u = t) rfl fun r hr u hu => ?_
    subst hu
    exact check_ends (hsound r (List.mem_append_right _ hr)) (.refl j.roles k _) (.inl rfl) fun e he => onElems_lt he
  subst hu
  refine Ends.bind (P := fun _ v => v = u) ?_ fun _ v hv => ?_
  · cases hdst : j.dst with
    | none => exact .of_run rfl rfl
    | some r =>
      rw [Option.elim_some, hreach r hdst]
      have hr : r ∈ j.roles := List.mem_append_left _ (by rw [hdst]; exact List.mem_singleton_self r)
      exact check_ends (hsound r hr) (.refl j.roles k u) (.inr rfl) fun e he => onElems_lt he
  subst hv
  exact hrest

/-- What a granule leaves, from what its writes leave: their flags and those of the lanes ORed into VFLAGS, then the tap. -/
theorem granule_ends (hlogic : j.logic = []) (hcopy : j.copy = false)
    (hreach : ∀ r ∈ j.dst, r.reach (j.onElems (s.core k) g) = j.onElems (s.core k) g) {P : Flags → State → Prop}
    (hput : ∀ t, Gathered j.roles k s t →
      Ends (j.writes k (l1Port k (s.core k).level) (s.core k).vrm (j.results (s.core k) (j.onElems (s.core k) g))) t fun w t' =>
        Ends ((l1Port k (s.core k).level).putAll k w.1) t' fun _ u => P w.2 u) :
    Ends (j.granule k g) s fun _ t => ∃ f u, P f u ∧ t = { u with cores := t.cores }
      ∧ t.core k = j.tapped g (j.results (s.core k) (j.onElems (s.core k) g))
          ((u.core k).orVflags (j.flags (s.core k) (j.onElems (s.core k) g) ||| f)) := by
  rw [granule_eq hlogic hcopy]
  refine starts_ends hbad hsound hreach ?_
  refine (gather_ends hbad hsound fun e he => onElems_lt he).bind fun ins t ⟨hins, ht⟩ => ?_
  subst hins
  have hout : ((((j.onElems (s.core k) g).map fun e => (e, j.laneIn (s.core k) e)).map fun i => (i.1, j.lane i.2.1)).map
      fun o => (o.1, o.2.1)) = j.results (s.core k) (j.onElems (s.core k) g) := by
    simp only [List.map_map, VJob.results, Function.comp_def]
  have hflags : ((((j.onElems (s.core k) g).map fun e => (e, j.laneIn (s.core k) e)).map fun i => (i.1, j.lane i.2.1)).foldl
      (fun f o => f ||| o.2.2) (((j.onElems (s.core k) g).map fun e => (e, j.laneIn (s.core k) e)).foldl (fun f i => f ||| i.2.2) (0 : Flags)))
        = j.flags (s.core k) (j.onElems (s.core k) g) := by
    simp only [List.foldl_map, VJob.flags]
  dsimp only
  rw [hout, hflags]
  exact (hput t ht).bind fun w t' hw => (commit_ends hw).mono fun _ v ⟨u, hu, hv⟩ => ⟨w.2, u, hu, hv⟩

end

end Sys2Proof.Machine
end

section
/-! SUPPORT. The writes of a granule: to the operand cache through a pointer, a descriptor or a mask, and to a line of L1 (R90, R101,
R104). -/

namespace Sys2Proof.Machine
open Sys2Proof Sys2Proof.Claims

/-- The operand-cache address of element e of an operand. -/
def VRole.addr (r : VRole) (e : Nat) : Nat :=
  match r.op with
  | .ptr _ row => row * 64 + e * r.size
  | .desc d => (d.place 0 e).1
  | .mem _ => 0

/-- Bytes of an element where the operand holds it. -/
def VRole.width (r : VRole) : Nat :=
  match r.op with
  | .desc d => elemBits d.fmt / 8
  | _ => r.size

/-- The bits of a result where the operand holds it, with the flags of the conversion (R103, R104). -/
def VRole.encoded (r : VRole) (rm : RMode) (v : Nat) : Nat × Flags :=
  match r.op with
  | .desc d => if d.fmt = r.fmt then (v, 0) else encodeElem d.fmt rm (decodeElem r.fmt v)
  | _ => (v, 0)

/-- All of some writes are to the operand cache, of these bytes. -/
def OcOnly (ws : List Put) (bs : List OcByte) : Prop := (∀ w ∈ ws, ∃ b, w = .oc b) ∧ ws.flatMap Put.ocPart = bs

theorem OcOnly.map {α : Type} (l : List α) (f : α → List OcByte) : OcOnly (l.map fun a => .oc (f a)) (l.flatMap f) := by
  refine ⟨fun w hw => ?_, ?_⟩
  · obtain ⟨a, -, rfl⟩ := List.mem_map.mp hw
    exact ⟨_, rfl⟩
  · rw [List.flatMap_map]
    rfl

/-- The write of an unscaled element of the operand cache. -/
theorem putElem_unscaled {d : Desc} (hspace : d.space = 1) (h : d.scaled = false) (e v : Nat) :
    d.putElem 0 e v = .oc (ocBytesAt (d.place 0 e).1 (leBytes (elemBits d.fmt / 8) v)) := by
  obtain ⟨hbits, -⟩ := elemBits_unscaled (fmt := d.fmt) h
  have hspan : d.span 0 e = ((d.place 0 e).1, elemBits d.fmt / 8) := by
    refine Prod.ext rfl ?_
    show ((d.place 0 e).2 + d.bits + 7) / 8 = _
    rw [place_unscaled h, Desc.bits]
    omega
  rw [Desc.putElem, hspan]
  exact if_pos hspace

section
variable {r : VRole} {s t : State} {k n : Nat}

/-- The writes of results to an operand that is not in memory. -/
theorem put_ends (hs : r.Sound s k n) (hmem : r.op.inMemory = false) (p : MemPort) (rm : RMode) (out : List (Nat × Nat)) :
    Ends (r.put k p rm out) t fun w u => u = t
      ∧ OcOnly w.1 (elemBytes r.addr r.width (out.map fun o => (o.1, (r.encoded rm o.2).1)))
      ∧ w.2 = out.foldl (fun f o => f ||| (r.encoded rm o.2).2) 0 := by
  obtain ⟨op, fmt, per⟩ := r
  cases op with
  | mem a => contradiction
  | ptr q row =>
    refine .of_run rfl ⟨rfl, ?_, ?_⟩
    · rw [elemBytes, List.flatMap_map]
      exact OcOnly.map ..
    · show 0 = out.foldl (fun f _ => f ||| 0) 0
      simp
  | desc d =>
    obtain ⟨hspace, -, hscaled⟩ := hs
    have hput : VRole.put ⟨.desc d, fmt, per⟩ k p rm out = pure (joinPuts (out.map fun o =>
        ([d.putElem 0 o.1 (VRole.encoded ⟨.desc d, fmt, per⟩ rm o.2).1], (VRole.encoded ⟨.desc d, fmt, per⟩ rm o.2).2))) := by
      dsimp only [VRole.put]
      rw [hscaled]
      rfl
    rw [hput]
    refine .of_run rfl ⟨rfl, ?_, ?_⟩
    · rw [joinPuts, List.flatMap_map, ← List.map_eq_flatMap, elemBytes, List.flatMap_map]
      simp only [putElem_unscaled hspace hscaled]
      exact OcOnly.map ..
    · rw [joinPuts, List.foldl_map]

end

/-- The operand-cache writes of a granule change its bytes alone. -/
theorem putAll_oc {k : Nat} {t : State} {ws : List Put} {bs : List OcByte} (hws : OcOnly ws bs)
    (harm : ∀ a ∈ t.armed.get [] (unitOfKey k), a.num ≠ 0x0104) (hbad : (t.core k).ocBad = []) (p : MemPort) :
    Ends (p.putAll k ws) t fun _ u => u = { t with cores := u.cores }
      ∧ u.core k = { t.core k with oc := putBytes (t.core k).oc bs } := by
  obtain ⟨hoc, rfl⟩ := hws
  refine Ends.bind (P := fun _ u => u = t) (Ends.forEach (I := fun u => u = t) rfl fun w hw u hu => ?_) fun _ u hu => ?_
  · obtain ⟨b, rfl⟩ := hoc w hw
    exact .of_run rfl hu
  · subst hu
    dsimp only
    split_ifs with hnone
    · refine .of_run rfl ⟨rfl, ?_⟩
      rw [List.isEmpty_iff.mp hnone]
      rfl
    · refine .of_run (t := u.ocStore k (ws.flatMap Put.ocPart)) rfl ?_
      rw [ocStore_sound _ harm hbad, State.core_updCore_same]
      exact ⟨rfl, by rw [hbad]⟩

/-- The stores of results to the elements of a line that L1 holds. -/
theorem putAll_line {k key n z : Nat} {t : State} {a : W64} (hit : l1Hit t k a key) (harm : t.armed.get [] (unitOfKey k) = [])
    (hz : 0 < z) (hfit : a.toNat % 128 + n * z ≤ 128) {out : List (Nat × Nat)} (hlt : ∀ o ∈ out, o.1 < n)
    (hdistinct : (out.map (·.1)).Nodup) :
    Ends ((l1Port k .m).putAll k (out.map fun o => .mem (a + w64 (o.1 * z)) z o.2)) t fun _ u => ∃ data, Wrote k key t u data
      ∧ (∀ o ∈ out, lineGet data (a.toNat % 128 + o.1 * z) z = o.2 % 2 ^ (8 * z))
      ∧ ∀ e < n, e ∉ out.map (·.1) →
          lineGet data (a.toNat % 128 + e * z) z = lineGet ((t.core k).l1Line key).data (a.toNat % 128 + e * z) z := by
  suffices hstores : Ends (forEach (out.map fun o => Put.mem (a + w64 (o.1 * z)) z o.2) fun
      | .mem va n v => (l1Port k .m).store va n v
      | .oc _ => pure ()) t fun _ u => ∃ data, Wrote k key t u data
        ∧ (∀ o ∈ out, lineGet data (a.toNat % 128 + o.1 * z) z = o.2 % 2 ^ (8 * z))
        ∧ ∀ e < n, e ∉ out.map (·.1) →
            lineGet data (a.toNat % 128 + e * z) z = lineGet ((t.core k).l1Line key).data (a.toNat % 128 + e * z) z by
    have hnone : (out.map fun o => Put.mem (a + w64 (o.1 * z)) z o.2).flatMap Put.ocPart = [] := by
      rw [List.flatMap_map, List.flatMap_eq_nil_iff]
      exact fun _ _ => rfl
    refine hstores.bind fun _ u hu => ?_
    dsimp only
    rw [hnone]
    exact .of_run rfl hu
  have hspan : ∀ e < n, e * z + z ≤ n * z := fun e he => by
    rw [← Nat.succ_mul]
    exact Nat.mul_le_mul_right _ he
  induction out generalizing t with
  | nil =>
    obtain ⟨herr, hpoison⟩ := l1Hit_clean hit
    exact .of_run rfl ⟨_, ⟨rfl, rfl, fun _ => ⟨rfl, rfl⟩, herr, hpoison, rfl⟩, by simp, fun _ _ _ => rfl⟩
  | cons o out ih =>
    have ho := hspan o.1 (hlt o (List.mem_cons_self ..))
    obtain ⟨hnotin, hdistinct⟩ := List.nodup_cons.mp hdistinct
    have hit' := l1Hit_within hit (i := o.1 * z) (by omega)
    have haddr := toNat_add_w64 (l1Hit_low hit) (i := o.1 * z) (by omega)
    have hoff : (a + w64 (o.1 * z)).toNat % 128 = a.toNat % 128 + o.1 * z := by omega
    refine (store_hit hit' harm (n := z) (by omega) o.2).bind fun _ u hu => ?_
    rw [hoff] at hu
    have harm' : u.armed.get [] (unitOfKey k) = [] := by rw [hu.armed]; exact harm
    refine (ih (hu.l1Hit hit) harm' (fun p hp => hlt p (List.mem_cons_of_mem _ hp)) hdistinct).mono
      fun _ v ⟨data, hv, hsame, hother⟩ => ⟨data, hu.trans hv, fun p hp => ?_, fun e he hne => ?_⟩
    · rcases List.mem_cons.mp hp with rfl | hp
      · rw [hother p.1 (hlt p (List.mem_cons_self ..)) hnotin, hu.line]
        exact lineGet_merge_same hz (by omega)
      · exact hsame p hp
    · have hne' : e ≠ o.1 := fun h => hne (by rw [h]; exact List.mem_cons_self ..)
      have he' := hspan e he
      rw [hother e he fun h => hne (List.mem_cons_of_mem _ h), hu.line]
      refine lineGet_merge_other hz (by omega) ?_
      rcases Nat.lt_or_gt_of_ne hne' with h | h
      · have := Nat.mul_le_mul_right z h
        rw [Nat.succ_mul] at this
        omega
      · have := Nat.mul_le_mul_right z h
        rw [Nat.succ_mul] at this
        omega

end Sys2Proof.Machine
end

section
/-! SUPPORT. A decoded vector instruction from its start to its completion, where nothing stops it (R90, R91, R100, R123). -/

namespace Sys2Proof.Machine
open Sys2Proof Sys2Proof.Claims

/-! ### Completion -/

/-- Advance the row registers of some numbers (R100). -/
def Core.advance (no : Nat → Nat) (l : List Nat) (c : Core) : Core :=
  l.foldl (fun c p => c.setSr (no p) (advanceRow (c.sr (no p)))) c

/-- Each register named once has advanced once; the others stay. -/
theorem sr_advance {no : Nat → Nat} {l : List Nat} (hl : (l.map no).Nodup) (c : Core) (n : Nat) :
    (c.advance no l).sr n = if n ∈ l.map no then advanceRow (c.sr n) else c.sr n := by
  induction l generalizing c with
  | nil => rfl
  | cons p l ih =>
    obtain ⟨hp, hl⟩ := List.nodup_cons.mp hl
    show ((c.setSr (no p) (advanceRow (c.sr (no p)))).advance no l).sr n = _
    rw [ih hl, List.map_cons]
    by_cases hn : n = no p
    · subst hn
      rw [if_neg hp, if_pos (List.mem_cons_self ..), Core.sr_setSr_same]
    · rw [Core.sr_setSr_other c hn]
      simp only [List.mem_cons, hn, false_or]

theorem advance_sys (no : Nat → Nat) (l : List Nat) (c : Core) : ∃ y, c.advance no l = { c with sys := y } := by
  induction l generalizing c with
  | nil => exact ⟨c.sys, rfl⟩
  | cons p l ih =>
    obtain ⟨y, hy⟩ := ih (c.setSr (no p) (advanceRow (c.sr (no p))))
    exact ⟨y, hy⟩

/-- The pointers that an instruction names. -/
def VJob.ptrs (j : VJob) : List Nat := (j.roles.filterMap (·.op.ptr?)).dedup

/-- The core after completion (R100). -/
def VJob.completed (j : VJob) (c : Core) : Core :=
  ((c.advance pNo j.ptrs).advance maskNo j.masks.dedup).setSr vposNo 0

theorem completed_sys (j : VJob) (c : Core) : ∃ y, j.completed c = { c with sys := y } := by
  obtain ⟨y, hy⟩ := advance_sys pNo j.ptrs c
  obtain ⟨z, hz⟩ := advance_sys maskNo j.masks.dedup (c.advance pNo j.ptrs)
  rw [hy] at hz
  exact ⟨_, by rw [VJob.completed, hy, hz]; rfl⟩

theorem nodup_map_add {l : List Nat} (h : l.Nodup) (a : Nat) : (l.map (a + ·)).Nodup :=
  h.map fun _ _ hij => Nat.add_left_cancel hij

section
variable {j : VJob} (c : Core)

theorem sr_completed_vpos : (j.completed c).sr vposNo = 0 := Core.sr_setSr_same ..

/-- Any other register after completion: the advance of the pointers, then that of the masks. -/
theorem sr_completed {n : Nat} (hvpos : n ≠ vposNo) :
    (j.completed c).sr n = if n ∈ j.masks.dedup.map maskNo then advanceRow ((c.advance pNo j.ptrs).sr n)
      else if n ∈ j.ptrs.map pNo then advanceRow (c.sr n) else c.sr n := by
  have hptrs : (j.ptrs.map pNo).Nodup := nodup_map_add (List.nodup_dedup _) _
  have hmasks : (j.masks.dedup.map maskNo).Nodup := nodup_map_add (List.nodup_dedup _) _
  rw [VJob.completed, Core.sr_setSr_other _ hvpos, sr_advance hmasks, sr_advance hptrs]

/-- A pointer register after completion. -/
theorem sr_completed_ptr {p : Nat} (hp : p < 16) :
    (j.completed c).sr (pNo p) = if p ∈ j.ptrs then advanceRow (c.sr (pNo p)) else c.sr (pNo p) := by
  have hvpos : pNo p ≠ vposNo := by simp only [pNo, vposNo]; omega
  have hmask : pNo p ∉ j.masks.dedup.map maskNo := fun h => by
    obtain ⟨m, -, hpm⟩ := List.mem_map.mp h
    simp only [pNo, maskNo] at hpm
    omega
  have hmem : pNo p ∈ j.ptrs.map pNo ↔ p ∈ j.ptrs := List.mem_map_of_injective fun _ _ h => Nat.add_left_cancel h
  rw [sr_completed c hvpos, if_neg hmask]
  simp only [hmem]

/-- A mask register after completion. -/
theorem sr_completed_mask (hptrs : ∀ p ∈ j.ptrs, p < 16) {m : Nat} (hm : m < 8) :
    (j.completed c).sr (maskNo m) = if m ∈ j.masks then advanceRow (c.sr (maskNo m)) else c.sr (maskNo m) := by
  have hvpos : maskNo m ≠ vposNo := by simp only [maskNo, vposNo]; omega
  have hptr : maskNo m ∉ j.ptrs.map pNo := fun h => by
    obtain ⟨p, hp, hpm⟩ := List.mem_map.mp h
    have := hptrs p hp
    simp only [pNo, maskNo] at hpm
    omega
  have hmem : maskNo m ∈ j.masks.dedup.map maskNo ↔ m ∈ j.masks :=
    (List.mem_map_of_injective fun _ _ h => Nat.add_left_cancel h).trans List.mem_dedup
  have hstay : (c.advance pNo j.ptrs).sr (maskNo m) = c.sr (maskNo m) :=
    (sr_advance (nodup_map_add (List.nodup_dedup _) _) c _).trans (if_neg hptr)
  rw [sr_completed c hvpos, if_neg hptr, hstay]
  simp only [hmem]

/-- The registers below the pointers, other than VPOS, after completion. -/
theorem sr_completed_low {n : Nat} (hn : n < 0x080) (hvpos : n ≠ vposNo) : (j.completed c).sr n = c.sr n := by
  have hptr : n ∉ j.ptrs.map pNo := fun h => by
    obtain ⟨p, -, hp⟩ := List.mem_map.mp h
    simp only [pNo] at hp
    omega
  have hmask : n ∉ j.masks.dedup.map maskNo := fun h => by
    obtain ⟨p, -, hp⟩ := List.mem_map.mp h
    simp only [maskNo] at hp
    omega
  rw [sr_completed c hvpos, if_neg hmask, if_neg hptr]

end

/-- No flag of VFLAGS is enabled to trap (R123). -/
def Core.untrapped (c : Core) : Prop := c.sr vflagsNo &&& 0x3F00 = 0

/-- An instruction that raises no enabled flag completes without VTRAP. -/
theorem complete_run {j : VJob} {k : Nat} {s : State} (h : (s.core k).untrapped) :
    (j.complete k).run s = .ok .next (s.updCore k j.completed) := by
  have hflags : (j.completed (s.core k)).sr vflagsNo = (s.core k).sr vflagsNo := sr_completed_low _ (by decide) (by decide)
  have hnone : bitsOf ((s.core k).sr vflagsNo).toNat 21 16 &&& bitsOf ((s.core k).sr vflagsNo).toNat 13 8 = 0 := by
    have hfield : bitsOf ((s.core k).sr vflagsNo).toNat 13 8 = ((s.core k).sr vflagsNo &&& 0x3F00).toNat >>> 8 := by
      rw [bitsOf, BitVec.toNat_and, Nat.shiftRight_and_distrib, show (13 + 1 - 8 : Nat) = 6 from rfl, ← Nat.and_two_pow_sub_one_eq_mod]
      rfl
    rw [hfield, h]
    exact Nat.and_zero _
  rw [VJob.complete, run_modC_bind, run_getC_bind, State.core_updCore_same]
  show (if bitsOf ((j.completed (s.core k)).sr vflagsNo).toNat 21 16 &&& bitsOf ((j.completed (s.core k)).sr vflagsNo).toNat 13 8 = 0 then _
    else _ : M Flow).run _ = _
  rw [hflags, if_pos hnone]
  rfl

/-! ### Granules in order -/

theorem run_zero (j : VJob) (k : Nat) (pc : W64) (g : Nat) (beat : Bool) (left : Option Nat) (s : State) :
    (j.run k pc 0 g beat left).run s = .ok () s := rfl

/-- A granule that ends well, and the beat that it opens. -/
theorem run_succ {j : VJob} {k f g : Nat} {pc : W64} {beat : Bool} {s t : State} (hm : (s.core k).mchk = [])
    (hg : (j.granule k g).run s = .ok () t) :
    (j.run k pc (f + 1) g beat none).run s
      = (j.run k pc f (g + 64) (!(j.packed && beat)) none).run (if beat then t.meterBeat k else t) := by
  have htry : (tryCatch (j.granule k g) fun e => do
      modC k fun c => c.setSr vposNo (posWord pc g)
      throw e : M Unit).run s = .ok () t := by
    simp only [EStateM.run] at hg
    simp only [tryCatch, tryCatchThe, MonadExceptOf.tryCatch, EStateM.tryCatch, EStateM.run, hg]
  rw [VJob.run, run_getC_bind, hm]
  dsimp only
  rw [if_neg (by simp)]
  rw [run_bind_ok htry]
  cases beat <;> rfl

/-! ### The start of an instruction -/

/-- With no saved position an instruction starts at its first element (R91). -/
theorem posStart_zero {k no detail : Nat} {pc : W64} {s : State} (h : ((s.core k).sr no).getLsbD 63 = false) :
    (posStart k no detail pc).run s = .ok 0 s := by
  rw [posStart, run_getC_bind]
  dsimp only
  rw [BitVec.testBit_toNat, h]
  rfl

/-- With no element the instruction clears VPOS alone (R105). -/
theorem exec_zero {j : VJob} {k : Nat} {s : State} {stop : Option Nat} (hvpos : ((s.core k).sr vposNo).getLsbD 63 = false) (hn : j.n = 0) :
    (j.exec k stop).run s = .ok .next (s.updCore k fun c => c.setSr vposNo 0) := by
  rw [VJob.exec, run_getC_bind, run_bind_ok (posStart_zero hvpos), if_pos hn]
  rfl

/-- The flags that an instruction has raised, cleared at its start (R121). -/
def Core.lowered (c : Core) : Core := c.setSr vflagsNo (c.sr vflagsNo &&& ~~~(w64 0x3F0000))

/-- An instruction on sound operands, with no background work, begins its granules. -/
theorem exec_starts {j : VJob} {k : Nat} {s : State} (hvpos : ((s.core k).sr vposNo).getLsbD 63 = false) (hn : 0 < j.n)
    (hsound : ∀ r ∈ j.roles, r.Sound s k j.n) (hbg : (s.core k).bg = []) {P : State → Prop}
    (hrun : Ends (j.run k (s.core k).pc ((j.n + 63) / 64) 0 true none) (s.updCore k Core.lowered) fun _ t =>
      (t.core k).untrapped ∧ P (t.updCore k j.completed)) :
    Ends (j.exec k none) s fun f t => f = .next ∧ P t := by
  have hmeets : j.meetsTmov (s.core k) = false := by
    rw [VJob.meetsTmov, hbg]
    rfl
  rw [VJob.exec]
  refine .bind_run (a := s.core k) rfl (.bind_run (posStart_zero hvpos) ?_)
  rw [if_neg (by omega), if_neg (by omega)]
  refine (Ends.forEach (I := fun u => u = s) rfl fun r hr u hu => ?_).bind fun _ u hu => ?_
  · have hs := hsound r hr
    obtain ⟨op, fmt, per⟩ := r
    cases op with
    | ptr q row => exact .of_run rfl hu
    | mem a =>
      obtain ⟨-, -, halign, -⟩ := hs
      dsimp only
      rw [if_neg (not_not.mpr halign)]
      exact .of_run rfl hu
    | desc d => exact .of_run rfl hu
  · subst hu
    dsimp only
    rw [hmeets, hvpos]
    refine .bind_run (a := ()) rfl ?_
    have hleft : (if j.packed = true then (none : Option Nat).map fun n => (n + 1) / 2 * 2 else none) = none := ite_self _
    rw [hleft]
    refine hrun.bind fun _ t ⟨hflags, hP⟩ => .of_run (complete_run hflags) ⟨rfl, hP⟩

end Sys2Proof.Machine
end

section
/-! SUPPORT. What the granules of an instruction on pointers may change: the operand cache, VFLAGS and the accumulators (R95, R118,
R122). -/

namespace Sys2Proof.Machine
open Sys2Proof Sys2Proof.Claims

/-- A register that granules leave alone: neither VFLAGS nor an accumulator. -/
def Kept (n : Nat) : Prop := n ≠ vflagsNo ∧ (n < 0x078 ∨ 0x07C < n)

/-- A core's granules may change its operand cache, VFLAGS but for the enables, and the accumulators. -/
def Core.Worked (x y : Core) : Prop :=
  (∃ oc sys, y = { x with oc := oc, sys := sys }) ∧ (∀ n, Kept n → y.sr n = x.sr n) ∧ (x.untrapped → y.untrapped)

theorem Core.Worked.refl (x : Core) : x.Worked x := ⟨⟨x.oc, x.sys, rfl⟩, fun _ _ => rfl, id⟩

theorem Core.Worked.sr {x y : Core} (h : x.Worked y) {n : Nat} (hn : Kept n) : y.sr n = x.sr n := by
  obtain ⟨-, hsr, -⟩ := h
  exact hsr n hn

theorem Core.Worked.untrapped {x y : Core} (h : x.Worked y) (hx : x.untrapped) : y.untrapped := by
  obtain ⟨-, -, htrap⟩ := h
  exact htrap hx

theorem Core.Worked.trans {x y z : Core} (h : x.Worked y) (h' : y.Worked z) : x.Worked z := by
  obtain ⟨⟨oc, sys, rfl⟩, hsr, htrap⟩ := h
  obtain ⟨⟨oc', sys', rfl⟩, hsr', htrap'⟩ := h'
  exact ⟨⟨oc', sys', rfl⟩, fun n hn => (hsr' n hn).trans (hsr n hn), fun hx => htrap' (htrap hx)⟩

theorem Core.worked_oc (x : Core) (oc : SMap Byte) : x.Worked { x with oc := oc } := ⟨⟨oc, x.sys, rfl⟩, fun _ _ => rfl, id⟩

theorem Core.worked_orVflags (x : Core) (f : Flags) : x.Worked (x.orVflags f) := by
  refine ⟨⟨x.oc, _, rfl⟩, fun n hn => x.sr_setSr_other hn.1 _, fun hx => ?_⟩
  have hf : w64 (f.toNat * 65537) &&& 0x3F00 = 0 := by
    revert f
    decide
  rw [Core.untrapped, Core.orVflags, Core.sr_setSr_same, BitVec.and_comm, BitVec.and_or_distrib_left, BitVec.and_comm, hx,
    BitVec.and_comm, hf]
  rfl

theorem Core.worked_lowered (x : Core) : x.Worked x.lowered := by
  refine ⟨⟨x.oc, _, rfl⟩, fun n hn => x.sr_setSr_other hn.1 _, fun hx => ?_⟩
  rw [Core.untrapped, Core.lowered, Core.sr_setSr_same, BitVec.and_assoc, BitVec.and_comm (~~~_), ← BitVec.and_assoc, hx]
  exact BitVec.zero_and

theorem Core.worked_fold1 (x : Core) (op : Nat) {acc : Nat} (hacc : acc < 5) (lanes : List Nat) : x.Worked (x.fold1 op acc lanes).1 := by
  have hno : ∀ n, Kept n → n ≠ raccNo acc := fun n hn h => by
    obtain ⟨-, hlow⟩ := hn
    simp only [raccNo] at h
    omega
  refine ⟨⟨x.oc, _, rfl⟩, fun n hn => x.sr_setSr_other (hno n hn) _, fun hx => ?_⟩
  refine Eq.trans (congrArg (· &&& 0x3F00) (x.sr_setSr_other ?_ _)) hx
  simp only [vflagsNo, raccNo]
  omega

theorem Core.worked_raccFold (x : Core) (op : Nat) {acc : Nat} (hacc : acc < 4) (lanes : List Nat) :
    x.Worked (x.raccFold op acc lanes).1 := by
  rw [Core.raccFold]
  split_ifs
  · exact (x.worked_fold1 0 (by omega) lanes).trans (Core.worked_fold1 _ 1 (by omega) lanes)
  · exact x.worked_fold1 op (by omega) lanes

theorem Core.worked_tapped {j : VJob} (hacc : ∀ f ∈ j.fold, f.2 < 4) (g : Nat) (out : List (Nat × Nat)) (x : Core) :
    x.Worked (j.tapped g out x) := by
  rw [VJob.tapped]
  cases hf : j.fold with
  | none => exact .refl x
  | some f => exact (x.worked_raccFold f.1 (hacc f hf) _).trans (Core.worked_orVflags _ _)

/-- The board over the granules of core k. -/
def Worked (k : Nat) (s t : State) : Prop :=
  t.atolls = s.atolls ∧ t.dram = s.dram ∧ t.armed = s.armed ∧ (s.core k).Worked (t.core k)

theorem Worked.refl (k : Nat) (s : State) : Worked k s s := ⟨rfl, rfl, rfl, .refl _⟩
theorem Worked.trans {k : Nat} {s t u : State} (h : Worked k s t) (h' : Worked k t u) : Worked k s u := by
  obtain ⟨hatolls, hdram, harmed, hcore⟩ := h
  obtain ⟨hatolls', hdram', harmed', hcore'⟩ := h'
  exact ⟨hatolls'.trans hatolls, hdram'.trans hdram, harmed'.trans harmed, hcore.trans hcore'⟩

/-- A change of cores alone. -/
theorem Worked.of_cores {k : Nat} {s t : State} (h : t = { s with cores := t.cores }) (hcore : (s.core k).Worked (t.core k)) :
    Worked k s t := by
  refine ⟨?_, ?_, ?_, hcore⟩ <;> rw [h]

theorem worked_meterBeat (k : Nat) (s : State) : Worked k s (s.meterBeat k) := by
  rw [State.meterBeat]
  split_ifs
  · exact ⟨rfl, rfl, rfl, .refl _⟩
  · exact .refl k s

/-- An instruction whose operands are pointers, and whose tap, if it has one, names an accumulator. -/
structure VJob.OnPointers (j : VJob) : Prop where
  roles : ∀ r ∈ j.roles, ∃ q row, r.op = .ptr q row
  copy : j.copy = false
  logic : j.logic = [] ∨ ∃ m, j.mdst = some m
  fold : ∀ f ∈ j.fold, f.2 < 4

/-- A core whose operand cache holds no error and meets none. -/
def State.ocSound (s : State) (k : Nat) : Prop := (s.core k).ocBad = [] ∧ ∀ a ∈ s.armed.get [] (unitOfKey k), a.num ≠ 0x0104

theorem Worked.ocSound {k : Nat} {s t : State} (h : Worked k s t) (hs : s.ocSound k) : t.ocSound k := by
  obtain ⟨-, -, harmed, ⟨oc, sys, hcore⟩, -⟩ := h
  refine ⟨?_, harmed ▸ hs.2⟩
  rw [hcore]
  exact hs.1

section
variable {j : VJob} {k : Nat} {s : State} (hj : j.OnPointers) (hs : s.ocSound k)
include hj hs

/-- A granule of mask logic. -/
theorem worked_logic (hlogic : j.logic ≠ []) (g : Nat) : Ends (j.granule k g) s fun _ t => Worked k s t := by
  obtain ⟨m, hm⟩ := hj.logic.resolve_left hlogic
  obtain ⟨x, l, hl⟩ := List.exists_cons_of_ne_nil hlogic
  rw [VJob.granule]
  refine .bind_run (a := s.core k) rfl ?_
  rw [hl, hm]
  refine (Ends.collect (I := fun t => t = s) (fun e => (e, (j.lane (((x :: l).map fun y => (s.core k).maskBit y e).map b2n)).1 != 0))
    rfl fun e _ t ht => ?_).bind fun out t ⟨_, ht⟩ => ?_
  · subst ht
    refine (Ends.collect (I := fun u => u = t) (fun y => (t.core k).maskBit y e) rfl fun y _ u hu => ?_).bind
      fun bs u ⟨hbs, hu⟩ => .of_run rfl ⟨by rw [hbs], hu⟩
    subst hu
    exact .of_run (readMask_sound hs.1 ..) ⟨rfl, rfl⟩
  · subst ht
    refine .bind_run (a := t.core k) rfl ?_
    refine (putAll_oc ⟨fun w hw => ⟨_, List.mem_singleton.mp hw⟩, rfl⟩ hs.2 hs.1 _).mono fun _ u ⟨hu, hcore⟩ => .of_cores hu ?_
    rw [hcore]
    exact Core.worked_oc ..

/-- A granule of any other instruction on pointers. -/
theorem worked_lanes (hlogic : j.logic = []) (g : Nat) : Ends (j.granule k g) s fun _ t => Worked k s t := by
  have hsound : ∀ r ∈ j.roles, r.Sound s k j.n := fun r hr => by
    obtain ⟨q, row, hop⟩ := hj.roles r hr
    rw [VRole.Sound, hop]
    trivial
  have hnomem : ∀ r ∈ j.roles, r.op.inMemory = false := fun r hr => by
    obtain ⟨q, row, hop⟩ := hj.roles r hr
    rw [hop]
    rfl
  have hdst : ∀ r ∈ j.dst, r ∈ j.roles := fun r hr => List.mem_append_left _ (Option.mem_toList.mpr hr)
  have hreach : ∀ r ∈ j.dst, r.reach (j.onElems (s.core k) g) = j.onElems (s.core k) g := fun r hr => by
    obtain ⟨q, row, hop⟩ := hj.roles r (hdst r hr)
    rw [VRole.reach, hop]
  have hput : ∀ t, Gathered j.roles k s t →
      Ends (j.writes k (l1Port k (s.core k).level) (s.core k).vrm (j.results (s.core k) (j.onElems (s.core k) g))) t fun w t' =>
        Ends ((l1Port k (s.core k).level).putAll k w.1) t' fun _ u => Worked k s u := by
    intro t ht
    have hts := ht.2 hnomem
    subst hts
    have hworked : ∀ {ws bs}, OcOnly ws bs → Ends ((l1Port k (t.core k).level).putAll k ws) t fun _ u => Worked k t u := fun hws =>
      (putAll_oc hws hs.2 hs.1 _).mono fun _ u ⟨hu, hcore⟩ => .of_cores hu (hcore ▸ Core.worked_oc ..)
    rw [VJob.writes]
    cases hd : j.dst with
    | some r =>
      refine (put_ends (hsound r (hdst r hd)) (hnomem r (hdst r hd)) _ _ _).mono fun w u ⟨hu, hws, _⟩ => ?_
      subst hu
      exact hworked hws
    | none =>
      cases j.mdst with
      | none => exact .of_run rfl (hworked ⟨fun w hw => absurd hw (List.not_mem_nil), rfl⟩)
      | some m => exact .of_run rfl (hworked ⟨fun w hw => ⟨_, List.mem_singleton.mp hw⟩, rfl⟩)
  refine (granule_ends hs.1 hsound hlogic hj.copy hreach (P := fun _ u => Worked k s u) hput).mono fun _ t ⟨f, u, hu, htu, hcore⟩ => ?_
  refine hu.trans (.of_cores htu ?_)
  rw [hcore]
  exact (Core.worked_orVflags _ _).trans (Core.worked_tapped hj.fold ..)

theorem worked_granule (g : Nat) : Ends (j.granule k g) s fun _ t => Worked k s t := by
  by_cases hlogic : j.logic = []
  · exact worked_lanes hj hs hlogic g
  · exact worked_logic hj hs hlogic g

/-- All granules, by induction on their number. -/
theorem worked_run (hm : (s.core k).mchk = []) (pc : W64) (f g : Nat) (beat : Bool) :
    Ends (j.run k pc f g beat none) s fun _ t => Worked k s t := by
  induction f generalizing s g beat with
  | zero => exact .of_run (run_zero ..) (.refl k s)
  | succ f ih =>
    obtain ⟨_, t, ht, hst⟩ := worked_granule hj hs g
    have hbeat : Worked k s (if beat then t.meterBeat k else t) := by
      cases beat
      · exact hst
      · exact hst.trans (worked_meterBeat k t)
    have hm' : ((if beat then t.meterBeat k else t).core k).mchk = [] := by
      obtain ⟨-, -, -, ⟨oc, sys, hcore⟩, -⟩ := hbeat
      rw [hcore]
      exact hm
    obtain ⟨a, u, hu, htu⟩ := ih (hbeat.ocSound hs) hm' (g + 64) (!(j.packed && beat))
    exact ⟨a, u, (run_succ hm ht).trans hu, hbeat.trans htu⟩

/-- An instruction on pointers with elements, from its start to its completion. -/
theorem worked_exec (hm : (s.core k).mchk = []) (hvpos : ((s.core k).sr vposNo).getLsbD 63 = false) (hn : 0 < j.n)
    (hbg : (s.core k).bg = []) (hflags : (s.core k).untrapped) :
    Ends (j.exec k none) s fun f t => f = .next ∧ ∃ u, Worked k s u ∧ t = u.updCore k j.completed := by
  have hsound : ∀ r ∈ j.roles, r.Sound s k j.n := fun r hr => by
    obtain ⟨q, row, hop⟩ := hj.roles r hr
    rw [VRole.Sound, hop]
    trivial
  have hstart : Worked k s (s.updCore k Core.lowered) :=
    .of_cores rfl (by rw [State.core_updCore_same]; exact Core.worked_lowered _)
  have hm' : ((s.updCore k Core.lowered).core k).mchk = [] := by
    rw [State.core_updCore_same]
    exact hm
  refine exec_starts hvpos hn hsound hbg ((worked_run hj (hstart.ocSound hs) hm' _ _ _ _).mono fun _ t ht => ?_)
  have hst := hstart.trans ht
  obtain ⟨-, -, -, hcore⟩ := id hst
  exact ⟨hcore.untrapped hflags, t, hst, rfl⟩

end

end Sys2Proof.Machine
end

section
/-! SUPPORT. The forms of the vector instructions: the job that each decodes to, past its checks (R100 to R121). -/

namespace Sys2Proof.Machine
open Sys2Proof Sys2Proof.Claims

/-- The copy test of VMOV: both operands are descriptors of one format (R200, R202). -/
def VJob.sameFmt (j : VJob) : Bool :=
  match j.srcs, j.dst with
  | [⟨.desc a, _, _⟩], some ⟨.desc d, _, _⟩ => a.fmt == d.fmt
  | _, _ => false

/-- What an element-wise instruction runs, once its elements are counted. -/
def EwOp.run (o : EwOp) (j : VJob) (tap : Bool) (op acc : Nat) : VJob :=
  { j with fold := if tap then some (op, acc) else none, copy := o.isMov && j.sameFmt }

/-- The operands of an element-wise instruction that its kind and type allow (R111). -/
def EwOp.allows (o : EwOp) (v : VArgs) : Prop :=
  o.typeOk v.ty = true ∧ (o.usesB = true ∨ o.fForm = true ∨ v.dB = 0) ∧ (o.usesA = true ∨ v.dA = 0)
    ∧ (o.isSel = true → v.mask ≠ 0)

section
variable {s t : State} {c : CoreId} {w : Nat} (hr : s.ready c = true) (hk : hasVector (coreKey c) = true)
include hr hk

/-- An element-wise instruction that passes its checks is its job. -/
theorem ewExec_next {o : EwOp} {v : VArgs} {j : VJob} (hallow : o.allows v) (hnative : v.native = true → isCompute (coreKey c) = true)
    (hty : v.tap = true → v.ty ≠ 3)
    (hcount : (o.job (s.core (coreKey c)) v.native v.dD v.dA v.dB (typeFmt v.ty) v.mask.toNat).counted (s.core (coreKey c)) v.native = some j)
    (hfold : v.tap = true → badFold (bitsOf ((s.core (coreKey c)).sr rcfgNo).toNat 6 4) (bitsOf ((s.core (coreKey c)).sr rcfgNo).toNat 1 0) = false)
    (hexec : ((o.run j v.tap (bitsOf ((s.core (coreKey c)).sr rcfgNo).toNat 6 4)
      (bitsOf ((s.core (coreKey c)).sr rcfgNo).toNat 1 0)).exec (coreKey c) v.stop).run s = .ok .next t) :
    ewExec o c w v s = .next (t.retire (coreKey c) (pcOf s c)) := by
  obtain ⟨htype, hB, hA, hsel⟩ := hallow
  have hcore : (v.native && !isCompute (coreKey c)) = false := by
    cases hn : v.native
    · rfl
    · rw [hnative hn]
      rfl
  have hops : (!o.typeOk v.ty || (!o.usesB && !o.fForm && v.dB != 0) || (!o.usesA && v.dA != 0) || (o.isSel && v.mask == 0)) = false := by
    have h1 : (!o.usesB && !o.fForm && v.dB != 0) = false := by rcases hB with h | h | h <;> simp [h]
    have h2 : (!o.usesA && v.dA != 0) = false := by rcases hA with h | h <;> simp [h]
    have h3 : (o.isSel && v.mask == 0) = false := by
      cases h : o.isSel
      · rfl
      · exact beq_eq_false_iff_ne.mpr (hsel h)
    rw [htype, h1, h2, h3]
    rfl
  have htap : (v.tap && v.ty == 3) = false := by
    cases ht : v.tap
    · rfl
    · exact beq_eq_false_iff_ne.mpr (hty ht)
  have hbad : (v.tap && j.n != 0 && badFold (bitsOf ((s.core (coreKey c)).sr rcfgNo).toNat 6 4)
      (bitsOf ((s.core (coreKey c)).sr rcfgNo).toNat 1 0)) = false := by
    cases ht : v.tap
    · rfl
    · rw [hfold ht, Bool.and_false]
  refine runInstr_next hr rfl ?_
  rw [run_bind_ok (needVector_here hk w s), run_getC_bind, run_bind_ok (illegalIf_pass hcore w s),
    run_bind_ok (illegalIf_pass hops w s)]
  dsimp only
  rw [run_bind_ok (illegalIf_pass htap w s), hcount]
  dsimp only
  rw [run_bind_ok (illegalIf_pass hbad w s)]
  exact hexec

end

/-- The operand fields of an element-wise instruction, in the order of its roles. -/
def EwOp.fields (o : EwOp) (dD dA dB : BitVec 5) : List (BitVec 5) :=
  dD :: ((if o.usesA then [dA] else []) ++ (if o.usesB && !o.fForm then [dB] else []) ++ (if o.usesD then [dD] else []))

theorem mem_fields (o : EwOp) (dD dA dB f : BitVec 5) :
    f ∈ o.fields dD dA dB ↔ f ∈ [dD] ++ (if o.usesA then [dA] else []) ++ (if o.usesB && !o.fForm then [dB] else []) := by
  cases hD : o.usesD
  · simp only [EwOp.fields, hD, Bool.false_eq_true, if_false, List.append_nil, List.mem_cons, List.mem_append, List.not_mem_nil, or_false,
      or_assoc]
  · simp only [EwOp.fields, hD, if_true, List.mem_cons, List.mem_append, List.not_mem_nil, or_false]
    tauto

theorem job_roles (o : EwOp) (x : Core) (native : Bool) (dD dA dB : BitVec 5) (fmt mask : Nat) :
    (o.job x native dD dA dB fmt mask).roles
      = (o.fields dD dA dB).map fun f => ({ op := x.opnd native f, fmt := fmt } : VRole) := by
  simp only [VJob.roles, EwOp.job, EwOp.fields, Option.toList_some, List.map_cons, List.map_append]
  split_ifs <;> rfl

/-- A field below 16 of the other forms than the native one names a pointer (R102). -/
theorem opnd_pointer (x : Core) {f : BitVec 5} (hf : f.toNat < 16) : x.opnd false f = .ptr f.toNat (x.rowBase (pNo f.toNat)) := by
  have hbit : f.getLsbD 4 = false := Nat.testBit_lt_two_pow hf
  rw [Core.opnd, hbit, Nat.mod_eq_of_lt hf]
  rfl

/-- A job is the one that a row of the table of instructions describes. -/
structure VJob.Matches (j : VJob) (x : Core) (r : VecRow) : Prop where
  onPointers : j.OnPointers
  count : j.n = r.count x
  ptrs : ∀ q, q ∈ j.ptrs ↔ ∃ f ∈ r.ops, f.toNat = q
  masks : ∀ m, m ∈ j.masks ↔ ∃ f ∈ r.masks, f.toNat = m

/-- An outcome is the retirement of a job that a row describes, once the job has run. -/
def Decodes (o : Out) (s : State) (r : VecRow) : Prop :=
  ∃ j : VJob, j.Matches (s.core (coreKey r.core)) r
    ∧ ∀ t, (j.exec (coreKey r.core) none).run s = .ok .next t → o = .next (t.retire (coreKey r.core) (pcOf s r.core))

theorem matches_of_fields {j : VJob} {x : Core} {r : VecRow} (l : List (BitVec 5)) (hroles : j.roles.map (·.op) = l.map (x.opnd false))
    (hl : ∀ f, f ∈ l ↔ f ∈ r.ops) (hlt : ∀ f ∈ r.ops, f.toNat < 16) (hcopy : j.copy = false)
    (hlogic : j.logic = [] ∨ ∃ m, j.mdst = some m) (hfold : ∀ f ∈ j.fold, f.2 < 4) (hcount : j.n = r.count x)
    (hmasks : ∀ m, m ∈ j.masks ↔ ∃ f ∈ r.masks, f.toNat = m) : j.Matches x r := by
  refine ⟨⟨fun ro hro => ?_, hcopy, hlogic, hfold⟩, hcount, fun q => ?_, hmasks⟩
  · obtain ⟨f, hf, hop⟩ := List.mem_map.mp (hroles ▸ List.mem_map_of_mem hro : ro.op ∈ l.map (x.opnd false))
    exact ⟨_, _, hop.symm.trans (opnd_pointer x (hlt f ((hl f).mp hf)))⟩
  · have hfilter : j.roles.filterMap (·.op.ptr?) = l.filterMap fun f => (x.opnd false f).ptr? := by
      calc j.roles.filterMap (·.op.ptr?) = (j.roles.map (·.op)).filterMap VOpnd.ptr? := by rw [List.filterMap_map]; rfl
        _ = l.filterMap fun f => (x.opnd false f).ptr? := by rw [hroles, List.filterMap_map]; rfl
    rw [VJob.ptrs, List.mem_dedup, hfilter, List.mem_filterMap]
    refine exists_congr fun f => ?_
    rw [hl f]
    refine and_congr_right fun hf => ?_
    rw [opnd_pointer x (hlt f hf)]
    exact Option.some_inj

theorem mem_maskNumbers (mask : BitVec 3) (m : Nat) :
    (m ∈ if mask.toNat = 0 then [] else [mask.toNat]) ↔ ∃ f ∈ maskOf mask, f.toNat = m := by
  have hzero : mask.toNat = 0 ↔ mask = 0 := ⟨fun h => BitVec.eq_of_toNat_eq h, fun h => by rw [h]; rfl⟩
  simp only [maskOf, hzero]
  split_ifs <;> simp [eq_comm]

/-- No bits are copied where an operand is no descriptor. -/
theorem sameFmt_of_none {j : VJob} (h : (∃ q, j.srcs = [q] ∧ q.op.desc? = none) ∨ (∃ q, j.dst = some q ∧ q.op.desc? = none)) :
    j.sameFmt = false := by
  rw [VJob.sameFmt]
  split
  · rename_i hsrcs hdst
    obtain ⟨q, hq, hnone⟩ | ⟨q, hq, hnone⟩ := h
    · cases hsrcs.symm.trans hq
      contradiction
    · cases hdst.symm.trans hq
      contradiction
  · rfl

section
variable {s : State} {c : CoreId} {w : Nat}

/-- The element-wise instructions of majors 0x30 and 0x31. -/
theorem ewExec_decodes {o : EwOp} {v : VArgs} {a b fB ty : Bool} (hA : o.usesA = a) (hB : (o.usesB && !o.fForm) = b) (hF : o.fForm = fB)
    (hty : ty = true → o.typeOk v.ty = true ∧ (o.isSel = true → v.mask ≠ 0)) (h : vecReady s (ewRow c v a b fB ty)) :
    Decodes (ewExec o c w v s) s (ewRow c v a b fB ty) := by
  obtain ⟨hr, hk, hlegal, hstop, hlt, -⟩ := h
  subst hA hB hF
  obtain ⟨hnative, htap, htype, hdA, hdB⟩ : v.native = false ∧ v.tap = false ∧ ty = true ∧ (o.usesA = true ∨ v.dA = 0)
      ∧ ((o.usesB = true ∧ o.fForm = false ∨ o.fForm = true) ∨ v.dB = 0) := by
    simpa only [ewRow, Bool.and_eq_true, Bool.or_eq_true, Bool.not_eq_true', beq_iff_eq, and_assoc] using hlegal
  obtain ⟨htype, hsel⟩ := hty htype
  have hdst : ((s.core (coreKey c)).opnd false v.dD).desc? = none := by
    rw [opnd_pointer _ (hlt v.dD (by simp [ewRow]))]
    rfl
  refine ⟨o.run { o.job (s.core (coreKey c)) false v.dD v.dA v.dB (typeFmt v.ty) v.mask.toNat with
    n := ((s.core (coreKey c)).sr vlNo).toNat } false 0 0, ?_, fun t ht => ?_⟩
  · refine matches_of_fields (o.fields v.dD v.dA v.dB) ?_ (fun f => ?_) hlt ?_ (.inl rfl) (fun _ h => nomatch h) rfl
      fun m => mem_maskNumbers v.mask m
    · exact (congrArg (List.map (·.op)) (job_roles o (s.core (coreKey c)) false v.dD v.dA v.dB (typeFmt v.ty) v.mask.toNat)).trans List.map_map
    · exact mem_fields o v.dD v.dA v.dB f
    · show (o.isMov && _) = false
      rw [sameFmt_of_none (.inr ⟨_, rfl, hdst⟩), Bool.and_false]
  · have hallow : o.allows v := ⟨htype, by tauto, hdA, hsel⟩
    rw [show (ewRow c v o.usesA (o.usesB && !o.fForm) o.fForm ty).core = c from rfl] at ht ⊢
    refine ewExec_next hr hk hallow (by simp [hnative]) (by simp [htap]) (j := ?_) ?_ (by simp [htap]) ?_
    · exact { o.job (s.core (coreKey c)) false v.dD v.dA v.dB (typeFmt v.ty) v.mask.toNat with
        n := ((s.core (coreKey c)).sr vlNo).toNat }
    · rw [hnative]
      rfl
    · rw [show v.stop = none from hstop, htap]
      exact ht

end

end Sys2Proof.Machine
end

section
/-! SUPPORT. The compares, mask logic, the widening forms, reductions and the compat form on pointers (R114, R115, R117, R120). -/

namespace Sys2Proof.Machine
open Sys2Proof Sys2Proof.Claims

section
variable {s : State} {c : CoreId} {w : Nat}

/-- An instruction past its checks, on a core with the vector engine, is what follows them. -/
theorem runInstr_checked {t : State} {bad : Bool} {body : Core → M Flow} (hr : s.ready c = true) (hk : hasVector (coreKey c) = true)
    (hbad : bad = false) (hbody : (body (s.core (coreKey c))).run s = .ok .next t) :
    runInstr c w false (do
      needVector (coreKey c) w
      let x ← getC (coreKey c)
      illegalIf w bad
      body x) s = .next (t.retire (coreKey c) (pcOf s c)) := by
  refine runInstr_next hr rfl ?_
  rw [run_bind_ok (needVector_here hk w s), run_getC_bind, run_bind_ok (illegalIf_pass hbad w s)]
  exact hbody

/-- The masks of an instruction that names its governing mask alone. -/
theorem mem_maskNumber (mask : BitVec 3) (m : Nat) :
    (m ∈ if mask = 0 then [] else [mask.toNat]) ↔ ∃ f ∈ maskOf mask, f.toNat = m := by
  rw [maskOf]
  split_ifs <;> simp [eq_comm]

theorem cmpExec_decodes {v : CmpArgs} (ordered : Bool) (g : Option Int → Bool) (h : vecReady s (cmpRow c v)) :
    Decodes (cmpExec c w v ordered g s) s (cmpRow c v) := by
  obtain ⟨hr, hk, hlegal, hstop, hlt, -⟩ := h
  have hnative : v.native = false := by simpa [cmpRow] using hlegal
  have hstop : v.stop = none := hstop
  refine ⟨{ n := ((s.core (coreKey c)).sr vlNo).toNat,
            srcs := [v.dA, v.dB].map fun f => { op := (s.core (coreKey c)).opnd false f, fmt := typeFmt v.ty },
            gmask := v.mask.toNat, mdst := some v.md.toNat, packed := typePacked v.ty,
            masks := v.md.toNat :: (if v.mask = 0 then [] else [v.mask.toNat]),
            lane := fun xs => cmpLane ordered g (typeFmt v.ty) (xs.headD 0) (xs.getD 1 0) }, ?_, fun t ht => ?_⟩
  · refine matches_of_fields [v.dA, v.dB] rfl (fun f => Iff.rfl) hlt rfl (.inl rfl) (fun _ h => nomatch h) rfl fun m => ?_
    show m ∈ v.md.toNat :: _ ↔ ∃ f ∈ v.md :: maskOf v.mask, f.toNat = m
    rw [List.mem_cons, mem_maskNumber, List.exists_mem_cons_iff, eq_comm]
  · rw [cmpExec, hnative, hstop]
    exact runInstr_checked hr hk rfl ht

theorem maskLogic_decodes {v : CmpArgs} {unary two : Bool} (hu : two = !unary) (g : Bool → Bool → Bool) (h : vecReady s (logicRow c v two)) :
    Decodes (maskLogic c w v unary g s) s (logicRow c v two) := by
  subst hu
  obtain ⟨hr, hk, hlegal, hstop, hlt, -⟩ := h
  obtain ⟨hnative, hmask, hty, ⟨hA, hB⟩, hone⟩ : v.native = false ∧ v.mask = 0 ∧ v.ty = 0 ∧ (v.dA.toNat < 8 ∧ v.dB.toNat < 8)
      ∧ (unary = false ∨ v.dB = 0) := by
    simpa [logicRow, and_assoc] using hlegal
  have hstop : v.stop = none := hstop
  refine ⟨{ n := ((s.core (coreKey c)).sr vlNo).toNat, srcs := [], mdst := some v.md.toNat,
            masks := v.md.toNat :: (if unary then [v.dA.toNat] else [v.dA.toNat, v.dB.toNat]),
            logic := if unary then [v.dA.toNat] else [v.dA.toNat, v.dB.toNat]
            lane := fun xs => (b2n (g (xs.headD 0 == 1) (xs.getD 1 0 == 1)), 0) }, ?_, fun t ht => ?_⟩
  · refine matches_of_fields [] rfl (fun f => Iff.rfl) hlt rfl (.inr ⟨_, rfl⟩) (fun _ h => nomatch h) rfl fun m => ?_
    have hset : ∀ f : BitVec 5, f.toNat < 8 → (f.setWidth 3).toNat = f.toNat := fun f hf => (BitVec.toNat_setWidth ..).trans (Nat.mod_eq_of_lt hf)
    cases unary <;> simp [logicRow, hset _ hA, hset _ hB, eq_comm]
  · have hbad : (decide (8 ≤ v.dA.toNat) || decide (8 ≤ v.dB.toNat) || v.ty != 0 || v.native || v.mask != 0 || (unary && v.dB != 0))
        = false := by
      rw [hnative, hmask, hty, decide_eq_false (Nat.not_le.mpr hA), decide_eq_false (Nat.not_le.mpr hB)]
      rcases hone with h | h <;> simp [h]
    rw [maskLogic, hstop]
    exact runInstr_checked hr hk hbad ht

theorem wideExec_decodes {v : WideArgs} {bad : Bool} {fa : Nat} {fb : Option Nat} {fd per : Nat} {usesD packed : Bool}
    {lane : RMode → Nat → Nat → Nat → Nat × Flags} {ops : List (BitVec 5)} {ok : Bool}
    (hops : ops = [v.dD, v.dA] ++ fb.toList.map fun _ => v.dB)
    (hok : ok = true → bad = false) (h : vecReady s (wideRow c v ops ok)) :
    Decodes (wideExec c w v bad fa fb fd per usesD packed lane s) s (wideRow c v ops ok) := by
  obtain ⟨hr, hk, hlegal, hstop, hlt, -⟩ := h
  obtain ⟨hnative, hok'⟩ : v.native = false ∧ ok = true := by simpa [wideRow] using hlegal
  have hstop : v.stop = none := hstop
  refine ⟨{ n := ((s.core (coreKey c)).sr vlNo).toNat,
            srcs := [{ op := (s.core (coreKey c)).opnd false v.dA, fmt := fa, per := per }]
              ++ (fb.toList.map fun f => ({ op := (s.core (coreKey c)).opnd false v.dB, fmt := f, per := per } : VRole))
              ++ (if usesD then [{ op := (s.core (coreKey c)).opnd false v.dD, fmt := fd }] else []),
            dst := some { op := (s.core (coreKey c)).opnd false v.dD, fmt := fd }, gmask := v.mask.toNat,
            masks := if v.mask = 0 then [] else [v.mask.toNat], packed := packed,
            lane := fun xs => lane (s.core (coreKey c)).vrm (xs.headD 0) (xs.getD 1 0) (xs.getD 2 0) }, ?_, fun t ht => ?_⟩
  · refine matches_of_fields (v.dD :: ([v.dA] ++ (fb.toList.map fun _ => v.dB) ++ (if usesD then [v.dD] else []))) ?_ (fun f => ?_) hlt rfl
      (.inl rfl) (fun _ h => nomatch h) rfl fun m => mem_maskNumber v.mask m
    · cases fb <;> cases usesD <;> rfl
    · show _ ↔ f ∈ ops
      rw [hops]
      cases fb <;> cases usesD <;> simp <;> tauto
  · rw [wideExec, hnative, hstop, hok hok']
    exact runInstr_checked hr hk rfl ht

/-- The job of a reduction names its operand and accumulator. -/
theorem redJob_matches {r : VecRow} {x : Core} {f : BitVec 5} {fmt n op acc : Nat} {mask : BitVec 3} (hops : r.ops = [f])
    (hlt : ∀ f ∈ r.ops, f.toNat < 16) (hacc : acc < 4) (hcount : n = r.count x) (hmasks : r.masks = maskOf mask) :
    VJob.Matches { redJob (x.opnd false f) fmt mask.toNat op acc with n := n } x r := by
  refine matches_of_fields [f] rfl (fun g => by rw [hops]) hlt rfl (.inl rfl) (fun g hg => ?_) hcount fun m => ?_
  · cases hg
    exact hacc
  · rw [hmasks]
    exact mem_maskNumbers mask m

theorem execRed_decodes {v : RedArgs} {r : VecRow} (hrow : vecRow (.red c v) = some r) (h : vecReady s r) : Decodes (execRed c v s) s r := by
  cases hrow
  obtain ⟨hr, hk, hlegal, hstop, hlt, -⟩ := h
  have hstop : v.stop = none := hstop
  obtain ⟨hnative, hty, hop, hmom⟩ : v.native = false ∧ v.ty ≠ 3 ∧ v.op.toNat < 6 ∧ (v.op == 2 && v.acc.getLsbD 0) = false := by
    simpa only [Bool.and_eq_true, Bool.not_eq_true', bne_iff_ne, decide_eq_true_eq, and_assoc] using hlegal
  refine ⟨_, redJob_matches (fmt := typeFmt v.ty) (op := v.op.toNat) rfl hlt v.acc.isLt rfl rfl, fun t ht => ?_⟩
  have hbad : badFold v.op.toNat v.acc.toNat = false := by
    have hodd : v.acc.getLsbD 0 = (v.acc.toNat % 2 == 1) := by
      rw [BitVec.getLsbD, Nat.testBit_zero]
      rfl
    have hcode : (v.op.toNat == 2) = (v.op == 2) := by
      rw [Bool.eq_iff_iff, beq_iff_eq, beq_iff_eq]
      exact BitVec.toNat_inj (y := (2 : BitVec 3))
    rw [badFold, decide_eq_false (Nat.not_le.mpr hop), hcode, ← hodd, hmom]
    rfl
  rw [execRed, hnative, hbad, beq_eq_false_iff_ne.mpr hty, hstop]
  exact runInstr_checked hr hk rfl ht

theorem compatRed_decodes {v : CompatArgs} {op : Nat} (h : vecReady s (mt5Row c v [v.dA] (v.dD == 0 && v.dB == 0))) :
    Decodes (compatRed c w v op s) s (mt5Row c v [v.dA] (v.dD == 0 && v.dB == 0)) := by
  obtain ⟨hr, hk, hlegal, hstop, hlt, -⟩ := h
  have hstop : v.stop = none := hstop
  obtain ⟨hD, hB⟩ : v.dD = 0 ∧ v.dB = 0 := by simpa [mt5Row] using hlegal
  refine ⟨_, redJob_matches (fmt := 0) (op := op) (mask := 0) rfl hlt (show 0 < 4 by decide) rfl rfl, fun t ht => ?_⟩
  rw [compatRed, hD, hB, hstop]
  exact runInstr_checked hr hk rfl ht

theorem compatExec_decodes {o : EwOp} {v : CompatArgs} {ops : List (BitVec 4)} {ok : Bool}
    (hops : ops = [v.dD] ++ (if o.usesA then [v.dA] else []) ++ (if o.usesB && !o.fForm then [v.dB] else []))
    (hok : ok = true → o.usesB = true ∨ v.dB = 0) (h : vecReady s (mt5Row c v ops ok)) :
    Decodes (compatExec o c w v s) s (mt5Row c v ops ok) := by
  obtain ⟨hr, hk, hlegal, hstop, hlt, -⟩ := h
  have hstop : v.stop = none := hstop
  have hB : (!o.usesB && v.dB != 0) = false := by rcases hok hlegal with h | h <;> simp [h]
  refine ⟨{ o.job (s.core (coreKey c)) false (v.dD.setWidth 5) (v.dA.setWidth 5) (v.dB.setWidth 5) 0 0 with n := v.count.toNat }, ?_,
    fun t ht => ?_⟩
  · refine matches_of_fields (o.fields (v.dD.setWidth 5) (v.dA.setWidth 5) (v.dB.setWidth 5)) ?_ (fun f => ?_) hlt rfl (.inl rfl)
      (fun _ h => nomatch h) rfl fun m => (by simp [mt5Row, EwOp.job])
    · exact (congrArg (List.map (·.op)) (job_roles o (s.core (coreKey c)) false _ _ _ 0 0)).trans List.map_map
    · rw [mem_fields]
      show _ ↔ f ∈ ops.map fun f => f.setWidth 5
      rw [hops]
      split_ifs <;> rfl
  · rw [compatExec, hstop]
    exact runInstr_checked hr hk hB ht

end

/-- Every resumable form on pointers is its row's job. -/
theorem decodes_of_vecRow {i : Instr} {s : State} {r : VecRow} (h : vecRow i = some r) (hs : vecReady s r) : Decodes (exec i s) s r := by
  unfold vecRow at h
  split at h
  case h_64 => contradiction
  all_goals cases h
  -- every type
  case h_1 | h_2 | h_3 | h_7 | h_8 | h_9 | h_10 | h_11 | h_13 | h_14 | h_15 | h_25 | h_26 | h_27 | h_31 =>
    exact ewExec_decodes rfl rfl rfl (fun h => ⟨rfl, nofun⟩) hs
  -- floating types, and VSHL and VSRA
  case h_4 | h_5 | h_6 | h_12 | h_16 | h_17 | h_18 | h_19 | h_20 | h_21 | h_22 | h_23 | h_24 | h_28 | h_29 =>
    exact ewExec_decodes rfl rfl rfl (fun h => ⟨h, nofun⟩) hs
  -- VSEL
  case h_30 => exact ewExec_decodes rfl rfl rfl (fun h => ⟨rfl, fun _ => bne_iff_ne.mp h⟩) hs
  -- compares
  case h_32 | h_33 | h_34 | h_35 | h_36 | h_37 | h_38 => exact cmpExec_decodes _ _ hs
  -- mask logic
  case h_39 | h_40 | h_41 => exact maskLogic_decodes rfl _ hs
  case h_42 =>
    dsimp only [exec, execMnot]
    exact maskLogic_decodes rfl _ hs
  -- VWMUL, VWFMA, VDOT4 and VCVT
  case h_43 | h_44 => exact wideExec_decodes rfl (fun h => congrArg not h) hs
  case h_45 =>
    dsimp only [exec, execVdot4]
    exact wideExec_decodes rfl (fun _ => rfl) hs
  case h_46 =>
    dsimp only [exec, execVcvt]
    refine wideExec_decodes rfl (fun h => ?_) hs
    simpa [and_assoc] using h
  -- reductions
  case h_47 => exact execRed_decodes rfl hs
  case h_62 | h_63 => exact compatRed_decodes hs
  -- the compat form
  case h_48 | h_49 | h_50 | h_51 | h_52 | h_53 | h_54 => exact compatExec_decodes rfl (fun _ => .inl rfl) hs
  case h_55 | h_56 | h_57 | h_58 | h_59 | h_60 | h_61 => exact compatExec_decodes rfl (fun h => .inr (beq_iff_eq.mp h)) hs

end Sys2Proof.Machine
end

section
/-! SUPPORT. The core after an instruction on pointers has completed and the loop test has passed (R42, R100). -/

namespace Sys2Proof.Machine
open Sys2Proof Sys2Proof.Claims

/-- The registers above the masks after completion. -/
theorem sr_completed_high {j : VJob} (c : Core) (hptrs : ∀ p ∈ j.ptrs, p < 16) (hmasks : ∀ m ∈ j.masks, m < 8) {n : Nat} (hn : 0x098 ≤ n) :
    (j.completed c).sr n = c.sr n := by
  have hptr : n ∉ j.ptrs.map pNo := fun h => by
    obtain ⟨p, hp, hpn⟩ := List.mem_map.mp h
    have := hptrs p hp
    simp only [pNo] at hpn
    omega
  have hmask : n ∉ j.masks.dedup.map maskNo := fun h => by
    obtain ⟨m, hm, hmn⟩ := List.mem_map.mp h
    have := hmasks m (List.mem_dedup.mp hm)
    simp only [maskNo] at hmn
    omega
  rw [sr_completed c (by simp only [vposNo]; omega), if_neg hmask, if_neg hptr]

/-- Where no body of a core's loops ends, nor does one of a core with the same loop registers, and the next instruction follows. -/
theorem loopStep_pc {x y : Core} (hloop : ∀ n, 0x100 ≤ n → y.sr n = x.sr n) (hend : x.atLoopEnd = false) :
    (y.loopStep x.pc).pc = x.pc + 4 := by
  have hbody : ∀ lv ∈ [0, 1], ¬ y.endsBody x.pc lv := fun lv hlv h => by
    obtain ⟨hactive, hpc⟩ := h
    have hx := List.any_eq_false.mp hend lv hlv
    rw [Core.loopActive, hloop _ (by simp only [loopNo]; omega)] at hactive
    rw [hloop _ (by simp only [loopNo]; omega)] at hpc
    exact hx (Bool.and_eq_true_iff.mpr ⟨hactive, beq_iff_eq.mpr hpc⟩)
  rw [loopStep_elsewhere (hbody 0 (by decide)) (hbody 1 (by decide))]

section
variable {j : VJob} {x z : Core} {r : VecRow} (hj : j.Matches x r) (hlt : ∀ f ∈ r.ops, f.toNat < 16) (hw : x.Worked z) (pc : W64)
include hj hw

theorem sr_loopStep_completed_ptr {n : Nat} (hn : n < 16) :
    ((j.completed z).loopStep pc).sr (0x080 + n) = if ∃ f ∈ r.ops, f.toNat = n then advanceRow (x.sr (0x080 + n)) else x.sr (0x080 + n) := by
  obtain ⟨-, hkept, -⟩ := hw
  rw [sr_loopStep_other _ _ (by omega) (by omega), show 0x080 + n = pNo n from rfl, sr_completed_ptr z hn,
    hkept (pNo n) ⟨by simp only [pNo, vflagsNo]; omega, by simp only [pNo]; omega⟩]
  simp only [hj.ptrs n]

include hlt

theorem sr_loopStep_completed_mask (m : BitVec 3) (hm : m ∈ r.masks) :
    ((j.completed z).loopStep pc).sr (0x090 + m.toNat) = advanceRow (x.sr (0x090 + m.toNat)) := by
  obtain ⟨-, hkept, -⟩ := hw
  have hptrs : ∀ p ∈ j.ptrs, p < 16 := fun p hp => by
    obtain ⟨f, hf, rfl⟩ := (hj.ptrs p).mp hp
    exact hlt f hf
  rw [sr_loopStep_other _ _ (by omega) (by omega), show 0x090 + m.toNat = maskNo m.toNat from rfl, sr_completed_mask z hptrs m.isLt,
    if_pos ((hj.masks m.toNat).mpr ⟨m, hm, rfl⟩),
    hkept (maskNo m.toNat) ⟨by simp only [maskNo, vflagsNo]; omega, by simp only [maskNo]; omega⟩]

theorem loopStep_completed_pc (hend : x.atLoopEnd = false) : ((j.completed z).loopStep x.pc).pc = x.pc + 4 := by
  obtain ⟨-, hkept, -⟩ := hw
  refine loopStep_pc (fun n hn => ?_) hend
  rw [sr_completed_high z (fun p hp => ?_) (fun m hm => ?_) (by omega), hkept n ⟨by simp only [vflagsNo]; omega, by omega⟩]
  · obtain ⟨f, hf, rfl⟩ := (hj.ptrs p).mp hp
    exact hlt f hf
  · obtain ⟨f, -, rfl⟩ := (hj.masks m).mp hm
    exact f.isLt

end

end Sys2Proof.Machine
end

section
open Sys2Proof Sys2Proof.Machine Sys2Proof.Claims

/-- Settles O28: every form is its row's job, whose granules leave all but the operand cache, VFLAGS and the accumulators alone, and
completion advances the registers that the row names. -/
theorem vectorPointerFormCompletes : Obligations.VectorPointerFormCompletes := by
  unfold Obligations.VectorPointerFormCompletes
  refine ⟨fun i r s hrow hs hn => ?_, fun i r s hrow hs hn => ?_⟩
  · obtain ⟨j, hj, hout⟩ := decodes_of_vecRow hrow hs
    obtain ⟨hr, -, -, -, hlt, hvpos, hflags, hbad, hbg, harmed⟩ := hs
    obtain ⟨f, t, ht, rfl, u, ⟨hatolls, hdram, -, hw⟩, rfl⟩ :=
      worked_exec hj.onPointers ⟨hbad, harmed⟩ (calm_mchk (ready_calm hr)) hvpos (hj.count ▸ hn) hbg hflags
    obtain ⟨⟨oc, sys, hframe⟩, hkept, -⟩ := id hw
    obtain ⟨sys', hcompleted⟩ := completed_sys j (u.core (coreKey r.core))
    dsimp only
    refine ⟨_, hout _ ht, ?_⟩
    simp only [State.core_retire_same, State.core_updCore_same]
    refine ⟨?_, fun f hf => ?_, fun m hm => ?_, fun n hn hnot => ?_, ?_, fun q => ?_, ?_, hatolls, hdram, fun hend => ?_⟩
    · exact (sr_loopStep_other _ _ (by decide) (by decide)).trans (sr_completed_vpos _)
    · exact (sr_loopStep_completed_ptr hj hw _ (hlt f hf)).trans (if_pos ⟨f, hf, rfl⟩)
    · exact sr_loopStep_completed_mask hj hlt hw _ m hm
    · exact (sr_loopStep_completed_ptr hj hw _ hn).trans (if_neg fun ⟨f, hf, hfn⟩ => hnot f hf hfn)
    · rw [sr_loopStep_other _ _ (by decide) (by decide), sr_completed_low _ (by decide) (by decide), hkept _ ⟨by decide, by decide⟩]
    · rw [loopStep_rx, hcompleted, hframe]
      rfl
    · rw [loopStep_l1, hcompleted, hframe]
    · exact loopStep_completed_pc hj hlt hw hend
  · obtain ⟨j, hj, hout⟩ := decodes_of_vecRow hrow hs
    obtain ⟨-, -, -, -, -, hvpos, -⟩ := hs
    exact hout _ (exec_zero hvpos (hj.count.trans hn))
end

section
/-! SUPPORT. An encoding fits the bits of its format (R195, R205, R207). -/

namespace Sys2Proof.Machine
open Sys2Proof Sys2Proof.Claims

/-- A multiple of 2^q of m × 2^e whose highest bit is below 2^(q + b) is at most 2^b, also rounded up (R207). -/
theorem roundTo_le {mode : RMode} {neg : Bool} {m b : Nat} {e q : Int} (h : topExp m e < q + b) : (roundTo mode neg m e q).1 ≤ 2 ^ b := by
  rw [topExp] at h
  have hm : m < 2 ^ (m.log2 + 1) := Nat.lt_log2_self
  rw [roundTo]
  split_ifs with hqe
  · obtain ⟨k, hk⟩ := Int.eq_ofNat_of_zero_le (Int.sub_nonneg.mpr hqe)
    have hkb : m.log2 + 1 + k ≤ b := by omega
    rw [hk, Int.toNat_natCast, Nat.shiftLeft_eq]
    calc m * 2 ^ k ≤ 2 ^ (m.log2 + 1) * 2 ^ k := Nat.mul_le_mul_right _ hm.le
      _ = 2 ^ (m.log2 + 1 + k) := (pow_add ..).symm
      _ ≤ 2 ^ b := Nat.pow_le_pow_right (by decide) hkb
  · obtain ⟨k, hk⟩ := Int.eq_ofNat_of_zero_le (Int.sub_nonneg.mpr (not_le.mp hqe).le)
    rw [hk, Int.toNat_natCast]
    have hlt : m >>> k < 2 ^ b := by
      rw [Nat.shiftRight_eq_div_pow, Nat.div_lt_iff_lt_mul (Nat.two_pow_pos k), ← pow_add]
      exact hm.trans_le (Nat.pow_le_pow_right (by decide) (by omega))
    dsimp only
    split_ifs
    · exact hlt
    · exact hlt.le

/-- The formats whose largest finite value is that of IEEE 754 (R195). -/
structure Fmt.Ieee (f : Fmt) : Prop where
  ieee : f.ieee = true
  sat : f.sat = false
  eight : 8 ≤ 2 ^ f.eb
  one : 1 ≤ f.mb
  maxM : f.maxM < 2 ^ (f.mb + 1)
  maxE : f.maxE + f.mb + f.bias + 2 ≤ 2 ^ f.eb

/-- A finite value that does not overflow is not above the largest exponent. -/
theorem grid_le_of_fits {f : Fmt} (hf : f.Ieee) {n : Nat} {q : Int} (hn : 2 ^ f.mb ≤ n) (h : dyadicLt f.maxM f.maxE n q = false) :
    q ≤ f.maxE := by
  by_contra hq
  obtain ⟨k, hk⟩ := Int.eq_ofNat_of_zero_le (Int.sub_nonneg.mpr (not_le.mp hq).le)
  rw [dyadicLt, if_pos (not_le.mp hq).le, decide_eq_false_iff_not, hk, Int.toNat_natCast, Nat.shiftLeft_eq, not_lt] at h
  have hmax := hf.maxM
  have hk1 : 2 ^ 1 ≤ 2 ^ k := Nat.pow_le_pow_right (by decide) (by omega)
  have := Nat.mul_le_mul hn hk1
  rw [pow_succ] at hmax
  omega

theorem signed_lt {f : Fmt} {neg : Bool} {b : Nat} (h : b < 2 ^ (f.eb + f.mb)) : f.signed neg b < 2 ^ (1 + f.eb + f.mb) := by
  rw [Fmt.signed, show 1 + f.eb + f.mb = f.eb + f.mb + 1 by omega, pow_succ]
  cases neg <;> simp [b2n] <;> omega

/-- The encoding of a value in a format of IEEE 754 has its sign, exponent and mantissa bits. -/
theorem encode_lt {f : Fmt} (hf : f.Ieee) (rm : RMode) (v : FV) : (f.encode rm v).1 < 2 ^ (1 + f.eb + f.mb) := by
  have heb := Nat.two_pow_pos f.eb
  have hmb := Nat.two_pow_pos f.mb
  have hinf : f.infBits < 2 ^ (f.eb + f.mb) := by
    rw [Fmt.infBits, pow_add]
    exact Nat.mul_lt_mul_of_pos_right (by omega) hmb
  cases v with
  | nan =>
    have hquiet : 2 ^ (f.mb - 1) < 2 ^ f.mb := Nat.pow_lt_pow_right (by decide) (by have := hf.one; omega)
    show f.canonNan < _
    rw [Fmt.canonNan, if_pos hf.ieee, show 1 + f.eb + f.mb = f.eb + f.mb + 1 by omega, pow_succ, pow_add]
    have : (2 ^ f.eb - 1) * 2 ^ f.mb + 2 ^ f.mb = 2 ^ f.eb * 2 ^ f.mb := by rw [← Nat.succ_mul]; congr 1; omega
    omega
  | inf neg =>
    show (if f.sat then (f.signed neg f.maxBits, flSAT) else (f.signed neg f.infBits, 0)).1 < _
    rw [hf.sat]
    exact signed_lt hinf
  | fin neg m e =>
    have hmax : f.maxBits < 2 ^ (f.eb + f.mb) := by
      rw [Fmt.maxBits, if_pos hf.ieee]
      omega
    have hround : (roundTo rm neg m e (f.grid m e)).1 ≤ 2 ^ (f.mb + 1) := by
      refine roundTo_le ?_
      rw [Fmt.grid]
      push_cast
      omega
    by_cases hzero : m = 0
    · rw [hzero]
      exact signed_lt (Nat.two_pow_pos _)
    by_cases hover : f.overflows rm neg m e = true
    · simp only [Fmt.encode, if_neg hzero, if_pos hover, hf.sat, Bool.false_eq_true, if_false]
      split_ifs
      · exact signed_lt hmax
      · exact signed_lt hinf
    · have hfits : dyadicLt f.maxM f.maxE (roundTo rm neg m e (f.grid m e)).1 (f.grid m e) = false := by
        rw [Fmt.overflows, if_neg hzero] at hover
        exact eq_false_of_ne_true hover
      simp only [Fmt.encode, if_neg hzero, if_neg hover]
      refine signed_lt ?_
      split_ifs with hsub
      · exact hsub.trans_le (Nat.pow_le_pow_right (by decide) (Nat.le_add_left ..))
      · have hq := grid_le_of_fits hf (not_lt.mp hsub) hfits
        have hmaxE := hf.maxE
        have hex : (f.grid m e + f.mb + f.bias - 1).toNat + 3 ≤ 2 ^ f.eb := by
          have height := hf.eight
          have hcast : ((2 ^ f.eb : Nat) : Int) = 2 ^ f.eb := Nat.cast_pow 2 f.eb
          omega
        have := Nat.mul_le_mul_right (2 ^ f.mb) hex
        rw [add_mul, ← pow_add] at this
        rw [pow_succ] at hround
        omega

/-- The types of the vector engine (R110). -/
theorem typeFmt_mem (ty : BitVec 2) : typeFmt ty ∈ [0, 1, 2, 5] := by
  revert ty
  decide

theorem fmtOf_ieee {f : Nat} (hf : f ∈ [0, 1, 2, 5]) : (fmtOf f).Ieee ∧ 1 + (fmtOf f).eb + (fmtOf f).mb = elemBits f := by
  simp only [List.mem_cons, List.not_mem_nil, or_false] at hf
  obtain rfl | rfl | rfl | rfl := hf <;> exact ⟨⟨rfl, rfl, by decide, by decide, by decide, by decide⟩, rfl⟩

theorem rounded_lt {f : Nat} (hf : f ∈ [0, 1, 2, 5]) (rm : RMode) (v : FV × Flags) : (rounded f rm v).1 < 2 ^ elemBits f := by
  obtain ⟨hieee, hbits⟩ := fmtOf_ieee hf
  rw [← hbits]
  exact encode_lt hieee rm v.1

theorem encodeInt_lt (rm : RMode) (v : FV) : (encodeInt 32 rm v).1 < 2 ^ 32 := by
  cases v with
  | nan => exact Nat.two_pow_pos _
  | inf neg =>
    show (if neg then 2 ^ (32 - 1) else 2 ^ (32 - 1) - 1 : Nat) < 2 ^ 32
    split_ifs <;> decide
  | fin neg m e =>
    simp only [encodeInt]
    split_ifs <;> dsimp only <;> omega

/-- The encoding of a value in a type of the vector engine has the bits of its elements. -/
theorem encodeElem_lt {f : Nat} (hf : f ∈ [0, 1, 2, 5]) (rm : RMode) (v : FV) : (encodeElem f rm v).1 < 2 ^ elemBits f := by
  rw [encodeElem]
  split_ifs with h5 h6
  · rw [h5]
    exact encodeInt_lt rm v
  · rw [h6] at hf
    contradiction
  · exact rounded_lt hf rm (v, 0)

end Sys2Proof.Machine
end

section
/-! SUPPORT. The lanes of the model and those of R111's table, on elements that fit their type (R111, R112). -/

namespace Sys2Proof.Machine
open Sys2Proof Sys2Proof.Claims

theorem signed_32_emod (a : Nat) : signed 32 a % 2 ^ 32 = (a : Int) % 2 ^ 32 := by
  simp only [signed]
  split_ifs <;> omega

/-- An INT32 lane is its operation modulo 2^32. -/
theorem intLane_eq {g : Int → Int → Int} {a b r : Nat} (hg : g (signed 32 a) (signed 32 b) % 2 ^ 32 = (r : Int) % 2 ^ 32) :
    intLane g a b = (r % 2 ^ 32, 0) := by
  rw [intLane, hg]
  exact congrArg (·, 0) (by omega)

theorem intLane_add (a b : Nat) : intLane (· + ·) a b = ((a + b) % 2 ^ 32, 0) :=
  intLane_eq (by rw [Int.add_emod, signed_32_emod, signed_32_emod, ← Int.add_emod, Nat.cast_add])

theorem intLane_sub {a b : Nat} (hb : b < 2 ^ 32) : intLane (· - ·) a b = ((a + 2 ^ 32 - b) % 2 ^ 32, 0) :=
  intLane_eq (by rw [Int.sub_emod, signed_32_emod, signed_32_emod, ← Int.sub_emod]; omega)

theorem intLane_mul (a b : Nat) : intLane (· * ·) a b = (a * b % 2 ^ 32, 0) :=
  intLane_eq (by rw [Int.mul_emod, signed_32_emod, signed_32_emod, ← Int.mul_emod, Nat.cast_mul])

theorem intLane_neg {a : Nat} (ha : a < 2 ^ 32) (b : Nat) : intLane (fun a _ => -a) a b = ((2 ^ 32 - a) % 2 ^ 32, 0) :=
  intLane_eq (by
    have h := signed_32_emod a
    omega)

/-- The encoding of a value alone, with no flag of an operation. -/
theorem encode_eq_rounded (f : Nat) (rm : RMode) (v : FV) : (fmtOf f).encode rm v = rounded f rm (v, 0) :=
  Prod.ext rfl (BitVec.zero_or).symm

theorem mixLane_eq {fB : Bool} {g : RMode → FV → FV → FV → FV × Flags} {i : Int → Int → Int} {f a b d x : Nat} {rm : RMode}
    (hint : intLane i a b = (x % 2 ^ 32, 0)) :
    mixLane fB g i f rm a b d = if f = 5 then (x % 2 ^ 32, 0) else fpLane g fB f rm a b d := by
  rw [mixLane, hint]

/-- A lane of an INT32 or rounded result fits its type. -/
theorem typed_lt {f : Nat} (hf : f ∈ [0, 1, 2, 5]) (x : Nat) (rm : RMode) (w : FV × Flags) :
    (if f = 5 then ((x % 2 ^ 32 : Nat), (0 : Flags)) else rounded f rm w).1 < 2 ^ elemBits f := by
  split_ifs with h
  · rw [h]
    exact Nat.mod_lt _ (Nat.two_pow_pos 32)
  · exact rounded_lt hf rm w

theorem two_pow_elemBits_le {f : Nat} (hf : f ∈ [0, 1, 2, 5]) : 2 ^ elemBits f ≤ 2 ^ 32 := by
  refine Nat.pow_le_pow_right (by decide) ?_
  revert f
  decide

theorem signBit_lt {f : Nat} (hf : f ∈ [0, 1, 2, 5]) : 2 ^ (elemBits f - 1) < 2 ^ elemBits f := by
  refine Nat.pow_lt_pow_right (by decide) ?_
  revert f
  decide

theorem negLane_eq {f a : Nat} (hf : f ∈ [0, 1, 2, 5]) (ha : a < 2 ^ elemBits f) :
    (if f = 5 then intLane (fun a _ => -a) a 0 else (a ^^^ 2 ^ (elemBits f - 1), 0))
        = (if f = 5 then ((2 ^ 32 - a) % 2 ^ 32, 0) else (a ^^^ 2 ^ (elemBits f - 1), 0))
      ∧ (if f = 5 then ((2 ^ 32 - a) % 2 ^ 32, (0 : Flags)) else (a ^^^ 2 ^ (elemBits f - 1), 0)).1 < 2 ^ elemBits f := by
  rw [intLane_neg (ha.trans_le (two_pow_elemBits_le hf))]
  refine ⟨rfl, ?_⟩
  split_ifs with h
  · rw [h]
    exact Nat.mod_lt _ (Nat.two_pow_pos 32)
  · exact Nat.xor_lt_two_pow ha (signBit_lt hf)

theorem shlLane_eq {ty : BitVec 2} (hty : ty = 3) (a b : Nat) :
    ((a <<< (b % 32)) % 2 ^ 32, (0 : Flags)) = (a * 2 ^ (b % 32) % 2 ^ 32, 0)
      ∧ (a * 2 ^ (b % 32) % 2 ^ 32, (0 : Flags)).1 < 2 ^ elemBits (typeFmt ty) := by
  rw [hty, Nat.shiftLeft_eq]
  exact ⟨rfl, Nat.mod_lt _ (Nat.two_pow_pos 32)⟩

theorem fillLane_eq {f fb : Nat} (hf : f ∈ [0, 1, 2, 5]) (rm : RMode) (hfb : fb < 2 ^ 32) :
    (if f = 5 then (fb, 0) else (fmtOf f).encode rm (fpDec fb)) = (if f = 5 then (fb, 0) else rounded f rm (fpDec fb, 0))
      ∧ (if f = 5 then (fb, (0 : Flags)) else rounded f rm (fpDec fb, 0)).1 < 2 ^ elemBits f := by
  rw [encode_eq_rounded]
  refine ⟨rfl, ?_⟩
  split_ifs with h
  · rw [h]
    exact hfb
  · exact rounded_lt hf rm _

/-- A lane of R111's table: format, rounding mode, f[B], and the elements of a, b and d. -/
abbrev LaneFn := Nat → RMode → Nat → Nat → Nat → Nat → Nat × Flags

/-- An instruction of laneTable is an element-wise one, whose lane is the table's on elements that fit. -/
structure LaneOp (i : Instr) (c : CoreId) (v : VArgs) (lane : LaneFn) (o : EwOp) : Prop where
  exec : ∀ s, exec i s = ewExec o c (instrWord i) v s
  form : ∃ ok, laneForm i = some (o.usesA, (o.usesB && !o.fForm), ok) ∧ (ok = true → o.allows v)
  row : ∃ ty, vecRow i = some (ewRow c v o.usesA (o.usesB && !o.fForm) o.fForm ty) ∧ (ty = true → o.typeOk v.ty = true)
  sel : o.isSel = false
  mov : o.isMov = true → (∃ c v, i = .vmov c v) ∧ o = ewMov
  unary : o.usesA = false → (o.usesB && !o.fForm) = false ∧ o.usesD = false
  lane_eq : o.typeOk v.ty = true → ∀ rm fb a b d, fb < 2 ^ 32 → (o.usesA = true → a < 2 ^ elemBits (typeFmt v.ty)) →
    ((o.usesB && !o.fForm) = true → b < 2 ^ elemBits (typeFmt v.ty)) →
    o.lane (typeFmt v.ty) rm (if o.usesA then a else 0) (if o.fForm then fb else if o.usesB && !o.fForm then b else 0)
        (if o.usesD then d else 0) = lane (typeFmt v.ty) rm fb a b d
      ∧ (lane (typeFmt v.ty) rm fb a b d).1 < 2 ^ elemBits (typeFmt v.ty)

theorem laneTable_op {i : Instr} {c : CoreId} {v : VArgs} {lane : LaneFn}
    (h : laneTable i = some (c, v, lane)) : ∃ o, LaneOp i c v lane o := by
  unfold laneTable at h
  split at h
  case h_14 => contradiction
  all_goals
    cases h
    have hty := typeFmt_mem v.ty
  case h_1 => -- VADD
    exact ⟨ewAdd false, fun _ => rfl, ⟨_, rfl, fun _ => ⟨rfl, .inl rfl, .inl rfl, nofun⟩⟩, ⟨_, rfl, fun _ => rfl⟩, rfl, nofun, nofun,
      fun _ rm _ a b _ _ _ _ => ⟨mixLane_eq (intLane_add a b), typed_lt hty (a + b) rm _⟩⟩
  case h_2 => -- VSUB
    exact ⟨ewSub false, fun _ => rfl, ⟨_, rfl, fun _ => ⟨rfl, .inl rfl, .inl rfl, nofun⟩⟩, ⟨_, rfl, fun _ => rfl⟩, rfl, nofun, nofun,
      fun _ rm _ a b _ _ _ hb => ⟨mixLane_eq (intLane_sub ((hb rfl).trans_le (two_pow_elemBits_le hty))), typed_lt hty (a + 2 ^ 32 - b) rm _⟩⟩
  case h_3 => -- VMUL
    exact ⟨ewMul false, fun _ => rfl, ⟨_, rfl, fun _ => ⟨rfl, .inl rfl, .inl rfl, nofun⟩⟩, ⟨_, rfl, fun _ => rfl⟩, rfl, nofun, nofun,
      fun _ rm _ a b _ _ _ _ => ⟨mixLane_eq (intLane_mul a b), typed_lt hty (a * b) rm _⟩⟩
  case h_4 => -- VDIV
    exact ⟨ewDiv, fun _ => rfl, ⟨_, rfl, fun h => ⟨h, .inl rfl, .inl rfl, nofun⟩⟩, ⟨_, rfl, id⟩, rfl, nofun, nofun,
      fun _ rm _ _ _ _ _ _ _ => ⟨rfl, rounded_lt hty rm _⟩⟩
  case h_5 => -- VFMA
    exact ⟨ewFma false, fun _ => rfl, ⟨_, rfl, fun h => ⟨h, .inl rfl, .inl rfl, nofun⟩⟩, ⟨_, rfl, id⟩, rfl, nofun, nofun,
      fun _ rm _ _ _ _ _ _ _ => ⟨rfl, rounded_lt hty rm _⟩⟩
  case h_6 => -- VADD with f[B]
    exact ⟨ewAdd true, fun _ => rfl, ⟨_, rfl, fun _ => ⟨rfl, .inl rfl, .inl rfl, nofun⟩⟩, ⟨_, rfl, fun _ => rfl⟩, rfl, nofun, nofun,
      fun _ rm fb a _ _ _ _ _ => ⟨mixLane_eq (intLane_add a fb), typed_lt hty (a + fb) rm _⟩⟩
  case h_7 => -- VMOV
    exact ⟨ewMov, fun _ => rfl, ⟨_, rfl, fun h => ⟨rfl, .inr (.inr (beq_iff_eq.mp h)), .inl rfl, nofun⟩⟩, ⟨_, rfl, fun _ => rfl⟩, rfl,
      fun _ => ⟨⟨_, _, rfl⟩, rfl⟩, nofun, fun _ _ _ _ _ _ _ ha _ => ⟨rfl, ha rfl⟩⟩
  case h_8 => -- VNEG
    exact ⟨ewNeg, fun _ => rfl, ⟨_, rfl, fun h => ⟨rfl, .inr (.inr (beq_iff_eq.mp h)), .inl rfl, nofun⟩⟩, ⟨_, rfl, fun _ => rfl⟩, rfl,
      nofun, nofun, fun _ _ _ a _ _ _ ha _ => negLane_eq hty (ha rfl)⟩
  case h_9 => -- VAND
    exact ⟨ewBits (· &&& ·), fun _ => rfl, ⟨_, rfl, fun _ => ⟨rfl, .inl rfl, .inl rfl, nofun⟩⟩, ⟨_, rfl, fun _ => rfl⟩, rfl, nofun, nofun,
      fun _ _ _ _ _ _ _ ha _ => ⟨rfl, Nat.and_le_left.trans_lt (ha rfl)⟩⟩
  case h_10 => -- VOR
    exact ⟨ewBits (· ||| ·), fun _ => rfl, ⟨_, rfl, fun _ => ⟨rfl, .inl rfl, .inl rfl, nofun⟩⟩, ⟨_, rfl, fun _ => rfl⟩, rfl, nofun, nofun,
      fun _ _ _ _ _ _ _ ha hb => ⟨rfl, Nat.or_lt_two_pow (ha rfl) (hb rfl)⟩⟩
  case h_11 => -- VXOR
    exact ⟨ewBits (· ^^^ ·), fun _ => rfl, ⟨_, rfl, fun _ => ⟨rfl, .inl rfl, .inl rfl, nofun⟩⟩, ⟨_, rfl, fun _ => rfl⟩, rfl, nofun, nofun,
      fun _ _ _ _ _ _ _ ha hb => ⟨rfl, Nat.xor_lt_two_pow (ha rfl) (hb rfl)⟩⟩
  case h_12 => -- VSHL
    exact ⟨ewShl, fun _ => rfl, ⟨_, rfl, fun h => ⟨h, .inl rfl, .inl rfl, nofun⟩⟩, ⟨_, rfl, id⟩, rfl, nofun, nofun,
      fun h _ _ a b _ _ _ _ => shlLane_eq (beq_iff_eq.mp h) a b⟩
  case h_13 => -- VFILL
    exact ⟨ewFill, fun _ => rfl, ⟨_, rfl, fun h => ⟨rfl, .inr (.inl rfl), .inr (beq_iff_eq.mp h), nofun⟩⟩, ⟨_, rfl, fun _ => rfl⟩, rfl,
      nofun, fun _ => ⟨rfl, rfl⟩, fun _ rm _ _ _ _ hfb _ _ => fillLane_eq hty rm hfb⟩

end Sys2Proof.Machine
end

section
/-! SUPPORT. What an operand field names, and the bits and elements that it holds (R102 to R104). -/

namespace Sys2Proof.Machine
open Sys2Proof Sys2Proof.Claims

/-- The format in which an operand holds its elements. -/
def VRole.own (r : VRole) : Nat := r.op.desc?.elim r.fmt (·.fmt)

/-- The bits of element e of an operand as core y holds them. -/
def VRole.bits (r : VRole) (y : Core) (e : Nat) : Nat :=
  match r.op with
  | .ptr _ row => ofLe (y.ocBytes ((row * 64 + e * r.size) % ocSize) r.size)
  | .mem a => lineGet (y.l1Line ((y.l1Find (a.toNat / 128)).getD 0)).data (a.toNat % 128 + e * r.size) r.size
  | .desc d => ofLe (y.ocBytes (d.place 0 e).1 (elemBits d.fmt / 8))

/-- Elements are converted from the operand's own format to the instruction's (R103). -/
theorem element_eq (r : VRole) (x : Core) (e : Nat) :
    r.element x e = if r.own = r.fmt then (r.bits x e, 0) else encodeElem r.fmt x.vrm (decodeElem r.own (r.bits x e)) := by
  obtain ⟨op, fmt, per⟩ := r
  cases op with
  | desc d => rfl
  | ptr q row => exact (if_pos rfl).symm
  | mem a => exact (if_pos rfl).symm

/-- Results are converted back (R104). -/
theorem encoded_eq (r : VRole) (rm : RMode) (v : Nat) :
    r.encoded rm v = if r.own = r.fmt then (v, 0) else encodeElem r.own rm (decodeElem r.fmt v) := by
  obtain ⟨op, fmt, per⟩ := r
  cases op with
  | desc d => rfl
  | ptr q row => exact (if_pos rfl).symm
  | mem a => exact (if_pos rfl).symm

theorem width_eq (r : VRole) : r.width = elemBits r.own / 8 := by
  obtain ⟨op, fmt, per⟩ := r
  cases op <;> rfl

/-- A sound operand's own format has no scales. -/
theorem own_unscaled {r : VRole} {s : State} {k n : Nat} (hs : r.Sound s k n) (hfmt : r.fmt ∈ [0, 1, 2, 5]) :
    blockScaled r.own = false := by
  have htype : ∀ f ∈ [0, 1, 2, 5], blockScaled f = false := by decide
  obtain ⟨op, fmt, per⟩ := r
  cases op with
  | desc d =>
    obtain ⟨-, -, hscaled⟩ := hs
    exact hscaled
  | ptr q row => exact htype fmt hfmt
  | mem a => exact htype fmt hfmt

theorem bits_lt {r : VRole} {s : State} {k n : Nat} (hs : r.Sound s k n) (hfmt : r.fmt ∈ [0, 1, 2, 5]) (y : Core) (e : Nat) :
    r.bits y e < 2 ^ elemBits r.own := by
  obtain ⟨hbits, -⟩ := elemBits_unscaled (own_unscaled hs hfmt)
  rw [← hbits]
  obtain ⟨op, fmt, per⟩ := r
  cases op with
  | desc d => exact ocBytes_lt ..
  | ptr q row => exact ocBytes_lt ..
  | mem a =>
    obtain ⟨-, hsize, -⟩ := hs
    exact lineGet_lt _ hsize

/-- An element has the bits of the instruction's type. -/
theorem element_lt {r : VRole} {s : State} {k n : Nat} (hs : r.Sound s k n) (hfmt : r.fmt ∈ [0, 1, 2, 5]) (x : Core) (e : Nat) :
    (r.element x e).1 < 2 ^ elemBits r.fmt := by
  rw [element_eq]
  split_ifs with h
  · exact h ▸ bits_lt hs hfmt x e
  · exact encodeElem_lt hfmt ..

/-- With one element for each result, its source value is the element. -/
theorem value_eq {r : VRole} {s : State} {k n : Nat} (hs : r.Sound s k n) (hfmt : r.fmt ∈ [0, 1, 2, 5]) (hper : r.per = 1) (x : Core) (e : Nat) :
    r.value x e = r.element x e := by
  have hlt := element_lt hs hfmt x e
  rw [VRole.value, hper, Nat.mul_one]
  refine Prod.ext ?_ (BitVec.zero_or)
  show (r.element x (e + 0)).1 % 2 ^ elemBits r.fmt + 2 ^ elemBits r.fmt * 0 = _
  rw [Nat.mul_zero, Nat.add_zero, Nat.add_zero, Nat.mod_eq_of_lt hlt]

/-- The operand that a field names, for elements of a format. -/
def Core.role (x : Core) (native : Bool) (f : BitVec 5) (fmt : Nat) : VRole := { op := x.opnd native f, fmt := fmt }

section
variable {x : Core} {native : Bool} {f : BitVec 5} {fmt : Nat}

theorem role_fmt : (x.role native f fmt).fmt = fmt := rfl

theorem role_ptr (h : native = f.getLsbD 4) :
    x.role native f fmt = { op := .ptr (f.toNat % 16) (x.rowBase (pNo (f.toNat % 16))), fmt := fmt } := by
  rw [Core.role, Core.opnd, h, beq_self_eq_true]
  rfl

theorem role_desc (h : native = true) (hf : f.getLsbD 4 = false) : x.role native f fmt = { op := .desc (x.descOf f.toNat), fmt := fmt } := by
  have hlt : f.toNat < 16 := BitVec.toNat_lt_of_msb_false ((BitVec.msb_eq_getLsbD_last f).trans hf)
  rw [Core.role, Core.opnd, h, hf, Nat.mod_eq_of_lt hlt]
  rfl

theorem role_mem (h : native = false) (hf : f.getLsbD 4 = true) : x.role native f fmt = { op := .mem (x.rx f), fmt := fmt } := by
  rw [Core.role, Core.opnd, h, hf]
  rfl

/-- The three kinds of operand (R102). -/
theorem opnd_kinds (native : Bool) (f : BitVec 5) :
    native = f.getLsbD 4 ∨ native ≠ f.getLsbD 4 ∧ (native = true ∧ f.getLsbD 4 = false ∨ native = false ∧ f.getLsbD 4 = true) := by
  cases native <;> cases f.getLsbD 4 <;> decide

theorem opndBits_eq (y : Core) (e : Nat) : opndBits x y native f fmt e = (x.role native f fmt).bits y e := by
  rcases opnd_kinds native f with h | ⟨hne, ⟨h, hf⟩ | ⟨h, hf⟩⟩
  · rw [role_ptr h, opndBits, if_pos h]
    rfl
  · rw [role_desc h hf, opndBits, if_neg hne, if_pos h]
    rfl
  · rw [role_mem h hf, opndBits, if_neg hne, if_neg (ne_true_of_eq_false h)]
    rfl

theorem role_own : (x.role native f fmt).own = if native = true ∧ f.getLsbD 4 = false then (x.descOf f.toNat).fmt else fmt := by
  rcases opnd_kinds native f with h | ⟨hne, ⟨h, hf⟩ | ⟨h, hf⟩⟩
  · rw [role_ptr h, if_neg fun ⟨hn, hf⟩ => Bool.false_ne_true (hf.symm.trans (h.symm.trans hn))]
    rfl
  · rw [role_desc h hf, if_pos ⟨h, hf⟩]
    rfl
  · rw [role_mem h hf, if_neg fun ⟨hn, _⟩ => Bool.false_ne_true (h.symm.trans hn)]
    rfl

theorem role_own_of_desc (h : native = true ∧ f.getLsbD 4 = false) : (x.role native f fmt).own = (x.descOf f.toNat).fmt := by
  rw [role_own, if_pos h]

/-- Elements are converted where a descriptor names another format than the instruction's (R103). -/
theorem role_own_eq_iff : (x.role native f fmt).own = fmt ↔ ¬ (native = true ∧ f.getLsbD 4 = false ∧ (x.descOf f.toNat).fmt ≠ fmt) := by
  rw [role_own]
  split_ifs with h <;> tauto

theorem opndElem_eq (e : Nat) : opndElem x native f fmt e = ((x.role native f fmt).element x e).1 := by
  rw [element_eq, role_fmt, opndElem, opndBits_eq]
  by_cases h : native = true ∧ f.getLsbD 4 = false ∧ (x.descOf f.toNat).fmt ≠ fmt
  · rw [if_pos h, if_neg fun hown => role_own_eq_iff.mp hown h, role_own_of_desc ⟨h.1, h.2.1⟩]
  · rw [if_neg h, if_pos (role_own_eq_iff.mpr h)]

theorem opndStored_eq (v : Nat) :
    opndStored x native f fmt v = ((x.role native f fmt).encoded x.vrm v).1 % 2 ^ elemBits (x.role native f fmt).own := by
  rw [encoded_eq, role_fmt, opndStored]
  by_cases h : native = true ∧ f.getLsbD 4 = false ∧ (x.descOf f.toNat).fmt ≠ fmt
  · rw [if_pos h, if_neg fun hown => role_own_eq_iff.mp hown h, role_own_of_desc ⟨h.1, h.2.1⟩]
  · rw [if_neg h, role_own_eq_iff.mpr h, if_pos rfl]

/-- What the statement lets a field name is a sound operand. -/
theorem role_sound {s : State} {k n : Nat} (hfmt : fmt ∈ [0, 1, 2, 5]) (h : opndReady s k native f fmt n)
    (harmed : s.armed.get [] (unitOfKey k) = []) : ((s.core k).role native f fmt).Sound s k n := by
  rcases opnd_kinds native f with hn | ⟨hne, ⟨hn, hf⟩ | ⟨hn, hf⟩⟩
  · rw [role_ptr hn]
    trivial
  · rw [opndReady, if_neg hne, if_pos hn] at h
    rw [role_desc hn hf]
    obtain ⟨hspace, hmal, hscaled, -⟩ := h
    exact ⟨hspace, hmal, hscaled⟩
  · rw [opndReady, if_neg hne, if_neg (ne_true_of_eq_false hn)] at h
    obtain ⟨key, hit, halign, hfit⟩ := h
    have hsize : 0 < bytesOf fmt := by
      have htype : ∀ f ∈ [0, 1, 2, 5], 0 < bytesOf f := by decide
      exact htype fmt hfmt
    rw [role_mem hn hf]
    exact ⟨rfl, hsize, halign, hfit, ⟨key, hit⟩, harmed⟩

end

end Sys2Proof.Machine
end

section
/-! SUPPORT. The destination of a granule after its writes: the elements written, the others, and the rest of the core (R101, R104). -/

namespace Sys2Proof.Machine
open Sys2Proof Sys2Proof.Claims

/-- Core y is core x with some results stored in an operand of n elements. -/
structure VRole.Stored (r : VRole) (rm : RMode) (n : Nat) (out : List (Nat × Nat)) (x y : Core) : Prop where
  written : ∀ o ∈ out, r.bits y o.1 = (r.encoded rm o.2).1 % 2 ^ elemBits r.own
  kept : ∀ e < n, e ∉ out.map (·.1) → r.bits y e = r.bits x e
  outside : ∀ q row, r.op = .ptr q row → ∀ b, (∀ j < n * r.size, b ≠ (row * 64 + j) % ocSize) → y.oc.get 0 b = x.oc.get 0 b
  sr : ∀ m, y.sr m = x.sr m

theorem ocBytes_mod (y : Core) (a n : Nat) : y.ocBytes (a % ocSize) n = y.ocBytes a n := by
  simp only [Core.ocBytes, rangeFrom, List.map_map]
  refine List.map_congr_left fun i _ => ?_
  simp only [Function.comp_apply, Nat.mod_add_mod]

/-- Elements outside memory are those at their addresses in the operand cache. -/
theorem bits_oc {r : VRole} (h : r.op.inMemory = false) (y : Core) (e : Nat) : r.bits y e = ofLe (y.ocBytes (r.addr e) r.width) := by
  obtain ⟨op, fmt, per⟩ := r
  cases op with
  | mem a => contradiction
  | ptr q row => exact congrArg ofLe (ocBytes_mod ..)
  | desc d => rfl

/-- The elements of a granule that a pointer names lie apart (R95). -/
theorem apart_ptr {r : VRole} {q row n : Nat} (hop : r.op = .ptr q row) (hn : n ≤ 64) (hsize : r.size ≤ 64) {e g : Nat} (he : e < n) (hg : g < n)
    (hne : e ≠ g) : Apart r.addr r.width e g := by
  obtain ⟨op, fmt, per⟩ := r
  cases hop
  intro p hp i hi
  generalize hz : VRole.size { op := .ptr q row, fmt := fmt, per := per } = z at hsize
  have hp : p < z := hz ▸ hp
  have hi : i < z := hz ▸ hi
  have haddr : ∀ e, VRole.addr { op := .ptr q row, fmt := fmt, per := per } e = row * 64 + e * z := fun e => by rw [← hz]; rfl
  have hspan : ∀ e < n, e * z + z ≤ 4096 := fun e he => by
    calc e * z + z = (e + 1) * z := (Nat.succ_mul e z).symm
      _ ≤ 64 * 64 := Nat.mul_le_mul (by omega) hsize
  have := hspan e he
  have := hspan g hg
  rw [haddr, haddr]
  simp only [ocSize]
  rcases Nat.lt_or_gt_of_ne hne with h | h
  · have := Nat.mul_le_mul_right z h
    rw [Nat.succ_mul] at this
    omega
  · have := Nat.mul_le_mul_right z h
    rw [Nat.succ_mul] at this
    omega

section
variable {r : VRole} {rm : RMode} {n : Nat} {out : List (Nat × Nat)} {x y : Core}

theorem width_le {s : State} {k : Nat} (hs : r.Sound s k n) (hfmt : r.fmt ∈ [0, 1, 2, 5]) : r.width ≤ 8 := by
  have hlt : r.own < 7 := by simpa [blockScaled] using own_unscaled hs hfmt
  have hall : ∀ f < 7, elemBits f / 8 ≤ 8 := by decide
  rw [width_eq]
  exact hall _ hlt

/-- Writes of the operand cache, of elements that lie apart, store them. -/
theorem stored_oc {s : State} {k : Nat} (hs : r.Sound s k n) (hfmt : r.fmt ∈ [0, 1, 2, 5]) (hmem : r.op.inMemory = false)
    (hlt : ∀ o ∈ out, o.1 < n) (hnodup : (out.map (·.1)).Nodup) (hapart : ∀ e < n, ∀ g < n, e ≠ g → Apart r.addr r.width e g)
    (hoc : y.oc = putBytes x.oc (elemBytes r.addr r.width (out.map fun o => (o.1, (r.encoded rm o.2).1)))) (hsr : ∀ m, y.sr m = x.sr m) :
    r.Stored rm n out x y := by
  obtain ⟨hbits, -⟩ := elemBits_unscaled (own_unscaled hs hfmt)
  refine ⟨fun o ho => ?_, fun e he hnot => ?_, fun q row hop b hb => ?_, hsr⟩
  · have hothers : ∀ g ∈ out.map fun o => (o.1, (r.encoded rm o.2).1), g = (o.1, (r.encoded rm o.2).1) ∨ Apart r.addr r.width o.1 g.1 := by
      intro g hg
      obtain ⟨p, hp, rfl⟩ := List.mem_map.mp hg
      by_cases hpo : p.1 = o.1
      · rw [List.inj_on_of_nodup_map hnodup hp ho hpo]
        exact .inl rfl
      · exact .inr (hapart _ (hlt o ho) _ (hlt p hp) fun h => hpo h.symm)
    have hbytes := ocBytes_elemBytes_same hoc (width_le hs hfmt) (List.mem_map_of_mem ho) hothers
    rw [bits_oc hmem, hbytes, ofLe_leBytes, width_eq, hbits]
  · rw [bits_oc hmem, bits_oc hmem, ocBytes_elemBytes_other hoc fun g hg => ?_]
    · rfl
    · obtain ⟨p, hp, rfl⟩ := List.mem_map.mp hg
      exact hapart e he _ (hlt p hp) fun h => hnot (List.mem_map.mpr ⟨p, hp, h.symm⟩)
  · rw [hoc]
    refine get_putBytes_other fun w hw hwb => ?_
    obtain ⟨g, hg, i, hi, rfl⟩ := mem_elemBytes.mp hw
    obtain ⟨p, hp, rfl⟩ := List.mem_map.mp hg
    obtain ⟨op, fmt, per⟩ := r
    cases hop
    generalize hz : VRole.size { op := .ptr q row, fmt := fmt, per := per } = z at hb
    have hi : i < z := hz ▸ hi
    have haddr : VRole.addr { op := .ptr q row, fmt := fmt, per := per } p.1 = row * 64 + p.1 * z := by rw [← hz]; rfl
    have hspan : p.1 * z + z ≤ n * z := (Nat.succ_mul p.1 z).symm.trans_le (Nat.mul_le_mul_right z (hlt p hp))
    refine hb (p.1 * z + i) (by omega) ?_
    rw [← hwb, ← Nat.add_assoc, ← haddr]

/-- The stores to a line that L1 holds store them. -/
theorem stored_line {s t u : State} {k key fmt per : Nat} {a : W64} {data : LineData} (hfmt : fmt ∈ [0, 1, 2, 5]) (hit : l1Hit s k a key)
    (hseen : Seen k s t) (hwrote : Wrote k key t u data)
    (hsame : ∀ o ∈ out, lineGet data (a.toNat % 128 + o.1 * (elemBits fmt / 8)) (elemBits fmt / 8) = o.2 % 2 ^ (8 * (elemBits fmt / 8)))
    (hother : ∀ e < n, e ∉ out.map (·.1) → lineGet data (a.toNat % 128 + e * (elemBits fmt / 8)) (elemBits fmt / 8)
      = lineGet ((t.core k).l1Line key).data (a.toNat % 128 + e * (elemBits fmt / 8)) (elemBits fmt / 8)) :
    VRole.Stored ⟨.mem a, fmt, per⟩ rm n out (s.core k) (u.core k) := by
  have hbytes : ∀ f ∈ [0, 1, 2, 5], 8 * (elemBits f / 8) = elemBits f := by decide
  have hfind := l1Hit_find (hwrote.l1Hit (l1Hit_seen hit hseen))
  have hfind' := l1Hit_find hit
  obtain ⟨-, hcore', -, -, -, hdata⟩ := hwrote
  obtain ⟨-, hcore, hlines⟩ := hseen
  obtain ⟨lru, hlru⟩ := hlines key
  refine ⟨fun o ho => ?_, fun e he hnot => ?_, fun q row hop => (nomatch hop), fun m => ?_⟩
  · show lineGet ((u.core k).l1Line (((u.core k).l1Find (a.toNat / 128)).getD 0)).data (a.toNat % 128 + o.1 * _) _ = o.2 % _
    rw [hfind, Option.getD_some, hdata]
    exact (hsame o ho).trans (congrArg (o.2 % 2 ^ ·) (hbytes fmt hfmt))
  · show lineGet ((u.core k).l1Line (((u.core k).l1Find (a.toNat / 128)).getD 0)).data (a.toNat % 128 + e * _) _
      = lineGet ((s.core k).l1Line (((s.core k).l1Find (a.toNat / 128)).getD 0)).data (a.toNat % 128 + e * _) _
    rw [hfind, hfind', Option.getD_some, hdata]
    exact (hother e he hnot).trans (by rw [hlru]; rfl)
  · rw [hcore', hcore]
    rfl

/-- The writes of a granule's results store them. -/
theorem put_stored {rs : List VRole} {s t : State} {k : Nat} (hs : r.Sound s k n) (hfmt : r.fmt ∈ [0, 1, 2, 5]) (ht : Gathered rs k s t)
    (hbad : (s.core k).ocBad = []) (harm : ∀ a ∈ s.armed.get [] (unitOfKey k), a.num ≠ 0x0104) (hlt : ∀ o ∈ out, o.1 < n)
    (hnodup : (out.map (·.1)).Nodup) (hapart : r.op.inMemory = false → ∀ e < n, ∀ g < n, e ≠ g → Apart r.addr r.width e g) :
    Ends (r.put k (l1Port k (s.core k).level) (s.core k).vrm out) t fun w t' =>
      Ends ((l1Port k (s.core k).level).putAll k w.1) t' fun _ u => r.Stored (s.core k).vrm n out (s.core k) (u.core k)
        ∧ w.2 = out.foldl (fun f o => f ||| (r.encoded (s.core k).vrm o.2).2) 0 := by
  obtain ⟨hseen, -⟩ := ht
  obtain ⟨hst, hcore, -⟩ := id hseen
  by_cases hmem : r.op.inMemory = false
  · refine (put_ends hs hmem (l1Port k (s.core k).level) (s.core k).vrm out).mono fun w u ⟨hu, hws, hfl⟩ => ?_
    subst hu
    have harm' : ∀ a ∈ u.armed.get [] (unitOfKey k), a.num ≠ 0x0104 := by rwa [hst]
    refine (putAll_oc hws harm' (hseen.ocBad.trans hbad) _).mono fun _ v ⟨_, hv⟩ => ⟨?_, hfl⟩
    refine stored_oc hs hfmt hmem hlt hnodup (hapart hmem) ?_ fun m => ?_
    · rw [hv, hcore]
    · rw [hv, hcore]
      rfl
  · obtain ⟨op, fmt, per⟩ := r
    cases op with
    | ptr q row => exact absurd rfl hmem
    | desc d => exact absurd rfl hmem
    | mem a =>
      obtain ⟨-, hsize, -, hfit, ⟨key, hit⟩, harmed⟩ := id hs
      have harm' : t.armed.get [] (unitOfKey k) = [] := by rwa [hst]
      refine .of_run rfl ?_
      dsimp only
      rw [l1Hit_level hit]
      exact (putAll_line (l1Hit_seen hit hseen) harm' hsize hfit hlt hnodup).mono fun _ u ⟨data, hwrote, hsame, hother⟩ =>
        ⟨stored_line hfmt hit hseen hwrote hsame hother, by simp [VRole.encoded]⟩

end

end Sys2Proof.Machine
end

section
/-! SUPPORT. One granule of an instruction of R111's table: the lanes stored in D, the flags, and the tap; and the copy of bits between
descriptors of one format, which leaves the same (R118, R122, R200, R202). -/

namespace Sys2Proof.Machine
open Sys2Proof Sys2Proof.Claims

/-- A granule of a copy between descriptors of the instruction's own format, without scales. -/
theorem granule_copy_eq {j : VJob} {da dd : Desc} {fmt per per' : Nat} (hlogic : j.logic = []) (hcopy : j.copy = true)
    (hsrcs : j.srcs = [⟨.desc da, fmt, per⟩]) (hdst : j.dst = some ⟨.desc dd, fmt, per'⟩) (hda : da.fmt = fmt) (hdd : dd.scaled = false)
    (k g : Nat) :
    j.granule k g = j.starts k g (fun c es => do
      let xs ← collect es fun e => do return (e, ← da.readElem k (l1Port k c.level) 0 e)
      j.commit k g (l1Port k c.level) (xs.map fun x => (x.1, x.2.1)) (xs.map fun x => dd.putElem 0 x.1 x.2.1) 0) := by
  obtain ⟨n, srcs, dst, gmask, sel, mdst, masks, logic, packed, fold, copy, lane⟩ := j
  dsimp only at hlogic hcopy hsrcs hdst
  subst hlogic hcopy hsrcs hdst
  simp only [VJob.granule, VJob.starts, VJob.maskReads, VJob.commit, copyGranule, hdd, hda, if_true, Bool.false_eq_true, if_false]
  split_ifs <;> cases fold <;>
    simp only [bind_assoc, pure_bind, Option.elim_none, Option.elim_some] <;> rfl

/-- An instruction of one type whose lanes go to an operand, or are the bits of one descriptor's elements to another of its format. -/
structure VJob.Lanes (j : VJob) (r : VRole) (f : Nat) : Prop where
  dst : j.dst = some r
  logic : j.logic = []
  typed : f ∈ [0, 1, 2, 5]
  roles : ∀ q ∈ j.roles, q.fmt = f ∧ q.per = 1
  copy : j.copy = false ∨ ∃ da dd, j.copy = true ∧ j.srcs = [⟨.desc da, f, 1⟩] ∧ r = ⟨.desc dd, f, 1⟩ ∧ da.fmt = f ∧ dd.fmt = f
    ∧ j.sel = 0 ∧ ∀ xs, j.lane xs = (xs.headD 0, 0)

theorem reach_sound {r : VRole} {s : State} {k n : Nat} (hs : r.Sound s k n) (es : List Nat) : r.reach es = es := by
  obtain ⟨op, fmt, per⟩ := r
  cases op with
  | desc d =>
    obtain ⟨-, -, hscaled⟩ := hs
    exact if_neg (ne_true_of_eq_false hscaled)
  | ptr q row => rfl
  | mem a => rfl

theorem nodup_onElems (j : VJob) (x : Core) (g : Nat) : (j.onElems x g).Nodup :=
  (nodup_map_add List.nodup_range g).filter _

theorem results_fst (j : VJob) (x : Core) (es : List Nat) : (j.results x es).map (·.1) = es := by
  rw [VJob.results, List.map_map]
  exact List.map_id es

/-- The writes of results to a descriptor of their own format. -/
theorem put_copy {dd : Desc} {f per : Nat} (h : dd.scaled = false) (hdd : dd.fmt = f) (k : Nat) (p : MemPort) (rm : RMode)
    (out : List (Nat × Nat)) (s : State) :
    (VRole.put ⟨.desc dd, f, per⟩ k p rm out).run s = .ok (out.map fun o => dd.putElem 0 o.1 o.2, 0) s := by
  subst hdd
  dsimp only [VRole.put]
  rw [h]
  simp only [Bool.false_eq_true, if_false, if_true, joinPuts, run_pure, List.flatMap_map, ← List.map_eq_flatMap, List.foldl_map]
  simp

theorem results_lt {j : VJob} {x : Core} {g : Nat} : ∀ o ∈ j.results x (j.onElems x g), o.1 < j.n := fun o ho => by
  obtain ⟨e, he, rfl⟩ := List.mem_map.mp ho
  exact onElems_lt he

theorem nodup_results (j : VJob) (x : Core) (g : Nat) : ((j.results x (j.onElems x g)).map (·.1)).Nodup := by
  rw [results_fst]
  exact nodup_onElems ..

/-- The flags of the conversions of some results (R104, R122). -/
def VRole.storeFlags (r : VRole) (rm : RMode) (out : List (Nat × Nat)) : Flags := out.foldl (fun f o => f ||| (r.encoded rm o.2).2) 0

theorem storeFlags_own {r : VRole} (h : r.own = r.fmt) (rm : RMode) (out : List (Nat × Nat)) : r.storeFlags rm out = 0 := by
  simp [VRole.storeFlags, encoded_eq, h]

/-- A copy between descriptors of the instruction's type: its results are the source's bits, and it raises no flag. -/
theorem results_copy {j : VJob} {da : Desc} {f k n : Nat} {s : State} (hsrcs : j.srcs = [⟨.desc da, f, 1⟩]) (hda : da.fmt = f)
    (hsel : j.sel = 0) (hlane : ∀ xs, j.lane xs = (xs.headD 0, 0)) (hs : VRole.Sound ⟨.desc da, f, 1⟩ s k n) (htyped : f ∈ [0, 1, 2, 5])
    (x : Core) (es : List Nat) : j.results x es = es.map (fun e => (e, VRole.bits ⟨.desc da, f, 1⟩ x e)) ∧ j.flags x es = 0 := by
  have hin : ∀ e, j.laneIn x e = ([VRole.bits ⟨.desc da, f, 1⟩ x e], 0) := fun e => by
    rw [VJob.laneIn, hsrcs, List.map_singleton, value_eq hs htyped rfl, element_eq, if_pos (show VRole.own ⟨.desc da, f, 1⟩ = f from hda), hsel]
    simp
  constructor
  · rw [VJob.results]
    simp only [hin, hlane, List.headD_cons]
  · simp [VJob.flags, hin, hlane]

section
variable {j : VJob} {r : VRole} {f k : Nat} {s : State} (hj : j.Lanes r f) (hbad : (s.core k).ocBad = [])
  (harm : ∀ a ∈ s.armed.get [] (unitOfKey k), a.num ≠ 0x0104) (hsound : ∀ r ∈ j.roles, r.Sound s k j.n)
  (hapart : r.op.inMemory = false → ∀ e < j.n, ∀ g < j.n, e ≠ g → Apart r.addr r.width e g)
include hj hbad harm hsound hapart

/-- The writes of a granule's lanes store them in D. -/
theorem lanes_put (g : Nat) {t : State} (ht : Gathered j.roles k s t) :
    Ends (r.put k (l1Port k (s.core k).level) (s.core k).vrm (j.results (s.core k) (j.onElems (s.core k) g))) t fun w t' =>
      Ends ((l1Port k (s.core k).level).putAll k w.1) t' fun _ u =>
        r.Stored (s.core k).vrm j.n (j.results (s.core k) (j.onElems (s.core k) g)) (s.core k) (u.core k)
          ∧ w.2 = r.storeFlags (s.core k).vrm (j.results (s.core k) (j.onElems (s.core k) g)) := by
  have hr : r ∈ j.roles := List.mem_append_left _ (by rw [hj.dst]; exact List.mem_singleton_self r)
  obtain ⟨hfmt, -⟩ := hj.roles r hr
  exact put_stored (hsound r hr) (hfmt ▸ hj.typed) ht hbad harm results_lt (nodup_results ..) hapart

/-- What a granule leaves: its lanes in D, its flags, and its tap. -/
theorem lanes_granule (g : Nat) : Ends (j.granule k g) s fun _ t => ∃ y,
    r.Stored (s.core k).vrm j.n (j.results (s.core k) (j.onElems (s.core k) g)) (s.core k) y
      ∧ t.core k = j.tapped g (j.results (s.core k) (j.onElems (s.core k) g)) (y.orVflags
          (j.flags (s.core k) (j.onElems (s.core k) g) ||| r.storeFlags (s.core k).vrm (j.results (s.core k) (j.onElems (s.core k) g)))) := by
  have hput := fun t => lanes_put hj hbad harm hsound hapart g (t := t)
  obtain ⟨hdst, hlogic, htyped, -, hcopy⟩ := hj
  have hreach : ∀ q ∈ j.dst, q.reach (j.onElems (s.core k) g) = j.onElems (s.core k) g := fun q hq =>
    reach_sound (hsound q (List.mem_append_left _ (Option.mem_toList.mpr hq))) _
  rcases hcopy with hcopy | ⟨da, dd, hcopy, hsrcs, rfl, hda, hdd, hsel, hlane⟩
  · refine (granule_ends hbad hsound hlogic hcopy hreach (P := fun fl u => r.Stored (s.core k).vrm j.n _ (s.core k) (u.core k)
      ∧ fl = r.storeFlags (s.core k).vrm _) fun t ht => ?_).mono fun _ t ⟨fl, u, ⟨hu, hfl⟩, _, hcore⟩ => ⟨u.core k, hu, hfl ▸ hcore⟩
    rw [VJob.writes, hdst]
    exact hput t ht
  · obtain ⟨hspace, -, hscaled⟩ := hsound _ (List.mem_append_left _ (by rw [hdst]; exact List.mem_singleton_self _))
    have hsrc := hsound ⟨.desc da, f, 1⟩ (List.mem_append_right _ (by rw [hsrcs]; exact List.mem_singleton_self _))
    obtain ⟨hspace', -, hscaled'⟩ := id hsrc
    obtain ⟨hresults, hflags⟩ := results_copy hsrcs hda hsel hlane hsrc htyped (s.core k) (j.onElems (s.core k) g)
    rw [granule_copy_eq hlogic hcopy hsrcs hdst hda hscaled, hflags, storeFlags_own (r := ⟨.desc dd, f, 1⟩) hdd]
    refine starts_ends hbad hsound hreach ?_
    refine (Ends.collect (I := fun t => t = s) (fun e => (e, VRole.bits ⟨.desc da, f, 1⟩ (s.core k) e, 127)) rfl fun e _ u hu => ?_).bind
      fun xs u ⟨hxs, hu⟩ => ?_
    · subst hu
      exact .bind_run (readElem_unscaled hspace' hscaled' hbad ..) (.of_run rfl ⟨rfl, rfl⟩)
    subst hu hxs
    obtain ⟨w, t, hw, hstores⟩ := hput u (.refl ..)
    rw [hresults] at hw hstores ⊢
    obtain ⟨rfl, rfl⟩ : _ ∧ _ := by simpa using hw.symm.trans (put_copy (per := 1) hscaled hdd k (l1Port k (u.core k).level) (u.core k).vrm _ u)
    simp only [List.map_map, Function.comp_def] at hstores ⊢
    exact (commit_ends hstores).mono fun _ t ⟨v, ⟨hv, _⟩, _, hcore⟩ => ⟨v.core k, hv, hcore⟩

end

end Sys2Proof.Machine
end

section
/-! SUPPORT. The job of an instruction of R111's table: its operands, its count, and its lanes (R102, R103, R111). -/

namespace Sys2Proof.Machine
open Sys2Proof Sys2Proof.Claims

/-- The job of an element-wise instruction of n elements on core x. -/
def EwOp.jobOf (o : EwOp) (x : Core) (v : VArgs) (n : Nat) : VJob :=
  { o.job x v.native v.dD v.dA v.dB (typeFmt v.ty) v.mask.toNat with n := n }

/-- What it runs, with its tap (R118). -/
def EwOp.runOf (o : EwOp) (x : Core) (v : VArgs) (n : Nat) : VJob :=
  o.run (o.jobOf x v n) v.tap (bitsOf (x.sr rcfgNo).toNat 6 4) (bitsOf (x.sr rcfgNo).toNat 1 0)

/-- A field names a descriptor in the native form alone (R102). -/
theorem role_desc?_none {x : Core} {native : Bool} {f : BitVec 5} {fmt : Nat} (h : ¬ (native = true ∧ f.getLsbD 4 = false)) :
    (x.role native f fmt).op.desc? = none := by
  rcases opnd_kinds native f with hn | ⟨-, ⟨hn, hf⟩ | ⟨hn, hf⟩⟩
  · rw [role_ptr hn]
    rfl
  · exact absurd ⟨hn, hf⟩ h
  · rw [role_mem hn hf]
    rfl

/-- The elements that a lane is given: those of the operands used, in the order A, B, D. -/
def laneArgs (usesA usesB usesD : Bool) (a b d : Nat) : List Nat :=
  (if usesA then [a] else []) ++ (if usesB then [b] else []) ++ (if usesD then [d] else [])

theorem laneArgs_get {usesA usesB usesD : Bool} {a b d : Nat} (h : usesA = false → usesB = false ∧ usesD = false) :
    (laneArgs usesA usesB usesD a b d).headD 0 = (if usesA then a else 0)
      ∧ (if usesB then (laneArgs usesA usesB usesD a b d).getD 1 0 else 0) = (if usesB then b else 0)
      ∧ (if usesD then (laneArgs usesA usesB usesD a b d).getD (b2n usesA + b2n usesB) 0 else 0) = (if usesD then d else 0) := by
  cases usesA
  · obtain ⟨rfl, rfl⟩ := h rfl
    exact ⟨rfl, rfl, rfl⟩
  · cases usesB <;> cases usesD <;> exact ⟨rfl, rfl, rfl⟩

section
variable {i : Instr} {c : CoreId} {v : VArgs} {lane : LaneFn} {o : EwOp}
  (hL : LaneOp i c v lane o) (x : Core) (n : Nat)

theorem runOf_roles (o : EwOp) : (o.runOf x v n).roles = (o.fields v.dD v.dA v.dB).map fun f => x.role v.native f (typeFmt v.ty) :=
  job_roles o x v.native v.dD v.dA v.dB (typeFmt v.ty) v.mask.toNat

include hL

/-- The lanes of the job go to D. -/
theorem runOf_lanes (hmov : o.isMov = true → v.native = true → ∀ f ∈ o.fields v.dD v.dA v.dB, f.getLsbD 4 = false →
    (x.descOf f.toNat).fmt = typeFmt v.ty) : (o.runOf x v n).Lanes (x.role v.native v.dD (typeFmt v.ty)) (typeFmt v.ty) := by
  refine ⟨rfl, rfl, typeFmt_mem v.ty, fun q hq => ?_, ?_⟩
  · rw [runOf_roles] at hq
    obtain ⟨f, -, rfl⟩ := List.mem_map.mp hq
    exact ⟨rfl, rfl⟩
  · cases hm : o.isMov
    · left
      show (o.isMov && _) = false
      rw [hm]
      rfl
    obtain ⟨-, rfl⟩ := hL.mov hm
    have hcopy : (ewMov.runOf x v n).copy = (ewMov.jobOf x v n).sameFmt := rfl
    have hsrcs : (ewMov.jobOf x v n).srcs = [x.role v.native v.dA (typeFmt v.ty)] := rfl
    have hdst : (ewMov.jobOf x v n).dst = some (x.role v.native v.dD (typeFmt v.ty)) := rfl
    rw [hcopy]
    by_cases hdesc : v.native = true ∧ v.dA.getLsbD 4 = false ∧ v.dD.getLsbD 4 = false
    · obtain ⟨hn, hA, hD⟩ := hdesc
      have hfA : (x.descOf v.dA.toNat).fmt = typeFmt v.ty := hmov rfl hn v.dA (by simp [EwOp.fields, ewMov]) hA
      have hfD : (x.descOf v.dD.toNat).fmt = typeFmt v.ty := hmov rfl hn v.dD (by simp [EwOp.fields]) hD
      refine .inr ⟨x.descOf v.dA.toNat, x.descOf v.dD.toNat, ?_, hsrcs.trans (by rw [role_desc hn hA]), role_desc hn hD, hfA, hfD, rfl,
        fun _ => rfl⟩
      rw [VJob.sameFmt, hsrcs, hdst, role_desc hn hA, role_desc hn hD]
      exact beq_iff_eq.mpr (hfA.trans hfD.symm)
    · left
      by_cases hD : v.native = true ∧ v.dD.getLsbD 4 = false
      · refine sameFmt_of_none (.inl ⟨_, hsrcs, ?_⟩)
        exact role_desc?_none fun hA => hdesc ⟨hA.1, hA.2, hD.2⟩
      · exact sameFmt_of_none (.inr ⟨_, hdst, role_desc?_none hD⟩)

/-- The inputs of a lane, from the elements of A, B and D. -/
theorem runOf_laneIn {s : State} {k : Nat} (hsound : ∀ r ∈ (o.runOf x v n).roles, r.Sound s k n) (y : Core) (e : Nat) :
    ((o.runOf x v n).laneIn y e).1 = laneArgs o.usesA (o.usesB && !o.fForm) o.usesD ((x.role v.native v.dA (typeFmt v.ty)).element y e).1
      ((x.role v.native v.dB (typeFmt v.ty)).element y e).1 ((x.role v.native v.dD (typeFmt v.ty)).element y e).1 := by
  have hvalue : ∀ f ∈ o.fields v.dD v.dA v.dB, (x.role v.native f (typeFmt v.ty)).value y e = (x.role v.native f (typeFmt v.ty)).element y e :=
    fun f hf => value_eq (hsound _ (by rw [runOf_roles]; exact List.mem_map_of_mem hf)) (typeFmt_mem v.ty) rfl y e
  have hsrcs : (o.runOf x v n).srcs = (if o.usesA then [x.role v.native v.dA (typeFmt v.ty)] else [])
      ++ (if o.usesB && !o.fForm then [x.role v.native v.dB (typeFmt v.ty)] else [])
      ++ (if o.usesD then [x.role v.native v.dD (typeFmt v.ty)] else []) := rfl
  have hsel : (o.runOf x v n).sel = 0 := by
    show (if o.isSel then _ else 0) = 0
    rw [hL.sel]
    rfl
  have hA : o.usesA = true → (x.role v.native v.dA (typeFmt v.ty)).value y e = (x.role v.native v.dA (typeFmt v.ty)).element y e :=
    fun h => hvalue v.dA (by simp [EwOp.fields, h])
  have hB : (o.usesB && !o.fForm) = true → (x.role v.native v.dB (typeFmt v.ty)).value y e = (x.role v.native v.dB (typeFmt v.ty)).element y e :=
    fun h => hvalue v.dB (by simp [EwOp.fields, h])
  rw [laneArgs, VJob.laneIn, hsrcs, hsel, if_pos rfl, List.append_nil]
  simp only [List.map_append, apply_ite (List.map _), List.map_cons, List.map_nil]
  rw [hvalue v.dD (List.mem_cons_self ..)]
  congr 2 <;> split_ifs with h <;> simp only [hA, hB, h]

/-- The lane of an element, from the elements of A, B and D (R111). -/
theorem runOf_lane {s : State} {k : Nat} (hsound : ∀ r ∈ (o.runOf x v n).roles, r.Sound s k n) (hty : o.typeOk v.ty = true)
    (y : Core) (e : Nat) :
    (o.runOf x v n).lane ((o.runOf x v n).laneIn y e).1 = lane (typeFmt v.ty) x.vrm (x.rf v.dB).toNat
        ((x.role v.native v.dA (typeFmt v.ty)).element y e).1 ((x.role v.native v.dB (typeFmt v.ty)).element y e).1
        ((x.role v.native v.dD (typeFmt v.ty)).element y e).1
      ∧ ((o.runOf x v n).lane ((o.runOf x v n).laneIn y e).1).1 < 2 ^ elemBits (typeFmt v.ty) := by
  have hfit : ∀ f ∈ o.fields v.dD v.dA v.dB, ((x.role v.native f (typeFmt v.ty)).element y e).1 < 2 ^ elemBits (typeFmt v.ty) := fun f hf =>
    element_lt (hsound _ (by rw [runOf_roles]; exact List.mem_map_of_mem hf)) (typeFmt_mem v.ty) y e
  have hrun : ∀ xs, (o.runOf x v n).lane xs = o.lane (typeFmt v.ty) x.vrm (xs.headD 0)
      (if o.fForm then (x.rf v.dB).toNat else if o.usesB && !o.fForm then xs.getD 1 0 else 0)
      (if o.usesD then xs.getD (b2n o.usesA + b2n (o.usesB && !o.fForm)) 0 else 0) := fun xs => by
    show (if o.isSel then _ else _) = _
    rw [hL.sel]
    rfl
  obtain ⟨heq, hlt⟩ := hL.lane_eq hty x.vrm (x.rf v.dB).toNat _ _ ((x.role v.native v.dD (typeFmt v.ty)).element y e).1 (x.rf v.dB).isLt
    (fun h => hfit v.dA (by simp [EwOp.fields, h])) (fun h => hfit v.dB (by simp [EwOp.fields, h]))
  obtain ⟨hfirst, hsecond, hlast⟩ := laneArgs_get (a := ((x.role v.native v.dA (typeFmt v.ty)).element y e).1)
    (b := ((x.role v.native v.dB (typeFmt v.ty)).element y e).1) (d := ((x.role v.native v.dD (typeFmt v.ty)).element y e).1) hL.unary
  rw [hrun, runOf_laneIn hL x n hsound, hfirst, hsecond, hlast, heq]
  exact ⟨rfl, hlt⟩

end

end Sys2Proof.Machine
end

section
/-! SUPPORT. An instruction of R111's table on sound operands, in one granule, from its checks to its completion. -/

namespace Sys2Proof.Machine
open Sys2Proof Sys2Proof.Claims

/-! ### The element count of the native form (R103) -/

theorem nativeCount_eq {rs : List VRole} {n : Nat} (hper : ∀ r ∈ rs, r.per = 1) (hn : n ≤ 2 ^ 32 - 64)
    (hcount : ∀ r ∈ rs, ∀ d, r.op.desc? = some d → d.count = n) (hsome : ∃ r ∈ rs, r.op.desc? ≠ none) : nativeCount rs = some n := by
  have hall : ∀ p ∈ rs.filterMap fun r => r.op.desc?.map fun d => (d.count, r.per), p = (n, 1) := fun p hp => by
    obtain ⟨r, hr, hp⟩ := List.mem_filterMap.mp hp
    obtain ⟨d, hd, rfl⟩ := Option.map_eq_some_iff.mp hp
    rw [hcount r hr d hd, hper r hr]
  have hne : (rs.filterMap fun r => r.op.desc?.map fun d => (d.count, r.per)) ≠ [] := by
    obtain ⟨r, hr, hd⟩ := hsome
    obtain ⟨d, hd⟩ := Option.ne_none_iff_exists'.mp hd
    exact List.ne_nil_of_mem (List.mem_filterMap.mpr ⟨r, hr, by rw [hd]; rfl⟩)
  rw [nativeCount]
  generalize (rs.filterMap fun r => r.op.desc?.map fun d => (d.count, r.per)) = ds at hall hne
  cases ds with
  | nil => contradiction
  | cons p ds =>
    obtain rfl := hall p (List.mem_cons_self ..)
    have hcheck : (((n, 1) :: ds).all fun x => x.1 % x.2 == 0 && x.1 / x.2 == n / 1) = true :=
      List.all_eq_true.mpr fun q hq => by
        rw [hall q hq]
        simp [Nat.mod_one]
    dsimp only
    rw [hcheck, Nat.div_one, decide_eq_true hn]
    rfl

theorem badDesc_sound {r : VRole} {s : State} {k n : Nat} (hs : r.Sound s k n) (isDst : Bool) : r.badDesc isDst (n == 0) = false := by
  obtain ⟨op, fmt, per⟩ := r
  cases op with
  | ptr q row => rfl
  | mem a => rfl
  | desc d =>
    obtain ⟨hspace, hmal, hscaled⟩ := hs
    have hfmt : decide (13 ≤ d.fmt) = false := by
      rw [Desc.malformed] at hmal
      exact (Bool.or_eq_false_iff.mp hmal).1
    dsimp only [VRole.badDesc]
    rw [hspace, hmal, hscaled, hfmt]
    simp

/-- The count of an instruction on sound operands: VL, or that of its descriptors. -/
theorem counted_eq {j : VJob} {x : Core} {native : Bool} {s : State} {k n : Nat} (hper : ∀ r ∈ j.roles, r.per = 1)
    (hsound : ∀ r ∈ j.roles, r.Sound s k n) (hvl : native = false → (x.sr vlNo).toNat = n)
    (hnative : native = true → n ≤ 2 ^ 32 - 64 ∧ (∀ r ∈ j.roles, ∀ d, r.op.desc? = some d → d.count = n)
      ∧ ∃ r ∈ j.roles, r.op.desc? ≠ none) :
    j.counted x native = some { j with n := n } := by
  cases native with
  | false =>
    rw [VJob.counted, if_neg Bool.false_ne_true, hvl rfl]
  | true =>
    obtain ⟨hn, hcount, hsome⟩ := hnative rfl
    have hsrcs : j.srcs.any (·.badDesc false (n == 0)) = false :=
      List.any_eq_false.mpr fun r hr => by rw [badDesc_sound (hsound r (List.mem_append_right _ hr))]; decide
    have hdst : j.dst.toList.any (·.badDesc true (n == 0)) = false :=
      List.any_eq_false.mpr fun r hr => by rw [badDesc_sound (hsound r (List.mem_append_left _ hr))]; decide
    rw [VJob.counted, if_pos rfl, nativeCount_eq hper hn hcount hsome]
    dsimp only
    rw [hsrcs, hdst]
    rfl

/-! ### VFLAGS lowered at the start (R121) -/

theorem vrm_lowered (x : Core) : x.lowered.vrm = x.vrm := by
  rw [Core.vrm, Core.lowered, Core.sr_setSr_same, Core.vrm]
  have hmask : (x.sr vflagsNo &&& ~~~(w64 0x3F0000)).toNat % 256 = (x.sr vflagsNo).toNat % 256 := by
    have h : (x.sr vflagsNo &&& ~~~(w64 0x3F0000)).setWidth 8 = (x.sr vflagsNo).setWidth 8 := by
      rw [BitVec.setWidth_and]
      exact BitVec.and_allOnes
    exact (BitVec.toNat_setWidth ..).symm.trans ((congrArg BitVec.toNat h).trans (BitVec.toNat_setWidth ..))
  have hfield : ∀ a : Nat, bitsOf a 7 6 = a % 256 / 64 := fun a => by
    rw [bitsOf, Nat.shiftRight_eq_div_pow]
    omega
  rw [hfield, hfield, hmask]

theorem sr_lowered (x : Core) {n : Nat} (h : n ≠ vflagsNo) : x.lowered.sr n = x.sr n := Core.sr_setSr_other _ h _

theorem element_lowered (r : VRole) (x : Core) (e : Nat) : r.element x.lowered e = r.element x e := by
  rw [element_eq, element_eq, vrm_lowered]
  rfl

theorem value_lowered (r : VRole) (x : Core) (e : Nat) : r.value x.lowered e = r.value x e := by
  have helem : r.element x.lowered = r.element x := funext (element_lowered r x)
  rw [VRole.value, VRole.value, helem]

theorem maskBit_lowered (x : Core) {m : Nat} (e : Nat) : x.lowered.maskBit m e = x.maskBit m e := by
  simp only [Core.maskBit, Core.maskAddr, Core.rowBase]
  rw [sr_lowered x (by simp only [maskNo, vflagsNo]; omega)]
  rfl

theorem onElems_lowered (j : VJob) (x : Core) (g : Nat) : j.onElems x.lowered g = j.onElems x g := by
  simp only [VJob.onElems, maskBit_lowered]

theorem laneIn_lowered (j : VJob) (x : Core) (e : Nat) : j.laneIn x.lowered e = j.laneIn x e := by
  simp only [VJob.laneIn, value_lowered, maskBit_lowered]

theorem results_lowered (j : VJob) (x : Core) (es : List Nat) : j.results x.lowered es = j.results x es := by
  simp only [VJob.results, laneIn_lowered]

theorem flags_lowered (j : VJob) (x : Core) (es : List Nat) : j.flags x.lowered es = j.flags x es := by
  simp only [VJob.flags, laneIn_lowered]

/-- Operands stay sound. -/
theorem sound_lowered {r : VRole} {s : State} {k n : Nat} (hs : r.Sound s k n) : r.Sound (s.updCore k Core.lowered) k n := by
  obtain ⟨op, fmt, per⟩ := r
  cases op with
  | ptr q row => trivial
  | desc d => exact hs
  | mem a =>
    obtain ⟨hper, hsize, halign, hfit, ⟨key, hlevel, hmatp, hlow, hregion, hfind, herr, hpoison⟩, harmed⟩ := hs
    refine ⟨hper, hsize, halign, hfit, ⟨key, ?_, ?_, hlow, hregion, ?_, ?_, ?_⟩, harmed⟩ <;> rw [State.core_updCore_same]
    · exact hlevel
    · rw [sr_lowered _ (by decide)]
      exact hmatp
    · exact hfind
    · exact herr
    · exact hpoison

/-! ### The only granule -/

theorem fold1_sys (c : Core) (op acc : Nat) (lanes : List Nat) : ∃ y, (c.fold1 op acc lanes).1 = { c with sys := y } := ⟨_, rfl⟩

theorem raccFold_sys (c : Core) (op acc : Nat) (lanes : List Nat) : ∃ y, (c.raccFold op acc lanes).1 = { c with sys := y } := by
  rw [Core.raccFold]
  split_ifs
  · obtain ⟨y, hy⟩ := fold1_sys c 0 acc lanes
    obtain ⟨z, hz⟩ := fold1_sys (c.fold1 0 acc lanes).1 1 (acc + 1) lanes
    exact ⟨z, hz.trans (by rw [hy])⟩
  · exact fold1_sys ..

theorem tapped_sys (j : VJob) (g : Nat) (out : List (Nat × Nat)) (c : Core) : ∃ y, j.tapped g out c = { c with sys := y } := by
  rw [VJob.tapped]
  cases j.fold with
  | none => exact ⟨c.sys, rfl⟩
  | some f =>
    obtain ⟨y, hy⟩ := raccFold_sys c f.1 f.2 (foldLanes f.1 j.tapFmt g out)
    rw [Option.elim_some]
    dsimp only
    rw [hy]
    exact ⟨_, rfl⟩

section
variable {j : VJob} {r : VRole} {f k : Nat} {s : State}

/-- An instruction of at most 64 elements, from its start to its completion. -/
theorem lanes_exec (hj : j.Lanes r f) (hbad : (s.core k).ocBad = []) (harm : ∀ a ∈ s.armed.get [] (unitOfKey k), a.num ≠ 0x0104)
    (hsound : ∀ r ∈ j.roles, r.Sound s k j.n)
    (hapart : r.op.inMemory = false → ∀ e < j.n, ∀ g < j.n, e ≠ g → Apart r.addr r.width e g) (hfold : ∀ f ∈ j.fold, f.2 < 4)
    (hm : (s.core k).mchk = []) (hvpos : ((s.core k).sr vposNo).getLsbD 63 = false) (hn : 0 < j.n) (hn64 : j.n ≤ 64)
    (hbg : (s.core k).bg = []) (hflags : (s.core k).untrapped) :
    Ends (j.exec k none) s fun fl t => fl = .next ∧ ∃ y,
      r.Stored (s.core k).vrm j.n (j.results (s.core k) (j.onElems (s.core k) 0)) (s.core k).lowered y
        ∧ t.core k = j.completed (j.tapped 0 (j.results (s.core k) (j.onElems (s.core k) 0)) (y.orVflags
          (j.flags (s.core k) (j.onElems (s.core k) 0) ||| r.storeFlags (s.core k).vrm (j.results (s.core k) (j.onElems (s.core k) 0))))) := by
  refine exec_starts hvpos hn hsound hbg ?_
  have hcore : (s.updCore k Core.lowered).core k = (s.core k).lowered := State.core_updCore_same ..
  obtain ⟨_, t, hrun, y, hstored, ht⟩ := lanes_granule hj (s := s.updCore k Core.lowered) (by rw [hcore]; exact hbad) harm
    (fun q hq => sound_lowered (hsound q hq)) hapart 0
  rw [hcore, vrm_lowered, onElems_lowered, results_lowered] at hstored
  rw [hcore, vrm_lowered, onElems_lowered, results_lowered, flags_lowered] at ht
  have hone : (j.n + 63) / 64 = 1 := by omega
  have hm' : ((s.updCore k Core.lowered).core k).mchk = [] := by
    rw [hcore]
    exact hm
  have hbeat : (t.meterBeat k).core k = t.core k := by
    rw [State.meterBeat]
    split_ifs <;> rfl
  rw [hone]
  refine ⟨(), _, (run_succ hm' hrun).trans (run_zero ..), ?_, y, hstored, ?_⟩
  · have huntrapped : y.untrapped := by
      rw [Core.untrapped, hstored.sr]
      exact (Core.worked_lowered _).untrapped hflags
    rw [if_pos rfl, hbeat, ht]
    exact (Core.worked_tapped hfold _ _ _).untrapped ((Core.worked_orVflags _ _).untrapped huntrapped)
  · rw [if_pos rfl, State.core_updCore_same, hbeat, ht]

end

end Sys2Proof.Machine
end

section
/-! SUPPORT. The fold of a granule's lanes into an accumulator, in the order of R119. -/

namespace Sys2Proof.Machine
open Sys2Proof Sys2Proof.Claims

theorem foldCombine_eq (op a b : Nat) : (foldCombine op a b).1 = foldTwo op a b := by
  rw [foldCombine, foldTwo]
  dsimp only
  split_ifs <;> rfl

theorem foldTwo_lt (op a b : Nat) : foldTwo op a b < 2 ^ 32 := by
  rw [foldTwo]
  split_ifs <;> exact rounded_lt (f := 0) (by decide) ..

/-- One level of the tree combines neighbours. -/
theorem foldPairs_range (op m : Nat) (h : Nat → Nat) :
    (foldPairs op ((List.range (2 * m)).map h)).1 = (List.range m).map fun i => foldTwo op (h (2 * i)) (h (2 * i + 1)) := by
  induction m generalizing h with
  | zero => rfl
  | succ m ih =>
    rw [show 2 * (m + 1) = 2 * m + 1 + 1 by omega, List.range_succ_eq_map, List.range_succ_eq_map, List.range_succ_eq_map]
    simp only [List.map_cons, List.map_map, foldPairs]
    rw [ih, foldCombine_eq]
    rfl

/-- The tree over 2^n lanes, after some of its levels. -/
theorem foldTree_levels (op n : Nat) (lane : Nat → Nat) {l : Nat} (hl : l ≤ n) :
    ((List.range l).foldl (fun (acc : List Nat × Flags) _ => ((foldPairs op acc.1).1, acc.2 ||| (foldPairs op acc.1).2))
        ((List.range (2 ^ n)).map lane, (0 : Flags))).1 = (List.range (2 ^ (n - l))).map (foldLevels op lane l) := by
  induction l with
  | zero => rfl
  | succ l ih =>
    rw [List.range_succ, List.foldl_append, List.foldl_cons, List.foldl_nil, ih (Nat.le_of_succ_le hl),
      show 2 ^ (n - l) = 2 * 2 ^ (n - (l + 1)) by rw [← Nat.pow_succ', show (n - (l + 1)).succ = n - l by omega], foldPairs_range]
    rfl

theorem foldTree_eq (op : Nat) (lane : Nat → Nat) : (foldTree op ((List.range 64).map lane)).1 = foldLevels op lane 6 0 :=
  congrArg (·.headD 0) (foldTree_levels op 6 lane (le_refl 6))

/-- What a fold combines: the lanes, or their squares (R119). -/
def foldInputs (op : Nat) (lanes : List Nat) : List Nat := if op = 1 then lanes.map fun v => (fp32Mul v v).1 else lanes

theorem fold1_eq (c : Core) (op acc : Nat) (lanes : List Nat) :
    (c.fold1 op acc lanes).1 = c.setSr (raccNo acc) (w64 (foldTwo op (c.sr (raccNo acc)).toNat (foldTree op (foldInputs op lanes)).1)) := by
  have hinputs : (if op = 1 then lanes.map fun v => fp32Mul v v else lanes.map fun v => (v, (0 : Flags))).map (·.1) = foldInputs op lanes := by
    rw [foldInputs]
    split_ifs
    · rw [List.map_map]
      rfl
    · rw [List.map_map]
      exact List.map_id lanes
  rw [Core.fold1]
  dsimp only
  rw [hinputs, foldCombine_eq]

theorem foldInputs_range (op : Nat) (lane : Nat → Nat) : foldInputs op ((List.range 64).map lane)
    = (List.range 64).map fun i => if op = 1 then (rounded 0 0 (fvMul (fpDec (lane i)) (fpDec (lane i)))).1 else lane i := by
  rw [foldInputs]
  split_ifs
  · rw [List.map_map]
    rfl
  · rfl

section
variable (c : Core) (op acc : Nat) (lane : Nat → Nat)

/-- The accumulator after a fold. -/
theorem sr_fold1_same : ((c.fold1 op acc ((List.range 64).map lane)).1.sr (raccNo acc)).toNat = folded op (c.sr (raccNo acc)).toNat lane := by
  rw [fold1_eq, Core.sr_setSr_same, foldInputs_range, foldTree_eq, w64, BitVec.toNat_ofNat]
  exact Nat.mod_eq_of_lt ((foldTwo_lt ..).trans (by decide))

variable {lanes : List Nat}

theorem sr_fold1_other {n : Nat} (h : n ≠ raccNo acc) : (c.fold1 op acc lanes).1.sr n = c.sr n := by
  rw [fold1_eq, Core.sr_setSr_other _ h]

/-- One accumulator of a fold that is not MOM. -/
theorem sr_raccFold_one (h : op ≠ 2) :
    ((c.raccFold op acc ((List.range 64).map lane)).1.sr (raccNo acc)).toNat = folded op (c.sr (raccNo acc)).toNat lane := by
  rw [Core.raccFold, if_neg h]
  exact sr_fold1_same ..

/-- MOM folds the sum, and the squares into the next accumulator. -/
theorem sr_raccFold_mom :
    ((c.raccFold 2 acc ((List.range 64).map lane)).1.sr (raccNo acc)).toNat = folded 0 (c.sr (raccNo acc)).toNat lane
      ∧ ((c.raccFold 2 acc ((List.range 64).map lane)).1.sr (raccNo (acc + 1))).toNat = folded 1 (c.sr (raccNo (acc + 1))).toNat lane := by
  have hne : raccNo acc ≠ raccNo (acc + 1) := by simp only [raccNo]; omega
  rw [Core.raccFold, if_pos rfl]
  dsimp only
  constructor
  · rw [sr_fold1_other _ 1 (acc + 1) hne, sr_fold1_same]
  · rw [sr_fold1_same, sr_fold1_other c 0 acc hne.symm]

end

theorem find?_pair (es : List Nat) (res : Nat → Nat) (i : Nat) :
    (es.map fun e => (e, res e)).find? (fun o => o.1 == i) = if i ∈ es then some (i, res i) else none := by
  split_ifs with hi
  · have hsome : ((es.map fun e => (e, res e)).find? fun o => o.1 == i).isSome = true :=
      List.find?_isSome.mpr ⟨(i, res i), List.mem_map_of_mem hi, beq_self_eq_true i⟩
    obtain ⟨o, ho⟩ := Option.isSome_iff_exists.mp hsome
    obtain ⟨e, -, rfl⟩ := List.mem_map.mp (List.mem_of_find?_eq_some ho)
    obtain rfl : e = i := by simpa using List.find?_some ho
    exact ho
  · refine List.find?_eq_none.mpr fun o ho => ?_
    obtain ⟨e, he, rfl⟩ := List.mem_map.mp ho
    exact fun h => hi (beq_iff_eq.mp h ▸ he)

/-- The lane of an element in a fold: its result as FP32 where it is on, and the identity elsewhere (R119). -/
def foldLane (op fmt : Nat) (es : List Nat) (res : Nat → Nat) (i : Nat) : Nat :=
  if i ∈ es then (if fmt = 0 then res i else (rounded 0 0 (decodeElem fmt (res i), 0)).1) else foldIdentity op

theorem foldLanes_eq (op fmt : Nat) (es : List Nat) (res : Nat → Nat) :
    foldLanes op fmt 0 (es.map fun e => (e, res e)) = (List.range 64).map (foldLane op fmt es res) := by
  refine List.map_congr_left fun i _ => ?_
  rw [Nat.zero_add, find?_pair, foldLane]
  by_cases hi : i ∈ es
  · rw [if_pos hi, if_pos hi]
    rfl
  · rw [if_neg hi, if_neg hi]

section
variable {j : VJob} {op acc : Nat} {es : List Nat} {res : Nat → Nat} (c : Core)

theorem tapped_none (h : j.fold = none) (g : Nat) (out : List (Nat × Nat)) : j.tapped g out c = c := by
  rw [VJob.tapped, h]
  rfl

theorem sr_tapped {n : Nat} (h : j.fold = some (op, acc)) (hn : n ≠ vflagsNo) :
    (j.tapped 0 (es.map fun e => (e, res e)) c).sr n
      = (c.raccFold op acc ((List.range 64).map (foldLane op j.tapFmt es res))).1.sr n := by
  rw [VJob.tapped, h, Option.elim_some]
  dsimp only
  rw [foldLanes_eq]
  exact Core.sr_setSr_other _ hn _

/-- The tap of one accumulator. -/
theorem tapped_one (h : j.fold = some (op, acc)) (hop : op ≠ 2) :
    ((j.tapped 0 (es.map fun e => (e, res e)) c).sr (raccNo acc)).toNat
      = folded op (c.sr (raccNo acc)).toNat (foldLane op j.tapFmt es res) := by
  rw [sr_tapped c h (by simp only [raccNo, vflagsNo]; omega), sr_raccFold_one c op acc _ hop]

/-- The tap of MOM. -/
theorem tapped_mom (h : j.fold = some (2, acc)) :
    ((j.tapped 0 (es.map fun e => (e, res e)) c).sr (raccNo acc)).toNat
        = folded 0 (c.sr (raccNo acc)).toNat (foldLane 0 j.tapFmt es res)
      ∧ ((j.tapped 0 (es.map fun e => (e, res e)) c).sr (raccNo (acc + 1))).toNat
        = folded 1 (c.sr (raccNo (acc + 1))).toNat (foldLane 1 j.tapFmt es res) := by
  rw [sr_tapped c h (by simp only [raccNo, vflagsNo]; omega), sr_tapped c h (by simp only [raccNo, vflagsNo]; omega)]
  exact sr_raccFold_mom c acc (foldLane 2 j.tapFmt es res)

end

end Sys2Proof.Machine
end

section
/-! SUPPORT. What an instruction of R111's table leaves on its core: its results in D, its flags, and the fold of its tap. -/

namespace Sys2Proof.Machine
open Sys2Proof Sys2Proof.Claims

/-- The elements of the first granule that are on. -/
theorem mem_onElems_zero {j : VJob} {x : Core} (hn : j.n ≤ 64) (e : Nat) :
    e ∈ j.onElems x 0 ↔ e < j.n ∧ (j.gmask == 0 || x.maskBit j.gmask e) = true := by
  rw [VJob.onElems, List.mem_filter, rangeFrom, Nat.sub_zero, Nat.min_eq_right hn]
  simp

theorem onElems_unmasked {j : VJob} (x : Core) (hn : j.n ≤ 64) (hmask : j.gmask = 0) : j.onElems x 0 = List.range j.n := by
  rw [VJob.onElems, hmask, rangeFrom, Nat.sub_zero, Nat.min_eq_right hn]
  simp

/-- The bit of a mask register, where one is named (R101). -/
theorem maskOn_eq (x : Core) (m : BitVec 3) (e : Nat) : maskOn x m e = (m.toNat == 0 || x.maskBit m.toNat e) := by
  have hzero : (m == 0) = (m.toNat == 0) := by
    rw [Bool.eq_iff_iff, beq_iff_eq, beq_iff_eq]
    exact BitVec.toNat_inj (y := (0 : BitVec 3)).symm
  have hbyte : x.ocBytes (x.maskAddr m.toNat e) 1 = [x.oc.get 0 (x.maskAddr m.toNat e)] := by
    show [x.oc.get 0 ((x.maskAddr m.toNat e + 0) % ocSize)] = _
    rw [Nat.add_zero, Core.maskAddr, Nat.mod_mod]
  rw [maskOn, hzero, Core.maskBit, hbyte]
  rfl

/-- What a lane instruction needs of its core and operands to run in one granule. -/
structure LaneReady (s : State) (c : CoreId) (x : Core) (v : VArgs) (o : EwOp) (n : Nat) : Prop where
  core : s.core (coreKey c) = x
  ready : s.ready c = true
  vector : hasVector (coreKey c) = true
  allows : o.allows v
  stop : v.stop = none
  vpos : (x.sr vposNo).getLsbD 63 = false
  untrapped : x.untrapped
  ocBad : x.ocBad = []
  armed : ∀ a ∈ s.armed.get [] (unitOfKey (coreKey c)), a.num ≠ 0x0104
  bg : x.bg = []
  pos : 0 < n
  le : n ≤ 64
  vl : v.native = false → (x.sr vlNo).toNat = n
  native : v.native = true → isCompute (coreKey c) = true
    ∧ (∀ f ∈ o.fields v.dD v.dA v.dB, f.getLsbD 4 = false → (x.descOf f.toNat).count = n)
    ∧ ∃ f ∈ o.fields v.dD v.dA v.dB, f.getLsbD 4 = false
  tap : v.tap = true → v.ty ≠ 3
    ∧ badFold (bitsOf (x.sr rcfgNo).toNat 6 4) (bitsOf (x.sr rcfgNo).toNat 1 0) = false
  sound : ∀ f ∈ o.fields v.dD v.dA v.dB, (x.role v.native f (typeFmt v.ty)).Sound s (coreKey c) n
  mov : o.isMov = true → v.native = true → ∀ f ∈ o.fields v.dD v.dA v.dB, f.getLsbD 4 = false →
    (x.descOf f.toNat).fmt = typeFmt v.ty
  apart : (x.role v.native v.dD (typeFmt v.ty)).op.inMemory = false → ∀ e < n, ∀ g < n, e ≠ g →
    Apart (x.role v.native v.dD (typeFmt v.ty)).addr (x.role v.native v.dD (typeFmt v.ty)).width e g

/-- The lane of element e, on the operands' elements as core x holds them. -/
def laneAt (lane : LaneFn) (x : Core) (v : VArgs) (e : Nat) : Nat × Flags :=
  lane (typeFmt v.ty) x.vrm (x.rf v.dB).toNat (opndElem x v.native v.dA (typeFmt v.ty) e) (opndElem x v.native v.dB (typeFmt v.ty) e)
    (opndElem x v.native v.dD (typeFmt v.ty) e)

/-- The results of the elements that are on. -/
def EwOp.outOf (o : EwOp) (lane : LaneFn) (x : Core) (v : VArgs) (n : Nat) : List (Nat × Nat) :=
  ((o.runOf x v n).onElems x 0).map fun e => (e, (laneAt lane x v e).1)

/-- The flags that the instruction raises (R122). -/
def EwOp.flagsOf (o : EwOp) (lane : LaneFn) (x : Core) (v : VArgs) (n : Nat) : Flags :=
  (o.runOf x v n).flags x ((o.runOf x v n).onElems x 0) ||| (x.role v.native v.dD (typeFmt v.ty)).storeFlags x.vrm (o.outOf lane x v n)

/-- What the instruction leaves on its core x: y is x with the results stored in D, and z the core after the flags, the tap, completion
and the loop test. -/
structure LaneLeaves (lane : LaneFn) (o : EwOp) (v : VArgs) (n : Nat) (x y z : Core) : Prop where
  stored : (x.role v.native v.dD (typeFmt v.ty)).Stored x.vrm n (o.outOf lane x v n) x.lowered y
  core : z = ((o.runOf x v n).completed ((o.runOf x v n).tapped 0 (o.outOf lane x v n) (y.orVflags (o.flagsOf lane x v n)))).loopStep x.pc

/-- The tap of the job (R118). -/
theorem runOf_fold (o : EwOp) (x : Core) (v : VArgs) (n : Nat) : (o.runOf x v n).fold
    = if v.tap then some (bitsOf (x.sr rcfgNo).toNat 6 4, bitsOf (x.sr rcfgNo).toNat 1 0) else none := rfl

theorem runOf_fold_lt (o : EwOp) (x : Core) (v : VArgs) (n : Nat) : ∀ f ∈ (o.runOf x v n).fold, f.2 < 4 := fun f hf => by
  rw [runOf_fold] at hf
  split_ifs at hf
  · cases hf
    exact Nat.mod_lt _ (by decide)
  · cases hf

section
variable {i : Instr} {c : CoreId} {v : VArgs} {lane : LaneFn} {o : EwOp} {s : State} {x : Core} {n : Nat}
  (hL : LaneOp i c v lane o) (hs : LaneReady s c x v o n)
include hs

theorem runOf_sound : ∀ r ∈ (o.runOf x v n).roles, r.Sound s (coreKey c) n := fun r hr => by
  rw [runOf_roles] at hr
  obtain ⟨f, hf, rfl⟩ := List.mem_map.mp hr
  exact hs.sound f hf

/-- The count of the job. -/
theorem job_counted : (o.job x v.native v.dD v.dA v.dB (typeFmt v.ty) v.mask.toNat).counted x v.native = some (o.jobOf x v n) := by
  have hroles := job_roles o x v.native v.dD v.dA v.dB (typeFmt v.ty) v.mask.toNat
  have hfield : ∀ r ∈ (o.job x v.native v.dD v.dA v.dB (typeFmt v.ty) v.mask.toNat).roles,
      ∃ f ∈ o.fields v.dD v.dA v.dB, x.role v.native f (typeFmt v.ty) = r := fun r hr => by
    rw [hroles] at hr
    exact List.mem_map.mp hr
  refine counted_eq (k := coreKey c) (s := s) (fun r hr => ?_) (fun r hr => ?_) hs.vl fun hn => ?_
  · obtain ⟨f, -, rfl⟩ := hfield r hr
    rfl
  · obtain ⟨f, hf, rfl⟩ := hfield r hr
    exact hs.sound f hf
  · obtain ⟨-, hcount, f, hf, hbit⟩ := hs.native hn
    refine ⟨hs.le.trans (by decide), fun r hr d hd => ?_, _, hroles ▸ List.mem_map_of_mem hf, ?_⟩
    · obtain ⟨g, hg, rfl⟩ := hfield r hr
      by_cases hdesc : v.native = true ∧ g.getLsbD 4 = false
      · rw [role_desc hdesc.1 hdesc.2] at hd
        cases hd
        exact hcount g hg hdesc.2
      · rw [role_desc?_none hdesc] at hd
        cases hd
    · show (x.role v.native f (typeFmt v.ty)).op.desc? ≠ none
      rw [role_desc hn hbit]
      exact Option.some_ne_none _

include hL

/-- The lane of the job, and its bits. -/
theorem runOf_laneAt (e : Nat) :
    (o.runOf x v n).lane ((o.runOf x v n).laneIn x e).1 = laneAt lane x v e
      ∧ (laneAt lane x v e).1 < 2 ^ elemBits (typeFmt v.ty) := by
  obtain ⟨heq, hlt⟩ := runOf_lane hL x n (runOf_sound hs) hs.allows.1 x e
  rw [heq] at hlt
  rw [laneAt, opndElem_eq, opndElem_eq, opndElem_eq]
  exact ⟨heq, hlt⟩

/-- The instruction runs to its end. -/
theorem lane_completes : ∃ t y, exec i s = .next t ∧ LaneLeaves lane o v n x y (t.core (coreKey c)) := by
  have hsound := runOf_sound hs
  have hcount := job_counted hs
  have hresults : (o.runOf x v n).results x ((o.runOf x v n).onElems x 0) = o.outOf lane x v n := by
    simp only [VJob.results, (runOf_laneAt hL hs _).1, EwOp.outOf]
  obtain rfl := hs.core
  obtain ⟨fl, t, ht, rfl, y, hstored, hcore⟩ := lanes_exec (runOf_lanes hL _ n hs.mov) hs.ocBad hs.armed hsound
    hs.apart (runOf_fold_lt o _ v n) (calm_mchk (ready_calm hs.ready)) hs.vpos hs.pos hs.le hs.bg hs.untrapped
  rw [hresults] at hstored hcore
  refine ⟨t.retire (coreKey c) (pcOf s c), y, ?_, hstored, ?_⟩
  · rw [hL.exec]
    refine ewExec_next hs.ready hs.vector hs.allows (fun h => (hs.native h).1) (fun h => (hs.tap h).1) hcount (fun h => (hs.tap h).2) ?_
    rw [hs.stop]
    exact ht
  · rw [State.core_retire_same, hcore]
    rfl

end

end Sys2Proof.Machine
end

section
/-! SUPPORT. The registers and elements that an instruction of R111's table leaves. -/

namespace Sys2Proof.Machine
open Sys2Proof Sys2Proof.Claims

section
variable {lane : LaneFn} {o : EwOp} {v : VArgs} {n : Nat} {x y z : Core}
  (h : LaneLeaves lane o v n x y z)
include h

/-- After the writes, only system registers and the PC change. -/
theorem leaves_frame : ∃ p q, z = { y with pc := p, sys := q } := by
  obtain ⟨-, hcore⟩ := h
  obtain ⟨q, hq⟩ := tapped_sys (o.runOf x v n) 0 (o.outOf lane x v n) (y.orVflags (o.flagsOf lane x v n))
  obtain ⟨q', hq'⟩ := completed_sys (o.runOf x v n) ((o.runOf x v n).tapped 0 (o.outOf lane x v n) (y.orVflags (o.flagsOf lane x v n)))
  obtain ⟨p, q'', hp⟩ := loopStep_frame ((o.runOf x v n).completed
    ((o.runOf x v n).tapped 0 (o.outOf lane x v n) (y.orVflags (o.flagsOf lane x v n)))) x.pc
  rw [hp, hq', hq] at hcore
  exact ⟨p, q'', hcore⟩

theorem leaves_bits (r : VRole) (e : Nat) : r.bits z e = r.bits y e := by
  obtain ⟨p, q, rfl⟩ := leaves_frame h
  rfl

theorem leaves_vpos : z.sr 0x060 = 0 := by
  rw [h.core, sr_loopStep_other _ _ (by decide) (by decide)]
  exact sr_completed_vpos _

/-- The other registers below the pointers are as the tap leaves them. -/
theorem leaves_low {m : Nat} (hm : m < 0x080) (hvpos : m ≠ vposNo) :
    z.sr m = ((o.runOf x v n).tapped 0 (o.outOf lane x v n) (y.orVflags (o.flagsOf lane x v n))).sr m := by
  rw [h.core, sr_loopStep_other _ _ (by omega) (by omega), sr_completed_low _ hm hvpos]

/-- Registers other than VFLAGS before the tap. -/
theorem leaves_before {m : Nat} (hm : m ≠ vflagsNo) : (y.orVflags (o.flagsOf lane x v n)).sr m = x.sr m := by
  rw [Core.orVflags, Core.sr_setSr_other _ hm, h.stored.sr, sr_lowered x hm]

/-- A pointer that a field names has advanced (R100). -/
theorem leaves_ptr {f : BitVec 5} (hf : f ∈ o.fields v.dD v.dA v.dB) (hbit : v.native = f.getLsbD 4) :
    z.sr (0x080 + f.toNat % 16) = advanceRow (x.sr (0x080 + f.toNat % 16)) := by
  have hkept : ((o.runOf x v n).tapped 0 (o.outOf lane x v n) (y.orVflags (o.flagsOf lane x v n))).sr (pNo (f.toNat % 16))
      = x.sr (pNo (f.toNat % 16)) := by
    rw [(Core.worked_tapped (runOf_fold_lt o x v n) _ _ _).sr ⟨by simp only [pNo, vflagsNo]; omega, by simp only [pNo]; omega⟩,
      leaves_before h (by simp only [pNo, vflagsNo]; omega)]
  have hmem : f.toNat % 16 ∈ (o.runOf x v n).ptrs := by
    rw [VJob.ptrs, List.mem_dedup, List.mem_filterMap]
    refine ⟨x.role v.native f (typeFmt v.ty), ?_, by rw [role_ptr hbit]; rfl⟩
    rw [runOf_roles]
    exact List.mem_map_of_mem hf
  rw [h.core, sr_loopStep_other _ _ (by omega) (by omega)]
  refine (sr_completed_ptr _ (Nat.mod_lt _ (by decide))).trans ?_
  rw [if_pos hmem, hkept]
  rfl

/-- With no tap the accumulators stay (R118). -/
theorem leaves_untapped (htap : v.tap = false) {j : Nat} (hj : j < 4) : z.sr (0x078 + j) = x.sr (0x078 + j) := by
  rw [leaves_low h (by omega) (by simp only [vposNo]; omega), tapped_none _ (by rw [runOf_fold, htap]; rfl),
    leaves_before h (by simp only [vflagsNo]; omega)]

/-- With no tap VFLAGS has the flags of this instruction alone raised (R121, R122). -/
theorem leaves_vflags (htap : v.tap = false) :
    z.sr 0x071 = (x.sr 0x071 &&& ~~~(0x3F0000#64)) ||| BitVec.ofNat 64 ((o.flagsOf lane x v n).toNat * 65537) := by
  rw [leaves_low h (by decide) (by decide), tapped_none _ (by rw [runOf_fold, htap]; rfl), Core.orVflags,
    show (0x071 : Nat) = vflagsNo from rfl, Core.sr_setSr_same, h.stored.sr, Core.lowered, Core.sr_setSr_same]
  rfl

section
variable (hn : n ≤ 64) (hsel : o.isSel = false)
include hn hsel

omit h in
theorem mem_runOf_onElems (x : Core) (e : Nat) : e ∈ (o.runOf x v n).onElems x 0 ↔ e < n ∧ maskOn x v.mask e = true := by
  have hmask : (o.runOf x v n).gmask = v.mask.toNat := by
    show (if o.isSel then 0 else v.mask.toNat) = _
    rw [hsel]
    rfl
  rw [mem_onElems_zero hn, maskOn_eq, hmask]
  rfl

/-- The elements of D (R101, R104). -/
theorem leaves_elements {e : Nat} (he : e < n) :
    opndBits x z v.native v.dD (typeFmt v.ty) e = if maskOn x v.mask e then opndStored x v.native v.dD (typeFmt v.ty) (laneAt lane x v e).1
      else opndBits x x v.native v.dD (typeFmt v.ty) e := by
  have hmem := mem_runOf_onElems (v := v) hn hsel x e
  rw [opndBits_eq, opndBits_eq, leaves_bits h, opndStored_eq]
  split_ifs with hon
  · exact h.stored.written (e, (laneAt lane x v e).1) (List.mem_map_of_mem (hmem.mpr ⟨he, hon⟩))
  · refine h.stored.kept e he fun hout => hon ?_
    obtain ⟨p, hp, rfl⟩ := List.mem_map.mp hout
    obtain ⟨g, hg, rfl⟩ := List.mem_map.mp hp
    exact (hmem.mp hg).2

end

section
variable (htap : v.tap = true)
include htap

/-- A tap that is not MOM folds into its accumulator (R119). -/
theorem leaves_tap (hop : bitsOf (x.sr rcfgNo).toNat 6 4 ≠ 2) :
    (z.sr (0x078 + bitsOf (x.sr rcfgNo).toNat 1 0)).toNat
      = folded (bitsOf (x.sr rcfgNo).toNat 6 4) (x.sr (0x078 + bitsOf (x.sr rcfgNo).toNat 1 0)).toNat
          (foldLane (bitsOf (x.sr rcfgNo).toNat 6 4) (typeFmt v.ty) ((o.runOf x v n).onElems x 0) fun e => (laneAt lane x v e).1) := by
  have hacc : bitsOf (x.sr rcfgNo).toNat 1 0 < 4 := Nat.mod_lt _ (by decide)
  have hfold : (o.runOf x v n).fold = some (bitsOf (x.sr rcfgNo).toNat 6 4, bitsOf (x.sr rcfgNo).toNat 1 0) := by rw [runOf_fold, htap]; rfl
  rw [leaves_low h (by omega) (by simp only [vposNo]; omega),
    ← leaves_before h (m := 0x078 + bitsOf (x.sr rcfgNo).toNat 1 0) (by simp only [vflagsNo]; omega)]
  exact tapped_one _ hfold hop

/-- MOM folds the sum and the squares into two accumulators (R119). -/
theorem leaves_tap_mom (hop : bitsOf (x.sr rcfgNo).toNat 6 4 = 2) :
    (z.sr (0x078 + bitsOf (x.sr rcfgNo).toNat 1 0)).toNat = folded 0 (x.sr (0x078 + bitsOf (x.sr rcfgNo).toNat 1 0)).toNat
        (foldLane 0 (typeFmt v.ty) ((o.runOf x v n).onElems x 0) fun e => (laneAt lane x v e).1)
      ∧ (z.sr (0x078 + (bitsOf (x.sr rcfgNo).toNat 1 0 + 1))).toNat = folded 1 (x.sr (0x078 + (bitsOf (x.sr rcfgNo).toNat 1 0 + 1))).toNat
        (foldLane 1 (typeFmt v.ty) ((o.runOf x v n).onElems x 0) fun e => (laneAt lane x v e).1) := by
  have hacc : bitsOf (x.sr rcfgNo).toNat 1 0 < 4 := Nat.mod_lt _ (by decide)
  have hfold : (o.runOf x v n).fold = some (2, bitsOf (x.sr rcfgNo).toNat 1 0) := by rw [runOf_fold, htap, hop]; rfl
  rw [leaves_low h (by omega) (by simp only [vposNo]; omega), leaves_low h (by omega) (by simp only [vposNo]; omega),
    ← leaves_before h (m := 0x078 + bitsOf (x.sr rcfgNo).toNat 1 0) (by simp only [vflagsNo]; omega),
    ← leaves_before h (m := 0x078 + (bitsOf (x.sr rcfgNo).toNat 1 0 + 1)) (by simp only [vflagsNo]; omega)]
  exact tapped_mom _ hfold

end

end

end Sys2Proof.Machine
end

section
/-! SUPPORT. The two parts of the statement on lanes: pointers with the flags, and every operand form with masks and taps. -/

namespace Sys2Proof.Machine
open Sys2Proof Sys2Proof.Claims

/-- A tap's operation and accumulator are legal (R118). -/
theorem badFold_legal {op acc : Nat} (hop : op < 6) (hmom : op = 2 → acc % 2 = 0) : badFold op acc = false := by
  rw [badFold, decide_eq_false (Nat.not_le.mpr hop), Bool.false_or, Bool.and_eq_false_iff]
  by_cases h : op = 2
  · exact .inr (by rw [hmom h]; rfl)
  · exact .inl (beq_eq_false_iff_ne.mpr h)

/-- The elements of a pointer's granule lie apart (R95). -/
theorem apart_role_ptr {x : Core} {native : Bool} {f : BitVec 5} {fmt n e g : Nat} (h : native = f.getLsbD 4) (hfmt : fmt ∈ [0, 1, 2, 5])
    (hn : n ≤ 64) (he : e < n) (hg : g < n) (hne : e ≠ g) : Apart (x.role native f fmt).addr (x.role native f fmt).width e g := by
  have hsize : ∀ f ∈ [0, 1, 2, 5], elemBits f / 8 ≤ 64 := by decide
  rw [role_ptr h]
  exact apart_ptr rfl hn (show VRole.size ⟨_, fmt, 1⟩ ≤ 64 from hsize fmt hfmt) he hg hne

/-- An element through a pointer (R102). -/
theorem opndBits_oc {x : Core} {f : BitVec 5} (hf : f.toNat < 16) (y : Core) (fmt e : Nat) :
    opndBits x y false f fmt e = ocElem y ((x.sr (0x080 + f.toNat)).toNat % 4096) (elemBits fmt / 8) e := by
  have hbit : f.getLsbD 4 = false := Nat.testBit_lt_two_pow hf
  rw [opndBits, if_pos hbit.symm, Nat.mod_eq_of_lt hf]
  rfl

theorem opndElem_oc {x : Core} {f : BitVec 5} (hf : f.toNat < 16) (fmt e : Nat) :
    opndElem x false f fmt e = ocElem x ((x.sr (0x080 + f.toNat)).toNat % 4096) (elemBits fmt / 8) e := by
  rw [opndElem, opndBits_oc hf]
  exact if_neg fun h => Bool.false_ne_true h.1

theorem opndStored_oc {x : Core} {f : BitVec 5} (fmt w : Nat) : opndStored x false f fmt w = w % 2 ^ elemBits fmt := by
  rw [opndStored]
  exact if_neg fun h => Bool.false_ne_true h.1

/-- The types have whole bytes. -/
theorem elemBits_type {f : Nat} (hf : f ∈ [0, 1, 2, 5]) : 8 * (elemBits f / 8) = elemBits f := by
  revert f
  decide

theorem flags_or_zero (f : Flags) : f ||| 0 = f := BitVec.or_zero

theorem foldl_or_zero {α : Type} {l : List α} {g : α → Flags} (h : ∀ a ∈ l, g a = 0) (f : Flags) : l.foldl (fun f a => f ||| g a) f = f := by
  induction l generalizing f with
  | nil => rfl
  | cons a l ih =>
    rw [List.foldl_cons, h a (List.mem_cons_self ..), flags_or_zero]
    exact ih (fun b hb => h b (List.mem_cons_of_mem _ hb)) f

section
variable {i : Instr} {c : CoreId} {v : VArgs} {lane : LaneFn} {o : EwOp} {s : State} {x : Core} {n : Nat}

/-- A lane depends on the elements that its instruction uses. -/
theorem lane_congr (hL : LaneOp i c v lane o) (hty : o.typeOk v.ty = true) (rm : RMode) {fb a a' b b' d : Nat} (hfb : fb < 2 ^ 32)
    (ha : o.usesA = true → a < 2 ^ elemBits (typeFmt v.ty) ∧ a = a')
    (hb : (o.usesB && !o.fForm) = true → b < 2 ^ elemBits (typeFmt v.ty) ∧ b = b') :
    lane (typeFmt v.ty) rm fb a b d = lane (typeFmt v.ty) rm fb a' b' d := by
  obtain ⟨heq, -⟩ := hL.lane_eq hty rm fb a b d hfb (fun h => (ha h).1) fun h => (hb h).1
  obtain ⟨heq', -⟩ := hL.lane_eq hty rm fb a' b' d hfb (fun h => (ha h).2 ▸ (ha h).1) fun h => (hb h).2 ▸ (hb h).1
  have hargs : (if o.usesA then a else 0) = (if o.usesA then a' else 0) := by
    split_ifs with h
    · exact (ha h).2
    · rfl
  have hargs' : (if o.usesB && !o.fForm then b else 0) = (if o.usesB && !o.fForm then b' else 0) := by
    split_ifs with h
    · exact (hb h).2
    · rfl
  rw [← heq, ← heq', hargs, hargs']

/-- With no conversion the flags are those of the lanes. -/
theorem flagsOf_unconverted (hL : LaneOp i c v lane o) (hs : LaneReady s c x v o n)
    (hown : ∀ f ∈ o.fields v.dD v.dA v.dB, (x.role v.native f (typeFmt v.ty)).own = typeFmt v.ty) :
    o.flagsOf lane x v n
      = ((o.runOf x v n).onElems x 0).foldl (fun f e => f ||| (laneAt lane x v e).2) 0 := by
  have hin : ∀ e, ((o.runOf x v n).laneIn x e).2 = 0 := fun e => by
    rw [VJob.laneIn]
    dsimp only
    rw [List.foldl_map]
    refine foldl_or_zero (fun r hr => ?_) 0
    have hr' : r ∈ (o.runOf x v n).roles := List.mem_append_right _ hr
    have hsound := runOf_sound hs r hr'
    rw [runOf_roles] at hr'
    obtain ⟨f, hf, rfl⟩ := List.mem_map.mp hr'
    rw [value_eq hsound (typeFmt_mem v.ty) rfl, element_eq, role_fmt, if_pos (hown f hf)]
  have hstore : (x.role v.native v.dD (typeFmt v.ty)).own = typeFmt v.ty := hown _ (List.mem_cons_self ..)
  rw [EwOp.flagsOf, storeFlags_own hstore, flags_or_zero, VJob.flags]
  simp only [hin, flags_or_zero, (runOf_laneAt hL hs _).1]
  rw [List.foldl_fixed]

/-- An instruction on pointers, without mask and tap, in one granule. -/
theorem laneReady_pointers {ty : Bool} (hL : LaneOp i c v lane o) (hty : ty = true → o.typeOk v.ty = true) (hx : s.core (coreKey c) = x)
    (hs : vecReady s (ewRow c v o.usesA (o.usesB && !o.fForm) o.fForm ty)) (hpos : 0 < (x.sr 0x070).toNat) (hle : (x.sr 0x070).toNat ≤ 64) :
    LaneReady s c x v o (x.sr 0x070).toNat ∧ v.native = false ∧ v.tap = false ∧ ∀ f ∈ o.fields v.dD v.dA v.dB, f.toNat < 16 := by
  subst hx
  obtain ⟨hr, hk, hlegal, hstop, hlt, hvpos, hflags, hbad, hbg, harmed⟩ := hs
  obtain ⟨hnative, htap, htype, hdA, hdB⟩ : v.native = false ∧ v.tap = false ∧ ty = true ∧ (o.usesA = true ∨ v.dA = 0)
      ∧ ((o.usesB = true ∧ o.fForm = false ∨ o.fForm = true) ∨ v.dB = 0) := by
    simpa only [ewRow, Bool.and_eq_true, Bool.or_eq_true, Bool.not_eq_true', beq_iff_eq, and_assoc] using hlegal
  have hlow : ∀ f ∈ o.fields v.dD v.dA v.dB, f.toNat < 16 := fun f hf => hlt f ((mem_fields o v.dD v.dA v.dB f).mp hf)
  have hptr : ∀ f ∈ o.fields v.dD v.dA v.dB, v.native = f.getLsbD 4 := fun f hf => hnative.trans (Nat.testBit_lt_two_pow (hlow f hf)).symm
  refine ⟨{
    core := rfl, ready := hr, vector := hk, stop := hstop, vpos := hvpos, untrapped := hflags, ocBad := hbad, armed := harmed, bg := hbg
    allows := ⟨hty htype, by tauto, hdA, fun h => absurd (hL.sel.symm.trans h) Bool.false_ne_true⟩
    pos := hpos, le := hle, vl := fun _ => rfl
    native := fun h => absurd (hnative.symm.trans h) Bool.false_ne_true
    tap := fun h => absurd (htap.symm.trans h) Bool.false_ne_true
    mov := fun _ h => absurd (hnative.symm.trans h) Bool.false_ne_true
    sound := fun f hf => by rw [role_ptr (hptr f hf)]; trivial
    apart := fun _ e he g hg hne => apart_role_ptr (hptr v.dD (List.mem_cons_self ..)) (typeFmt_mem v.ty) hle he hg hne }, hnative, htap, hlow⟩

/-- The lane on elements through pointers. -/
theorem laneAt_pointers (hL : LaneOp i c v lane o) (hs : LaneReady s c x v o n) (hnative : v.native = false)
    (hlt : ∀ f ∈ o.fields v.dD v.dA v.dB, f.toNat < 16) (e : Nat) :
    laneAt lane x v e = lane (typeFmt v.ty) x.vrm (x.rf v.dB).toNat
      (ocElem x ((x.sr (0x080 + v.dA.toNat)).toNat % 4096) (elemBits (typeFmt v.ty) / 8) e)
      (ocElem x ((x.sr (0x080 + v.dB.toNat)).toNat % 4096) (elemBits (typeFmt v.ty) / 8) e)
      (ocElem x ((x.sr (0x080 + v.dD.toNat)).toNat % 4096) (elemBits (typeFmt v.ty) / 8) e) := by
  have hused : ∀ f ∈ o.fields v.dD v.dA v.dB, opndElem x v.native f (typeFmt v.ty) e < 2 ^ elemBits (typeFmt v.ty)
      ∧ opndElem x v.native f (typeFmt v.ty) e
        = ocElem x ((x.sr (0x080 + f.toNat)).toNat % 4096) (elemBits (typeFmt v.ty) / 8) e :=
    fun f hf => ⟨by rw [opndElem_eq]; exact element_lt (hs.sound f hf) (typeFmt_mem v.ty) .., by rw [hnative, opndElem_oc (hlt f hf)]⟩
  rw [laneAt, (hused v.dD (List.mem_cons_self ..)).2]
  exact lane_congr hL hs.allows.1 _ (BitVec.isLt _) (fun h => hused v.dA (by simp [EwOp.fields, h])) fun h => hused v.dB (by simp [EwOp.fields, h])

/-- The lanes that a tap folds. -/
theorem foldLane_table (hL : LaneOp i c v lane o) (hs : LaneReady s c x v o n) (op : Nat) :
    foldLane op (typeFmt v.ty) ((o.runOf x v n).onElems x 0) (fun e => (laneAt lane x v e).1)
      = fun e => if e < n ∧ maskOn x v.mask e = true
        then (if typeFmt v.ty = 0 then (laneAt lane x v e).1 % 2 ^ elemBits (typeFmt v.ty)
          else (rounded 0 0 (decodeElem (typeFmt v.ty) ((laneAt lane x v e).1 % 2 ^ elemBits (typeFmt v.ty)), 0)).1)
        else (if op = 3 then 0xFF800000 else if op = 4 then 0x7F800000 else 0) := by
  funext e
  have hmem := mem_runOf_onElems (v := v) hs.le hL.sel x e
  rw [foldLane, Nat.mod_eq_of_lt (runOf_laneAt hL hs e).2]
  simp only [hmem]
  rfl

/-- A descriptor that the statement allows has the count of the instruction. -/
theorem count_of_ready {k fmt : Nat} {native : Bool} {f : BitVec 5} (h : opndReady s k native f fmt n) (hn : native = true)
    (hbit : f.getLsbD 4 = false) : ((s.core k).descOf f.toNat).count = n := by
  rw [opndReady, if_neg (by rw [hn, hbit]; decide), if_pos hn] at h
  obtain ⟨-, -, -, hcount⟩ := h
  exact hcount

/-- The elements of D lie apart where those of its descriptor do. -/
theorem apart_role {native : Bool} {f : BitVec 5} {fmt : Nat} (hfmt : fmt ∈ [0, 1, 2, 5]) (hle : n ≤ 64)
    (h : native = true → f.getLsbD 4 = false → ∀ e < n, ∀ g < n, e ≠ g →
      Apart (fun e => ((x.descOf f.toNat).place 0 e).1) (bytesOf (x.descOf f.toNat).fmt) e g)
    (hmem : (x.role native f fmt).op.inMemory = false) :
    ∀ e < n, ∀ g < n, e ≠ g → Apart (x.role native f fmt).addr (x.role native f fmt).width e g := by
  intro e he g hg hne
  rcases opnd_kinds native f with hn | ⟨-, ⟨hn, hbit⟩ | ⟨hn, hbit⟩⟩
  · exact apart_role_ptr hn hfmt hle he hg hne
  · rw [role_desc hn hbit]
    exact h hn hbit e he g hg hne
  · rw [role_mem hn hbit] at hmem
    contradiction

end

end Sys2Proof.Machine
end

section
open Sys2Proof Sys2Proof.Machine Sys2Proof.Claims

/-- Settles O29: the job of each instruction is the model's element-wise one, whose only granule stores the lanes of the table. -/
theorem vectorLaneResults : Obligations.VectorLaneResults := by
  unfold Obligations.VectorLaneResults
  refine ⟨fun i r s c v lane htable hrow hs hmask => ?_, fun i s c v lane a b n htable hform => ?_⟩
  · obtain ⟨o, hL⟩ := laneTable_op htable
    obtain ⟨ty, hrow', hty⟩ := hL.row
    cases hrow.symm.trans hrow'
    dsimp only
    intro hpos hle
    obtain ⟨hready, hnative, htap, hlt⟩ := laneReady_pointers hL hty rfl hs hpos hle
    obtain ⟨t, y, hexec, hleaves⟩ := lane_completes hL hready
    have hD := hlt v.dD (List.mem_cons_self ..)
    have hptr : ∀ f ∈ o.fields v.dD v.dA v.dB, v.native = f.getLsbD 4 := fun f hf => hnative.trans (Nat.testBit_lt_two_pow (hlt f hf)).symm
    have hlane := laneAt_pointers hL hready hnative hlt
    refine ⟨t, hexec, fun e he => ?_, fun b hb hout => ?_, ?_⟩
    · have helem := leaves_elements hleaves hle hL.sel he
      rw [hnative, opndBits_oc hD, if_pos (by rw [hmask]; rfl), opndStored_oc, hlane] at helem
      rw [elemBits_type (typeFmt_mem v.ty)]
      exact helem
    · obtain ⟨p, q, hz⟩ := leaves_frame hleaves
      rw [hz]
      refine hleaves.stored.outside _ _ (congrArg VRole.op (role_ptr (hptr v.dD (List.mem_cons_self ..)))) b fun j hj => ?_
      rw [Nat.mod_eq_of_lt hD]
      exact hout j hj
    · have hown : ∀ f ∈ o.fields v.dD v.dA v.dB, ((s.core (coreKey c)).role v.native f (typeFmt v.ty)).own = typeFmt v.ty :=
        fun f _ => role_own_eq_iff.mpr fun h => absurd (hnative.symm.trans h.1) Bool.false_ne_true
      have hgmask : (o.runOf (s.core (coreKey c)) v ((s.core (coreKey c)).sr 0x070).toNat).gmask = 0 := by
        show (if o.isSel then 0 else v.mask.toNat) = 0
        rw [hmask]
        exact ite_self _
      rw [leaves_vflags hleaves htap, flagsOf_unconverted hL hready hown, onElems_unmasked _ hle hgmask]
      simp only [hlane]
      rfl
  · obtain ⟨o, hL⟩ := laneTable_op htable
    obtain ⟨ok, hform', hallow⟩ := hL.form
    cases hform.symm.trans hform'
    dsimp only
    intro hr hk hstop hvpos hflags hbad hbg harmed hpos hle hvl hnative htap hready hmov hapart
    have hop : ∀ w : Nat, w / 16 % 8 = bitsOf w 6 4 := fun w => (bitsOf_eq_div_mod w 6 4).symm
    have hacc : ∀ w : Nat, w % 4 = bitsOf w 1 0 := fun w => by
      rw [bitsOf_eq_div_mod, pow_zero, Nat.div_one]
      rfl
    simp only [← mem_fields, hop, hacc] at hnative htap hready hmov ⊢
    have hs : LaneReady s c (s.core (coreKey c)) v o n := {
      core := rfl, ready := hr, vector := hk, allows := hallow rfl, stop := hstop, vpos := hvpos, untrapped := hflags, ocBad := hbad
      armed := by simp [harmed], bg := hbg, pos := hpos, le := hle, vl := hvl
      native := fun hn => ⟨(hnative hn).1, fun f hf => count_of_ready (hready f hf) hn, (hnative hn).2⟩
      tap := fun ht => by
        obtain ⟨htype, hcode, hmom⟩ := htap ht
        exact ⟨htype, badFold_legal hcode hmom⟩
      sound := fun f hf => role_sound (typeFmt_mem v.ty) (hready f hf) harmed
      mov := fun hm => hmov (hL.mov hm).1
      apart := apart_role (typeFmt_mem v.ty) hle hapart }
    obtain ⟨t, y, hexec, hleaves⟩ := lane_completes hL hs
    refine ⟨t, hexec, leaves_vpos hleaves, fun e he => ?_, fun h j hj => leaves_untapped hleaves h hj, fun h => ⟨fun h2 => ?_, fun h2 => ?_⟩,
      fun f hf hbit => leaves_ptr hleaves hf hbit.symm⟩
    · have helem := leaves_elements hleaves hle hL.sel he
      rw [← Nat.mod_eq_of_lt (runOf_laneAt hL hs e).2] at helem
      exact helem
    · exact (leaves_tap hleaves h h2).trans (congrArg _ (foldLane_table hL hs _))
    · obtain ⟨hsum, hsquares⟩ := leaves_tap_mom hleaves h h2
      exact ⟨hsum.trans (congrArg _ (foldLane_table hL hs 0)), hsquares.trans (congrArg _ (foldLane_table hL hs 1))⟩
end

section
/-! SUPPORT. The check that the engine instructions begin with, where it passes, and what the end of an instruction leaves of the
descriptors, units and tiles (R29, R42). -/

namespace Sys2Proof.Machine
open Sys2Proof Sys2Proof.Claims

theorem needCompute_here {k : Nat} (hk : isCompute k = true) (w : Nat) (s : State) : (needCompute k w).run s = .ok () s := by
  rw [needCompute, hk]
  rfl

/-- An instruction of the compute cores that changes its core once, past the check of the core. -/
theorem runInstr_computeUpdate {s : State} {c : CoreId} {w : Nat} (hr : s.ready c = true) (hk : isCompute (coreKey c) = true)
    (g : Core → Core) :
    runInstr c w false (do needCompute (coreKey c) w; modC (coreKey c) g; return .next) s
      = .next ((s.updCore (coreKey c) g).retire (coreKey c) (pcOf s c)) :=
  runInstr_next hr rfl (run_bind_ok (needCompute_here hk w s))

@[simp] theorem State.retire_dram (s : State) (k : Nat) (pc : W64) : (s.retire k pc).dram = s.dram := rfl
@[simp] theorem loopStep_desc (c : Core) (e : W64) : (c.loopStep e).desc = c.desc := by
  obtain ⟨p, y, h⟩ := loopStep_frame c e; rw [h]
@[simp] theorem loopStep_unit (c : Core) (e : W64) (i : Nat) : (c.loopStep e).unit i = c.unit i := by
  obtain ⟨p, y, h⟩ := loopStep_frame c e; rw [h]; rfl
@[simp] theorem loopStep_tile (c : Core) (e : W64) (i : Nat) : (c.loopStep e).tile i = c.tile i := by
  obtain ⟨p, y, h⟩ := loopStep_frame c e; rw [h]; rfl
@[simp] theorem loopStep_oc (c : Core) (e : W64) : (c.loopStep e).oc = c.oc := by
  obtain ⟨p, y, h⟩ := loopStep_frame c e; rw [h]
@[simp] theorem loopStep_outq (c : Core) (e : W64) : (c.loopStep e).outq = c.outq := by
  obtain ⟨p, y, h⟩ := loopStep_frame c e; rw [h]
@[simp] theorem loopStep_wait (c : Core) (e : W64) : (c.loopStep e).wait = c.wait := by
  obtain ⟨p, y, h⟩ := loopStep_frame c e; rw [h]
@[simp] theorem loopStep_bg (c : Core) (e : W64) : (c.loopStep e).bg = c.bg := by
  obtain ⟨p, y, h⟩ := loopStep_frame c e; rw [h]

end Sys2Proof.Machine
end

section
/-! SUPPORT. The descriptor instructions: the words that a register keeps, and the image that DLD and DST name (R128, R137). -/

namespace Sys2Proof.Machine
open Sys2Proof Sys2Proof.Claims

theorem desc_setDescWord (c : Core) (n i j : Nat) (v : W64) :
    (c.setDescWord n i v).desc.get 0 j = if j = 8 * n + i then v &&& descMask i else c.desc.get 0 j := SMap.get_set ..

/-- The first words of a register, written in order (R128). -/
theorem desc_setDescWords (c : Core) (n m j : Nat) (v : Nat → W64) :
    ((List.range m).foldl (fun x i => x.setDescWord n i (v i)) c).desc.get 0 j
      = if 8 * n ≤ j ∧ j < 8 * n + m then v (j - 8 * n) &&& descMask (j - 8 * n) else c.desc.get 0 j := by
  induction m with
  | zero => exact (if_neg (by omega)).symm
  | succ m ih =>
    rw [List.range_succ, List.foldl_append, List.foldl_cons, List.foldl_nil, desc_setDescWord, ih]
    by_cases hj : j = 8 * n + m
    · subst hj
      rw [if_pos rfl, if_pos (by omega), Nat.add_sub_cancel_left]
    · rw [if_neg hj]
      exact if_congr (by omega) rfl rfl

theorem descImage_aligned {a : W64} (h : a.toNat % 64 = 0) (k : Nat) (acc : Acc) (s : State) :
    (descImage k a acc).run s = (translate k (s.core k).level .d acc false false a).run s := by
  rw [descImage, if_neg (not_not.mpr h)]
  rfl

theorem descImage_misaligned {a : W64} (h : a.toNat % 64 ≠ 0) (k : Nat) (acc : Acc) (s : State) :
    (descImage k a acc).run s = .error (.exc { code := 0x03, detail := 64, addr := a }) s := by
  rw [descImage, if_pos h]
  rfl

section
variable {s t u : State} {c : CoreId} {n : BitVec 4} {a : Reg} {pa v : Nat} (hr : s.ready c = true) (hk : isCompute (coreKey c) = true)
include hr hk

/-- DLD of an aligned image that is read (R137). -/
theorem execDld_next (ha : ((s.core (coreKey c)).rx a).toNat % 64 = 0)
    (htrans : (translate (coreKey c) (s.core (coreKey c)).level .d .load false false ((s.core (coreKey c)).rx a)).run s = .ok pa t)
    (hload : (loadSpan (coreKey c) ((s.core (coreKey c)).rx a) pa 64 true).run t = .ok v u) :
    execDld c n a s = .next ((u.updCore (coreKey c) fun x =>
      (List.range 8).foldl (fun x i => x.setDescWord n.toNat i (w64 (v >>> (64 * i)))) x).retire (coreKey c) (pcOf s c)) := by
  refine runInstr_next hr rfl ((run_bind_ok (needCompute_here hk _ s)).trans ?_)
  rw [run_getC_bind, run_bind_ok ((descImage_aligned ha ..).trans htrans), run_bind_ok hload]
  rfl

/-- DST to an aligned image that is written (R137). -/
theorem execDst_next (ha : ((s.core (coreKey c)).rx a).toNat % 64 = 0)
    (htrans : (translate (coreKey c) (s.core (coreKey c)).level .d .store false false ((s.core (coreKey c)).rx a)).run s = .ok pa t)
    (hstore : (storeSpan (coreKey c) ((s.core (coreKey c)).rx a) pa 64
      (packBits 64 (((t.core (coreKey c)).descWords n.toNat).map (·.toNat)))).run t = .ok () u) :
    execDst c n a s = .next (u.retire (coreKey c) (pcOf s c)) := by
  refine runInstr_next hr rfl ((run_bind_ok (needCompute_here hk _ s)).trans ?_)
  rw [run_getC_bind, run_bind_ok ((descImage_aligned ha ..).trans htrans), run_getC_bind, run_bind_ok hstore]
  rfl

/-- An image that does not lie at a multiple of 64 (R137). -/
theorem execDld_misaligned (ha : ((s.core (coreKey c)).rx a).toNat % 64 ≠ 0) :
    execDld c n a s = s.takes (coreKey c) { code := 0x03, detail := 64, addr := (s.core (coreKey c)).rx a } (pcOf s c) :=
  runInstr_misaligned hr rfl ((run_bind_ok (needCompute_here hk _ s)).trans
    ((run_getC_bind ..).trans (run_bind_error (descImage_misaligned ha ..))))
theorem execDst_misaligned (ha : ((s.core (coreKey c)).rx a).toNat % 64 ≠ 0) :
    execDst c n a s = s.takes (coreKey c) { code := 0x03, detail := 64, addr := (s.core (coreKey c)).rx a } (pcOf s c) :=
  runInstr_misaligned hr rfl ((run_bind_ok (needCompute_here hk _ s)).trans
    ((run_getC_bind ..).trans (run_bind_error (descImage_misaligned ha ..))))

end

end Sys2Proof.Machine
end

section
open Sys2Proof Sys2Proof.Machine Sys2Proof.Claims

/-- Settles O32: BASE is one write; DLD writes the eight words of its image in order, and a word of another register is none of
them. -/
theorem descriptorInstructions : Obligations.DescriptorInstructions := by
  unfold Obligations.DescriptorInstructions
  intro s c n a hr hk
  refine ⟨runInstr_computeUpdate hr hk _, runInstr_computeUpdate hr hk _, fun ha pa v t u htrans hload => ?_,
    fun ha pa t u htrans hstore => execDst_next hr hk ha htrans hstore, fun ha => ⟨execDld_misaligned hr hk ha, execDst_misaligned hr hk ha⟩⟩
  refine ⟨_, execDld_next hr hk ha htrans hload, ?_⟩
  simp only [State.core_retire_same, State.core_updCore_same, loopStep_desc, desc_setDescWords]
  refine ⟨fun i hi => ?_, fun j hj => if_neg (by omega)⟩
  rw [if_pos (by omega), Nat.add_sub_cancel_left]
  rfl
end

section
/-! SUPPORT. SGO: its checks where they pass, the unit that it starts, and a walk with nothing to move (R140 to R142). -/

namespace Sys2Proof.Machine
open Sys2Proof Sys2Proof.Claims

@[simp] theorem Core.unit_setUnit_same (c : Core) (i : Nat) (u : StreamUnit) : (c.setUnit i u).unit i = u := SMap.get_set_same ..
theorem Core.unit_setUnit_other (c : Core) {i j : Nat} (h : j ≠ i) (u : StreamUnit) : (c.setUnit i u).unit j = c.unit j :=
  SMap.get_set_other _ _ h _

@[simp] theorem Core.unit_setOutq (c : Core) (q : List OutMsg) (i : Nat) : (c.setOutq q).unit i = c.unit i := rfl

/-- What SGO asks of the unit, the control word and the destination word before it looks at the walk (R140 to R142). -/
structure SgoLegal (x : Core) (i : BitVec 3) (a : Reg) : Prop where
  free : (x.unit i.toNat).state = 0 ∨ (x.unit i.toNat).state = 3
  pair : a ≠ 31
  cls : ctlClass (x.rx a) < 5
  level : ctlClass (x.rx a) = 2 ∨ ctlClass (x.rx a) = 3 → x.level ≠ .u
  mailbox : ctlNotify (x.rx a) = true → destMbx (x.rx (a + 1)) < 14 ∨ x.level = .m

/-- A walk with nothing to move (R141). -/
abbrev emptyWalk (sd td : Desc) (ctl : W64) : Prop := sd.count = 0 ∨ td.count = 0 ∨ ctlIter ctl = 0

/-- With no background work no TMOV is in flight (R183). -/
theorem tmov_idle {x : Core} (h : x.bg = []) (sd td : Desc) (n : Nat) :
    (x.tmovToOc || sd.meetsTmov x n || td.meetsTmov x n) = false := by
  simp [Core.tmovToOc, Desc.meetsTmov, h]

/-- Checks that each pass one after another. -/
theorem run_forEach_pass {α : Type} {l : List α} {g : α → M Unit} {s : State} (h : ∀ a ∈ l, (g a).run s = .ok () s) :
    (forEach l g).run s = .ok () s := by
  induction l with
  | nil => rfl
  | cons a l ih => exact (run_bind_ok (h a (List.mem_cons_self ..))).trans (ih fun b hb => h b (List.mem_cons_of_mem _ hb))

section
variable {s : State} {c : CoreId} {i : BitVec 3} {ds dd : BitVec 4} {a : Reg} (hr : s.ready c = true) (hk : isCompute (coreKey c) = true)
include hr hk

/-- SGO past its first checks: a walk with nothing to move ends at once, and any other starts the unit. -/
theorem execSgo_legal (h : SgoLegal (s.core (coreKey c)) i a) :
    let k := coreKey c
    let x := s.core k
    let ctl := x.rx a
    let started := startedUnit x (x.unit i.toNat) ds dd a
    (emptyWalk (x.descOf ds.toNat) (x.descOf dd.toNat) ctl → (ctlNotify ctl = true → x.outq.length < 8) →
        execSgo c i ds dd a s = .next ((if ctlNotify ctl then
            (s.updCore k fun y => y.setUnit i.toNat { state := 3 }).streamNotice k started
          else s.updCore k fun y => y.setUnit i.toNat { state := 3 }).retire k (pcOf s c)))
      ∧ (¬ emptyWalk (x.descOf ds.toNat) (x.descOf dd.toNat) ctl → sgoIllegal (x.descOf ds.toNat) (x.descOf dd.toNat) (ctlClass ctl) = false →
        (∀ d ∈ [x.descOf ds.toNat, x.descOf dd.toNat], d.space ≤ 1 → d.misaligned = none) → x.bg = [] →
        execSgo c i ds dd a s = .next ((s.updCore k fun y => y.setUnit i.toNat started).retire k (pcOf s c))) := by
  obtain ⟨hfree, hpair, hcls, hlevel, hmbx⟩ := h
  intro k x ctl started
  have hidle : (x.unit i.toNat).state ≠ 1 := by rcases hfree with h | h <;> rw [h] <;> decide
  have hhalted : ((x.unit i.toNat).state == 2) = false := by rcases hfree with h | h <;> rw [h] <;> rfl
  have hword : (a == 31 || decide (5 ≤ ctlClass ctl)) = false :=
    Bool.or_eq_false_iff.mpr ⟨beq_eq_false_iff_ne.mpr hpair, decide_eq_false (not_le.mpr hcls)⟩
  have hmay : ¬ (ctlNotify ctl = true ∧ 14 ≤ destMbx (x.rx (a + 1)) ∧ x.level ≠ .m) := fun ⟨hn, hm, hl⟩ =>
    (hmbx hn).elim (fun h => absurd h (not_lt.mpr hm)) hl
  constructor
  on_goal 1 => intro hempty hroom
  on_goal 2 => intro hwalk hill halign hbg
  all_goals
    refine runInstr_next hr rfl ((run_bind_ok (needCompute_here hk _ s)).trans ((run_getC_bind ..).trans ?_))
    dsimp only
    rw [if_neg fun h => hidle h.1, if_neg hidle, run_bind_ok (illegalIf_pass hhalted ..), run_bind_ok (illegalIf_pass hword ..),
      if_neg fun h => hlevel h.1 h.2, if_neg hmay]
  · have hstall : (ctlNotify ctl && decide (8 ≤ x.outq.length)) ≠ true := fun h => by
      rw [Bool.and_eq_true, decide_eq_true_eq] at h
      exact absurd (hroom h.1) (not_lt.mpr h.2)
    rw [if_pos hempty, if_neg hstall, run_modC_bind]
    by_cases hn : ctlNotify ctl = true
    · rw [if_pos hn, if_pos hn]
      rfl
    · rw [if_neg hn, if_neg hn]
      rfl
  · rw [if_neg hwalk, run_bind_ok (illegalIf_pass hill ..)]
    refine (run_bind_ok (run_forEach_pass fun d hd => ?_)).trans ?_
    · split_ifs with hspace
      · rw [halign d hd hspace]
        rfl
      · rfl
    · rw [if_neg (ne_true_of_eq_false (tmov_idle hbg ..))]
      rfl

/-- SGO on a halted unit raises ILLEGAL (R142). -/
theorem execSgo_halted (h : ((s.core (coreKey c)).unit i.toNat).state = 2) :
    execSgo c i ds dd a s = s.takes (coreKey c) (ill (instrWord (.sgo c i ds dd a))) (pcOf s c) := by
  refine runInstr_illegal hr rfl ((run_bind_ok (needCompute_here hk _ s)).trans ((run_getC_bind ..).trans ?_))
  dsimp only
  rw [h, if_neg (by simp), if_neg (by decide)]
  rfl

end

/-- The notice of a unit that SGO has just ended is the one that its destination word gives (R145). -/
theorem streamNotice_started (s : State) (k : Nat) (u v : StreamUnit) (i : Nat) (ds dd : BitVec 4) (a : Reg) :
    (((s.updCore k fun y => y.setUnit i v).streamNotice k (startedUnit (s.core k) u ds dd a)).core k)
      = ((s.core k).setUnit i v).setOutq ((s.core k).outq ++ [unitNotice s k ((s.core k).rx (a + 1))]) := by
  have htag : BitVec.ofNat 16 (bitsOf ((s.core k).rx (a + 1)).toNat 63 48) = BitVec.ofNat 16 (((s.core k).rx (a + 1)).toNat / 2 ^ 48) := by
    rw [bitsOf_eq_div_mod]
    exact BitVec.eq_of_toNat_eq (by simp)
  rw [State.streamNotice, State.core_updCore_same, State.core_updCore_same, unitNotice]
  dsimp only [startedUnit]
  rw [htag, bitsOf_eq_div_mod _ 12, bitsOf_eq_div_mod _ 8, pow_zero, Nat.div_one]
  rfl

end Sys2Proof.Machine
end

section
open Sys2Proof Sys2Proof.Machine Sys2Proof.Claims

/-- Settles O33: SGO's checks pass one after another, and what remains is one write of the unit, with the notice after it where there
is nothing to move. -/
theorem sgoStartsUnit : Obligations.SgoStartsUnit := by
  unfold Obligations.SgoStartsUnit
  dsimp only
  refine ⟨fun s c i ds dd a hr hk hfree hpair hcls hlevel hmbx hbg => ?_, fun s c i ds dd a hr hk h => execSgo_halted hr hk h⟩
  have hlegal : SgoLegal (s.core (coreKey c)) i a := ⟨hfree, hpair, hcls, hlevel, fun h => by
    rw [destMbx, bitsOf_eq_div_mod]
    exact hmbx h⟩
  obtain ⟨hempty, hstarts⟩ := execSgo_legal (ds := ds) (dd := dd) hr hk hlegal
  refine ⟨fun hsd htd hiter hill hsalign htalign => ?_, fun hwalk hroom => ?_⟩
  · refine ⟨_, hstarts (fun h => h.elim hsd fun h => h.elim htd hiter) hill (fun d hd hspace => ?_) hbg, ?_⟩
    · rcases List.mem_cons.mp hd with rfl | hd
      · exact hsalign
      · rw [List.mem_singleton.mp hd] at hspace ⊢
        exact htalign hspace
    · simp only [State.core_retire_same, State.core_updCore_same, loopStep_unit, loopStep_rx, State.retire_dram, State.updCore_dram,
        Core.unit_setUnit_same]
      exact ⟨trivial, fun j hj => Core.unit_setUnit_other _ hj _, fun _ => rfl, trivial⟩
  · refine ⟨_, hempty hwalk hroom, ?_⟩
    rw [State.core_retire_same, loopStep_unit, loopStep_outq, ctlNotify]
    split_ifs with htold
    · rw [streamNotice_started, Core.unit_setOutq]
      exact ⟨Core.unit_setUnit_same .., rfl⟩
    · rw [State.core_updCore_same, List.append_nil]
      exact ⟨Core.unit_setUnit_same .., rfl⟩
end

section
/-! SUPPORT. SCRED, SRESUME, SSTOP and SCANCEL: the check of the level, and what each leaves of its unit (R149, R150, R156, R157). -/

namespace Sys2Proof.Machine
open Sys2Proof Sys2Proof.Claims

section
variable {s : State} {k i : Nat} (hk : isCompute k = true) (w : Nat)
include hk

theorem unitLevel_pass (h : ((s.core k).unit i).level.code ≤ (s.core k).level.code) : (unitLevel k w i).run s = .ok () s := by
  rw [unitLevel, run_bind_ok (needCompute_here hk w s), run_getC_bind, if_neg (not_lt.mpr h)]
  rfl

theorem unitLevel_below (h : (s.core k).level.code < ((s.core k).unit i).level.code) :
    (unitLevel k w i).run s = .error (.exc (priv w)) s := by
  rw [unitLevel, run_bind_ok (needCompute_here hk w s), run_getC_bind, if_pos h]
  rfl

end

/-- Credits grow to 4,095 at most, and CROVF records what was above that (R150). -/
theorem credit_eq (u : StreamUnit) (n : Nat) :
    u.credit n = { u with credits := min (u.credits + n) 4095, crovf := u.crovf || decide (4095 < u.credits + n) } := by
  unfold StreamUnit.credit
  split_ifs with h
  · rw [decide_eq_true h, Bool.or_true, min_eq_right h.le]
  · rw [decide_eq_false h, Bool.or_false, min_eq_left (not_lt.mp h)]

theorem unit_creditUnit_same (x : Core) (i n : Nat) :
    (x.creditUnit i n).unit i = if n ≠ 0 ∧ ((x.unit i).state = 1 ∨ (x.unit i).state = 2) then (x.unit i).credit n else x.unit i := by
  unfold Core.creditUnit
  dsimp only
  split_ifs
  · exact Core.unit_setUnit_same ..
  · rfl

theorem unit_creditUnit_other (x : Core) {i j : Nat} (h : j ≠ i) (n : Nat) : (x.creditUnit i n).unit j = x.unit j := by
  unfold Core.creditUnit
  dsimp only
  split_ifs
  · exact Core.unit_setUnit_other x h _
  · rfl

@[simp] theorem unit_updTile (x : Core) (code : Nat) (g : Tile → Tile) (i : Nat) : (x.updTile code g).unit i = x.unit i := rfl
@[simp] theorem tile_setUnit (x : Core) (i : Nat) (u : StreamUnit) (code : Nat) : (x.setUnit i u).tile code = x.tile code := rfl
@[simp] theorem tile_updTile_same (x : Core) (code : Nat) (g : Tile → Tile) : (x.updTile code g).tile code = g (x.tile code) :=
  SMap.get_set_same ..
theorem tile_updTile_other (x : Core) {code j : Nat} (h : j ≠ code) (g : Tile → Tile) : (x.updTile code g).tile j = x.tile j :=
  SMap.get_set_other _ _ h _

@[simp] theorem unit_partialTile (x : Core) (i j : Nat) : (x.partialTile i).unit j = x.unit j := by
  unfold Core.partialTile
  split
  · exact unit_updTile ..
  · rfl

/-- The tile that a unit was writing is left PARTIAL (R157). -/
theorem tile_partialTile {x : Core} {i code : Nat} (h : (x.unit i).writes? = some code) :
    (x.partialTile i).tile code = { x.tile code with st := 3, writer := i } := by
  unfold Core.partialTile
  rw [h]
  exact tile_updTile_same ..

section
variable {s : State} {c : CoreId} {w : Nat} {i : BitVec 3} (hr : s.ready c = true) (hk : isCompute (coreKey c) = true)
include hr hk

/-- The control of a stream unit at or above its level is one change of the core (R150). -/
theorem runInstr_unitUpdate (hle : ((s.core (coreKey c)).unit i.toNat).level.code ≤ (s.core (coreKey c)).level.code) (g : Core → Core) :
    runInstr c w false (do unitLevel (coreKey c) w i.toNat; modC (coreKey c) g; return .next) s
      = .next ((s.updCore (coreKey c) g).retire (coreKey c) (pcOf s c)) :=
  runInstr_next hr rfl (run_bind_ok (unitLevel_pass hk w hle))

/-- Below the unit's level its control raises PRIVILEGE, whatever would follow (R150). -/
theorem runInstr_belowUnit (hlt : (s.core (coreKey c)).level.code < ((s.core (coreKey c)).unit i.toNat).level.code) (rest : Unit → M Flow) :
    runInstr c w false (unitLevel (coreKey c) w i.toNat >>= rest) s = s.takes (coreKey c) (priv w) (pcOf s c) :=
  runInstr_privilege hr (run_bind_error (unitLevel_below hk w hlt))

/-- SSTOP stalls while only the notice of a RUNNING unit is left (R157). -/
theorem execSstop_stall (hle : ((s.core (coreKey c)).unit i.toNat).level.code ≤ (s.core (coreKey c)).level.code)
    (hrun : ((s.core (coreKey c)).unit i.toNat).state = 1) (hdue : ((s.core (coreKey c)).unit i.toNat).noticeDue = true) :
    execSstop c i s = .next s := by
  refine runInstr_stall hr rfl ((run_bind_ok (unitLevel_pass hk _ hle)).trans ((run_getC_bind ..).trans ?_))
  dsimp only
  rw [if_pos ⟨hrun, hdue⟩]
  rfl

/-- SSTOP of any other unit halts it where it runs (R157). -/
theorem execSstop_next (hle : ((s.core (coreKey c)).unit i.toNat).level.code ≤ (s.core (coreKey c)).level.code)
    (hdue : ¬ (((s.core (coreKey c)).unit i.toNat).state = 1 ∧ ((s.core (coreKey c)).unit i.toNat).noticeDue = true)) :
    execSstop c i s = .next ((s.updCore (coreKey c) fun x =>
      if ((s.core (coreKey c)).unit i.toNat).state = 1 then x.haltUnit i.toNat 4 0 false else x).retire (coreKey c) (pcOf s c)) := by
  refine runInstr_next hr rfl ((run_bind_ok (unitLevel_pass hk _ hle)).trans ((run_getC_bind ..).trans ?_))
  dsimp only
  rw [if_neg hdue]
  rfl

end

end Sys2Proof.Machine
end

section
/-! SUPPORT. SWAIT and LBAR: their conditions, their waits, and what ends these (R150, R152). -/

namespace Sys2Proof.Machine
open Sys2Proof Sys2Proof.Claims

theorem swaitDone_iff {x : Core} {i : Nat} {thr : Option W64} : x.swaitDone i thr = true ↔ swaitOver (x.unit i) thr := by
  simp only [Core.swaitDone, swaitOver, Bool.or_eq_true, bne_iff_ne]
  cases thr <;> simp

section
variable {s : State} {k : Nat} (hk : isCompute k = true) (w : Nat)
include hk

theorem swaitBody_over {i : BitVec 3} {thr : Option W64} (h : swaitOver ((s.core k).unit i.toNat) thr) :
    (swaitBody k w i thr).run s = .ok .next s := by
  rw [swaitBody, run_bind_ok (needCompute_here hk w s), run_getC_bind, if_pos (swaitDone_iff.mpr h)]
  rfl

theorem swaitBody_waits {i : BitVec 3} {thr : Option W64} (h : ¬ swaitOver ((s.core k).unit i.toNat) thr) :
    (swaitBody k w i thr).run s = .error .stall (s.updCore k fun y => { y with wait := .swait i thr }) := by
  rw [swaitBody, run_bind_ok (needCompute_here hk w s), run_getC_bind, if_neg (mt swaitDone_iff.mp h)]
  rfl

end

theorem lbarDone_iff {x : Core} : x.lbarDone = true ↔ lbarOver x := by
  simp only [Core.lbarDone, lbarOver, Bool.and_eq_true, List.all_eq_true, List.mem_range, Bool.not_eq_true', Bool.and_eq_false_iff,
    Bool.or_eq_false_iff, beq_eq_false_iff_ne, List.any_eq_false, Bool.not_eq_true]
  refine and_congr (forall₂_congr fun i _ => ?_) Iff.rfl
  tauto

/-- With no open gather group there is none to run (R187). -/
theorem runGroup_none {x : Core} {arr : Nat} (h : x.group arr = none) : x.runGroup arr = x := by rw [Core.runGroup, h]
theorem runGroups_none {x : Core} (h0 : x.gather0 = none) (h1 : x.gather1 = none) : x.runGroups = x := by
  rw [Core.runGroups, runGroup_none (arr := 0) (x := x) h0]
  exact runGroup_none h1

section
variable {s : State} {k : Nat} (hk : isCompute k = true) (w : Nat) (h0 : (s.core k).gather0 = none) (h1 : (s.core k).gather1 = none)
include hk h0 h1

theorem lbarBody_over (h : lbarOver (s.core k)) : (lbarBody k w).run s = .ok .next (s.updCore k Core.runGroups) := by
  rw [lbarBody, run_bind_ok (needCompute_here hk w s), run_modC_bind, run_getC_bind, State.core_updCore_same, runGroups_none h0 h1,
    if_pos (lbarDone_iff.mpr h)]
  rfl

theorem lbarBody_waits (h : ¬ lbarOver (s.core k)) :
    (lbarBody k w).run s = .error .stall ((s.updCore k Core.runGroups).updCore k fun y => { y with wait := .lbar }) := by
  rw [lbarBody, run_bind_ok (needCompute_here hk w s), run_modC_bind, run_getC_bind, State.core_updCore_same, runGroups_none h0 h1,
    if_neg (mt lbarDone_iff.mp h)]
  rfl

end

/-- A core that its wait alone keeps from being ready issues. -/
theorem awake_issuing {s : State} {c : CoreId} (hr : (s.updCore (coreKey c) Core.awake).ready c = true) : s.issuing (coreKey c) = true :=
  (issuing_awake s _).symm.trans (ready_issuing hr)

section
variable {s : State} {c : CoreId} (hk : isCompute (coreKey c) = true)
include hk

/-- A waiting SWAIT whose condition holds goes on (R150). -/
theorem execSwaitComplete_next {i : BitVec 3} {thr : Option W64} (hr : (s.updCore (coreKey c) Core.awake).ready c = true)
    (hw : (s.core (coreKey c)).wait = .swait i thr) (h : swaitOver ((s.core (coreKey c)).unit i.toNat) thr) :
    execSwaitComplete c s = .next ((s.updCore (coreKey c) Core.awake).retire (coreKey c) (pcOf s c)) := by
  have hgo : (s.issuing (coreKey c) && (s.core (coreKey c)).swaitDone i.toNat thr) = true := by
    rw [awake_issuing hr, swaitDone_iff.mpr h, Bool.and_self]
  have hover : swaitOver (((s.updCore (coreKey c) Core.awake).core (coreKey c)).unit i.toNat) thr := by
    rw [State.core_updCore_same]
    exact h
  simp only [execSwaitComplete, hw]
  rw [if_pos hgo]
  refine (runInstr_next hr rfl (swaitBody_over hk 0 hover)).trans ?_
  rw [State.core_updCore_same]
  rfl

/-- An LBAR whose condition holds goes on, on a core that is ready (R152). -/
theorem runInstr_lbar_next (hr : s.ready c = true) (w : Nat) (h0 : (s.core (coreKey c)).gather0 = none)
    (h1 : (s.core (coreKey c)).gather1 = none) (h : lbarOver (s.core (coreKey c))) :
    ∃ t, runInstr c w false (lbarBody (coreKey c) w) s = .next t ∧ (t.core (coreKey c)).wait = .none
      ∧ (t.core (coreKey c)).bg = (s.core (coreKey c)).bg
      ∧ ((s.core (coreKey c)).atLoopEnd = false → (t.core (coreKey c)).pc = pcOf s c + 4) := by
  refine ⟨_, runInstr_next hr rfl (lbarBody_over hk w h0 h1 h), ?_⟩
  rw [State.core_retire_same, State.core_updCore_same, runGroups_none h0 h1, loopStep_wait, loopStep_bg]
  exact ⟨ready_wait hr, rfl, loopStep_pc fun _ _ => rfl⟩

/-- A waiting LBAR whose condition holds goes on (R152). -/
theorem execLbarComplete_next (hr : (s.updCore (coreKey c) Core.awake).ready c = true) (hw : (s.core (coreKey c)).wait = .lbar)
    (h : lbarOver (s.core (coreKey c))) (h0 : (s.core (coreKey c)).gather0 = none) (h1 : (s.core (coreKey c)).gather1 = none) :
    ∃ t, execLbarComplete c s = .next t ∧ (t.core (coreKey c)).wait = .none
      ∧ ((s.core (coreKey c)).atLoopEnd = false → (t.core (coreKey c)).pc = pcOf s c + 4) := by
  have hcore : (s.updCore (coreKey c) Core.awake).core (coreKey c) = (s.core (coreKey c)).awake := State.core_updCore_same ..
  obtain ⟨t, hexec, hwait, -, hpc⟩ := runInstr_lbar_next hk hr (instrWord (.lbar c)) (by rw [hcore]; exact h0) (by rw [hcore]; exact h1)
    (by rw [hcore]; exact h)
  rw [pcOf, hcore] at hpc
  exact ⟨t, (if_pos ⟨hw, awake_issuing hr, lbarDone_iff.mpr h⟩).trans hexec, hwait, hpc⟩

end

end Sys2Proof.Machine
end

section
open Sys2Proof Sys2Proof.Machine Sys2Proof.Claims

/-- Settles O34: the controls of a unit check its level and then change it once; SWAIT and LBAR look at their condition once, and
again when their wait is to end. -/
theorem streamControlAndWaits : Obligations.StreamControlAndWaits := by
  unfold Obligations.StreamControlAndWaits
  dsimp only
  refine ⟨fun s c i a hr hk => ⟨fun hle => ⟨?_, ?_, fun hdue => ?_, fun hrun hdue => execSstop_stall hr hk hle hrun hdue, ?_⟩, fun hlt => ?_⟩,
    fun s c i a hk => ⟨fun hr h => ?_, fun hr h => ?_, fun hr h0 h1 h => ?_, fun hr h0 h1 h => ?_, fun old hr hw h => ?_, fun hr hw h h0 h1 => ?_⟩⟩
  · refine ⟨_, runInstr_unitUpdate hr hk hle _, ?_⟩
    rw [State.core_retire_same, State.core_updCore_same]
    simp only [loopStep_unit]
    exact ⟨by rw [unit_creditUnit_same, credit_eq], fun j hj => unit_creditUnit_other _ hj _⟩
  · refine ⟨_, runInstr_unitUpdate hr hk hle _, ?_⟩
    rw [State.core_retire_same, State.core_updCore_same, loopStep_unit]
    dsimp only
    split_ifs
    · exact Core.unit_setUnit_same ..
    · rfl
  · refine ⟨_, execSstop_next hr hk hle hdue, ?_⟩
    rw [State.core_retire_same, State.core_updCore_same, loopStep_unit]
    split_ifs
    · rw [Core.haltUnit, Core.unit_setUnit_same, unit_partialTile]
    · rfl
  · refine ⟨_, runInstr_unitUpdate hr hk hle _, ?_⟩
    rw [State.core_retire_same, State.core_updCore_same, loopStep_unit, Core.cancelUnit, Core.unit_setUnit_same]
    refine ⟨rfl, rfl, fun code hcode => ?_⟩
    rw [loopStep_tile, tile_setUnit, tile_partialTile hcode]
    exact ⟨rfl, rfl⟩
  · exact ⟨runInstr_belowUnit hr hk hlt _, runInstr_belowUnit hr hk hlt _, runInstr_belowUnit hr hk hlt _, runInstr_belowUnit hr hk hlt _⟩
  · exact runInstr_next hr rfl (swaitBody_over hk _ h)
  · exact runInstr_stall hr rfl (swaitBody_waits hk _ h)
  · exact runInstr_lbar_next hk hr _ h0 h1 h
  · refine ⟨_, runInstr_stall hr rfl (lbarBody_waits hk _ h0 h1 h), ?_⟩
    rw [State.core_updCore_same, State.core_updCore_same, runGroups_none h0 h1]
    exact ⟨rfl, rfl, rfl⟩
  · exact execSwaitComplete_next hk hr hw h
  · exact execLbarComplete_next hk hr hw h h0 h1
end

section
/-! SUPPORT. Elements of a descriptor without scales, from any iteration of its walk (R132, R143, R198). -/

namespace Sys2Proof.Machine
open Sys2Proof Sys2Proof.Claims

theorem leBytes_ofLe (bs : List Byte) : leBytes bs.length (ofLe bs) = bs := by
  induction bs with
  | nil => rfl
  | cons b bs ih =>
    have hb := b.isLt
    rw [List.length_cons, leBytes, ofLe, show (b.toNat + 256 * ofLe bs) / 256 = ofLe bs by omega, ih]
    refine congrArg (· :: bs) (BitVec.eq_of_toNat_eq ?_)
    rw [BitVec.toNat_ofNat]
    omega

@[simp] theorem length_ocBytes (x : Core) (a n : Nat) : (x.ocBytes a n).length = n := by simp [Core.ocBytes, rangeFrom]

/-- The bytes at the place of element e of a walk in the operand cache, as a number. -/
def Core.walkBits (x : Core) (d : Desc) (rep : Int) (e : Nat) : Nat := ofLe (x.ocBytes (d.place rep e).1 (elemBits d.fmt / 8))

section
variable {d : Desc} (h : d.scaled = false) (rep : Int) (e : Nat)
include h

/-- An element of whole bytes begins at one. -/
theorem place_bit : (d.place rep e).2 = 0 := by
  simp only [Desc.place, offBits_unscaled h]
  split <;> rfl

theorem span_unscaled : d.span rep e = ((d.place rep e).1, elemBits d.fmt / 8) := by
  obtain ⟨hbits, -⟩ := elemBits_unscaled (fmt := d.fmt) h
  refine Prod.ext rfl ?_
  show ((d.place rep e).2 + d.bits + 7) / 8 = _
  rw [place_bit h, Desc.bits]
  omega

/-- The bits of an element are the bytes at its place, and it has no scale. -/
theorem readElem_bytes {k : Nat} {p : MemPort} {s t : State} {b : Nat} (hlt : b < 2 ^ elemBits d.fmt)
    (hread : (if d.space = 1 then ofLe <$> ocRead k (d.place rep e).1 (elemBits d.fmt / 8)
      else p.load (w64 (d.place rep e).1) (elemBits d.fmt / 8)).run s = .ok b t) :
    (d.readElem k p rep e).run s = .ok (b, 127) t := by
  have hsize : ((d.place rep e).2 + d.bits + 7) / 8 = elemBits d.fmt / 8 := congrArg Prod.snd (span_unscaled h rep e)
  have hbits : (d.readBits k p rep e).run s = .ok b t := by
    rw [Desc.readBits]
    dsimp only
    rw [hsize, place_bit h]
    split_ifs at hread ⊢
    all_goals rw [run_bind_ok hread, run_pure, Nat.shiftRight_zero, Desc.bits, Nat.mod_eq_of_lt hlt]
  rw [Desc.readElem, run_bind_ok hbits, Desc.readScale, h]
  rfl

/-- An element of the operand cache (R95). -/
theorem readElem_oc {k : Nat} {p : MemPort} {s : State} (hspace : d.space = 1) (hbad : (s.core k).ocBad = []) :
    (d.readElem k p rep e).run s = .ok ((s.core k).walkBits d rep e, 127) s := by
  have hlt := ocBytes_lt (s.core k) (d.place rep e).1 (elemBits d.fmt / 8)
  rw [(elemBits_unscaled (fmt := d.fmt) h).1] at hlt
  refine readElem_bytes h rep e hlt ?_
  rw [if_pos hspace, map_eq_pure_bind, run_bind_ok (ocRead_sound hbad ..)]
  rfl

theorem putElem_oc (hspace : d.space = 1) (v : Nat) :
    d.putElem rep e v = .oc (ocBytesAt (d.place rep e).1 (leBytes (elemBits d.fmt / 8) v)) := by
  rw [Desc.putElem, span_unscaled h]
  exact if_pos hspace

end

end Sys2Proof.Machine
end

section
/-! SUPPORT. The grant of the lagoon port, and a granule that its body moves (R445). -/

namespace Sys2Proof.Machine
open Sys2Proof Sys2Proof.Claims

/-- A granule whose body ends well, of a unit with iterations left. -/
theorem runGranule_moved {k i : Nat} {s u : State} (hdue : ((s.core k).unit i).noticeDue = false)
    (hwrite : (s.core k).cannotWrite ((s.core k).unit i) = false) (hbody : (granuleBody k i).run s = .ok () u)
    (hleft : ((u.core k).unit i).iter < ctlIter ((u.core k).unit i).ctl) : (runGranule k i).run s = .ok () u := by
  have htry : (tryCatch (do granuleBody k i; return .ok ()) fun e => return .error e : M (Except Err Unit)).run s = .ok (.ok ()) u := by
    simp only [EStateM.run] at hbody
    simp only [tryCatch, tryCatchThe, MonadExceptOf.tryCatch, EStateM.tryCatch, EStateM.run, bind, EStateM.bind, hbody]
    rfl
  rw [runGranule, run_getC_bind]
  dsimp only
  rw [hdue, hwrite]
  refine (run_bind_ok htry).trans ?_
  dsimp only
  rw [run_getC_bind, if_neg (not_le.mpr hleft)]
  rfl

/-- A core whose port's pointer has moved past unit i (R445). -/
def Core.granted (i : Nat) (x : Core) : Core := { x with rr := (i + 1) % 8 }

/-- The grant: the pointer moves past the unit, and its granule runs (R445). -/
theorem execStreamGranule_next {s u : State} {c : CoreId} {i : Nat} (hk : isCompute (coreKey c) = true)
    (hpower : s.corePowered (coreKey c) = true) (hrun : (s.core (coreKey c)).run ≠ .inReset)
    (hfirst : ((List.range 8).map fun j => ((s.core (coreKey c)).rr + j) % 8).find? (fun i => (s.core (coreKey c)).eligible i) = some i)
    (hgranule : (runGranule (coreKey c) i).run (s.updCore (coreKey c) (Core.granted i)) = .ok () u) :
    execStreamGranule c s = .next u := by
  have hup : (isCompute (coreKey c) && s.corePowered (coreKey c) && (s.core (coreKey c)).run != .inReset) = true := by
    rw [hk, hpower, Bool.true_and, Bool.true_and, bne_iff_ne]
    exact hrun
  rw [execStreamGranule]
  simp only [if_pos hup, hfirst]
  show finish ((modC (coreKey c) (Core.granted i) >>= fun _ => runGranule (coreKey c) i).run s) = _
  rw [run_modC_bind, hgranule]
  rfl

/-- A granule's writes mark the units whose rows and spans they hit, and never the unit that writes (R148). -/
theorem hitUnits_frame (x : Core) (but : Option Nat) (spans : List Nat) :
    (x.hitUnits but spans).oc = x.oc ∧ (x.hitUnits but spans).rr = x.rr ∧ ∀ i, but = some i → (x.hitUnits but spans).unit i = x.unit i := by
  unfold Core.hitUnits
  generalize List.range 8 = l
  induction l generalizing x with
  | nil => exact ⟨rfl, rfl, fun _ _ => rfl⟩
  | cons j l ih =>
    rw [List.foldl_cons]
    dsimp only
    split_ifs with h
    · obtain ⟨-, hne, -⟩ := h
      refine (ih _).imp_right (And.imp_right fun hunit i hi => (hunit i hi).trans (Core.unit_setUnit_other x (fun hij => hne ?_) _))
      rw [hi, hij]
    · exact ih x

/-- What core k holds after a unit's granule: operand cache and unit, but for the record of the bytes that the unit wrote. -/
structure Granuled (k i : Nat) (v : StreamUnit) (oc : SMap Byte) (s t : State) : Prop where
  dram : t.dram = s.dram
  rr : (t.core k).rr = (s.core k).rr
  oc : (t.core k).oc = oc
  unit : ∃ span hit, (t.core k).unit i = { v with span := span, hit := hit }

/-- The marks that a granule leaves in other units (R148). -/
theorem Granuled.hits {k i : Nat} {v : StreamUnit} {oc : SMap Byte} {s t : State} (h : Granuled k i v oc s t) (l : SMap Core) (spans : List Nat) :
    Granuled k i v oc s (l.foldl (fun s x => s.updCore x.1 fun c => c.hitUnits (if x.1 = k then some i else none) spans) t) := by
  induction l generalizing t with
  | nil => exact h
  | cons x l ih =>
    obtain ⟨hdram, hrr, hoc, hunit⟩ := h
    rw [List.foldl_cons]
    refine ih ?_
    by_cases hx : x.1 = k
    · obtain ⟨hoc', hrr', hsame⟩ := hitUnits_frame (t.core k) (some i) spans
      rw [hx, if_pos rfl]
      refine ⟨(State.updCore_dram ..).trans hdram, ?_, ?_, ?_⟩ <;> rw [State.core_updCore_same]
      · exact hrr'.trans hrr
      · exact hoc'.trans hoc
      · rw [hsame i rfl]
        exact hunit
    · refine ⟨(State.updCore_dram ..).trans hdram, ?_, ?_, ?_⟩ <;> rw [State.core_updCore_other t (Ne.symm hx)]
      · exact hrr
      · exact hoc
      · exact hunit

/-- The unit's position after a granule of n elements outside the tiles (R143). -/
theorem advanceUnit_outside {x : Core} {i : Nat} (h : (Desc.of (x.unit i).dst).space ≤ 1) (n : Nat) (fl : Flags) :
    ∃ moved fill, x.advanceUnit i n fl = x.setUnit i { x.unit i with
      index := if (Desc.of (x.unit i).dst).count ≤ (x.unit i).index + n then 0 else (x.unit i).index + n
      iter := if (Desc.of (x.unit i).dst).count ≤ (x.unit i).index + n then (x.unit i).iter + 1 else (x.unit i).iter
      flags := (x.unit i).flags ||| fl, moved := moved, sfill := fill } := by
  rw [Core.advanceUnit]
  dsimp only
  rw [if_pos h]
  simp only [decide_eq_true_eq]
  exact ⟨_, _, rfl⟩

/-- The writes of a granule that is copied to the operand cache (R144, R200). -/
theorem streamPuts_copy {sd dd : Desc} (hfmt : sd.fmt = dd.fmt) (hspace : dd.space = 1) (hplain : dd.scaled = false) (rep : Int)
    (es : List Nat) (b : Nat → Nat) :
    (streamPuts sd dd rep es (es.map fun e => (b e, 127))).1
      = es.map fun e => .oc (ocBytesAt (dd.place rep e).1 (leBytes (elemBits dd.fmt / 8) (b e))) := by
  have hzip : es.zip (es.map fun e => (b e, 127)) = es.map fun e => (e, b e, 127) := by
    conv_lhs => rw [← List.map_id es, List.map_map, List.zip_map']
    rfl
  rw [streamPuts, hplain]
  simp only [Bool.false_eq_true, if_false, hfmt, if_true, joinPuts, hzip, List.flatMap_map, ← List.map_eq_flatMap,
    putElem_oc hplain _ _ hspace]

/-- Elements copied to places that lie apart hold there the bytes of their source. -/
theorem ocBytes_moved {x y : Core} {m : SMap Byte} {sd dd : Desc} {srep drep : Int} {es : List Nat} (hfmt : sd.fmt = dd.fmt)
    (hsize : elemBits dd.fmt / 8 ≤ 8)
    (hoc : y.oc = putBytes m (elemBytes (fun e => (dd.place drep e).1) (elemBits dd.fmt / 8) (es.map fun e => (e, x.walkBits sd srep e))))
    (hapart : ∀ e ∈ es, ∀ g ∈ es, e ≠ g → Apart (fun e => (dd.place drep e).1) (elemBits dd.fmt / 8) e g) {e : Nat} (he : e ∈ es) :
    y.ocBytes (dd.place drep e).1 (elemBits dd.fmt / 8) = x.ocBytes (sd.place srep e).1 (elemBits dd.fmt / 8) := by
  refine (ocBytes_elemBytes_same hoc hsize (List.mem_map_of_mem he) fun o ho => ?_).trans ?_
  · obtain ⟨g, hg, rfl⟩ := List.mem_map.mp ho
    exact (eq_or_ne g e).imp (fun h => by rw [h]) fun h => hapart e he g hg h.symm
  · have hbytes := leBytes_ofLe (x.ocBytes (sd.place srep e).1 (elemBits dd.fmt / 8))
    rw [length_ocBytes] at hbytes
    rw [Core.walkBits, hfmt, hbytes]

section
variable {k i : Nat} {s : State} (hbad : (s.core k).ocBad = []) (harm : s.armed.get [] (unitOfKey k) = [])
include hbad harm

/-- The writes of a granule to the operand cache, by a unit in whose rows and spans no other has written (R148). -/
theorem streamStore_oc (hhit : ((s.core k).unit i).hit = []) {p : MemPort} {ws : List Put} {bs : List OcByte} (hws : OcOnly ws bs) :
    Ends (streamStore k i p ws) s fun _ t => Granuled k i ((s.core k).unit i) (putBytes (s.core k).oc bs) s t := by
  refine Ends.bind (P := fun _ t => t = s) ((Ends.collect (I := fun t => t = s)
    (fun w => match w with
      | .oc bs => bs.map fun b => ((k + 1) * 2 ^ 64 + b.1, b.2.1)
      | .mem _ _ _ => []) rfl fun w hw t ht => ?_).mono fun _ _ h => h.2) fun new t ht => ?_
  · obtain ⟨b, rfl⟩ := hws.1 w hw
    exact .of_run rfl ⟨rfl, ht⟩
  subst ht
  refine .bind_run (a := t.core k) rfl ?_
  dsimp only
  rw [hhit]
  refine .bind_run (run_forEach_pass fun b hb => absurd (List.mem_filter.mp hb).2 (by simp)) ?_
  refine (putAll_oc hws (by simp [harm]) hbad p).bind fun _ u ⟨hu, hcore⟩ => ?_
  have hmoved : Granuled k i ((t.core k).unit i) (putBytes (t.core k).oc bs) t u := by
    refine ⟨by rw [hu], by rw [hcore], by rw [hcore], ((t.core k).unit i).span, ((t.core k).unit i).hit, ?_⟩
    rw [hcore]
    rfl
  refine .bind_run (a := ()) rfl (.of_run (a := ()) rfl ?_)
  obtain ⟨hdram, hrr, hoc, span, hit, hunit⟩ := hmoved.hits u.cores (new.flatten.map (·.1 / 64)).dedup
  refine ⟨hdram, ?_, ?_, ?_⟩
  · rw [State.core_updCore_same]
    exact hrr
  · rw [State.core_updCore_same]
    exact hoc
  · rw [State.core_updCore_same, Core.unit_setUnit_same, hunit]
    exact ⟨_, _, rfl⟩

/-- A unit that has paid for its granule outside the tiles (R149). -/
def StreamUnit.charged (u : StreamUnit) (need : Nat) : StreamUnit := { u with credits := u.credits - need, paid := u.paid + need }

/-- A granule from the operand cache to the operand cache, between descriptors of one format without scales, moves the bytes of its
elements (R143, R144). -/
theorem granuleBody_oc {x : Core} {u : StreamUnit} {sd dd : Desc} (hx : s.core k = x) (hu : x.unit i = u) (hsd : Desc.of u.src = sd)
    (hdd : Desc.of u.dst = dd) (hsrc : sd.space = 1) (hdst : dd.space = 1) (hfmt : sd.fmt = dd.fmt) (hplain : dd.scaled = false)
    (hhit : u.hit = []) :
    Ends (granuleBody k i) s fun _ t => t.dram = s.dram ∧ (t.core k).rr = x.rr
      ∧ (t.core k).oc = putBytes x.oc (elemBytes (fun e => (dd.place (u.iter * dd.repstep) e).1) (elemBits dd.fmt / 8)
          (u.granule.map fun e => (e, x.walkBits sd (u.iter * sd.repstep) e)))
      ∧ ((t.core k).unit i).ctl = u.ctl ∧ ((t.core k).unit i).credits = u.credits - x.creditNeed u
      ∧ ((t.core k).unit i).index = (if dd.count ≤ u.index + u.granule.length then 0 else u.index + u.granule.length)
      ∧ ((t.core k).unit i).iter ≤ u.iter + 1 := by
  have htile : u.toTile = false := by rw [StreamUnit.toTile, hdd, hdst]; rfl
  have hsplain : sd.scaled = false := by rw [Desc.scaled, hfmt]; exact hplain
  generalize hv : u.charged (x.creditNeed u) = v
  generalize hpaid : (s.updCore k fun y => y.setUnit i v) = paid
  have hcore : paid.core k = x.setUnit i v := by rw [← hpaid, State.core_updCore_same, hx]
  have hunit : (paid.core k).unit i = v := by rw [hcore]; exact Core.unit_setUnit_same ..
  have hpaidBad : (paid.core k).ocBad = [] := by rw [hcore, ← hx]; exact hbad
  have hpaidArm : paid.armed.get [] (unitOfKey k) = [] := by rw [← hpaid]; exact harm
  rw [granuleBody]
  refine .bind_run (a := s.core k) rfl ?_
  simp only [hx, hu, hsd, hdd, htile, Bool.false_eq_true, if_false]
  refine .bind_run (a := ()) (t := paid) (by rw [← hpaid, ← hv]; rfl) ?_
  refine .bind_run (run_forEach_pass fun e _ => ?_) ?_
  · simp only [Desc.check, hsrc, hdst]
    rfl
  refine (Ends.collect (I := fun t => t = paid) (fun e => (x.walkBits sd (u.iter * sd.repstep) e, 127)) rfl fun e _ t ht => ?_).bind
    fun xs t ⟨hxs, ht⟩ => ?_
  · subst ht
    refine .of_run (readElem_oc hsplain _ e hsrc hpaidBad) ⟨?_, rfl⟩
    rw [hcore]
    rfl
  subst ht hxs
  rw [streamPuts_copy hfmt hdst hplain]
  refine (streamStore_oc hpaidBad hpaidArm (by rw [hunit, ← hv]; exact hhit) (OcOnly.map ..)).bind
    fun _ t' ⟨hdram, hrr, hoc, span, hit, hmoved⟩ => .of_run (a := ()) rfl ?_
  have hdst' : Desc.of ((t'.core k).unit i).dst = dd := by rw [hmoved, hunit, ← hv]; exact hdd
  obtain ⟨moved, fill, hadvance⟩ := advanceUnit_outside (x := t'.core k) (i := i) (by rw [hdst', hdst]) u.granule.length
    (streamPuts sd dd (u.iter * dd.repstep) u.granule (u.granule.map fun e => (x.walkBits sd (u.iter * sd.repstep) e, 127))).2
  refine ⟨(State.updCore_dram ..).trans (hdram.trans (by rw [← hpaid, State.updCore_dram])), ?_⟩
  rw [State.core_updCore_same, hadvance, Core.unit_setUnit_same, hdst', hmoved, hunit, ← hv]
  refine ⟨hrr.trans (by rw [hcore]; rfl), hoc.trans ?_, rfl, rfl, rfl, ?_⟩
  · rw [hcore, elemBytes, List.flatMap_map]
    rfl
  · show (if dd.count ≤ u.index + u.granule.length then u.iter + 1 else u.iter) ≤ u.iter + 1
    split <;> omega

end

end Sys2Proof.Machine
end

section
open Sys2Proof Sys2Proof.Machine Sys2Proof.Claims

/-- Settles O35: the granule that the port grants runs from the state whose pointer has moved on; one between FP32 elements of the
operand cache reads all its elements and then writes their bytes. -/
theorem streamGranuleIsGranted : Obligations.StreamGranuleIsGranted := by
  unfold Obligations.StreamGranuleIsGranted
  dsimp only
  refine ⟨fun s u c i hk hpower hrun hfirst hdue hwrite hbody hleft => ?_, fun s c i hk hpower hrun hfirst hdue hsrc hdst hsfmt hdfmt hhit hleft hbad harm hapart => ?_⟩
  · refine execStreamGranule_next hk hpower hrun hfirst (runGranule_moved ?_ ?_ hbody hleft)
    · rw [State.core_updCore_same]
      exact hdue
    · rw [State.core_updCore_same]
      exact hwrite
  · have hcore : (s.updCore (coreKey c) (Core.granted i)).core (coreKey c) = (s.core (coreKey c)).granted i := State.core_updCore_same ..
    have hplain : (Desc.of ((s.core (coreKey c)).unit i).dst).scaled = false := by rw [Desc.scaled, hdfmt]; rfl
    have hwrite : ((s.core (coreKey c)).granted i).cannotWrite (((s.core (coreKey c)).granted i).unit i) = false := by
      show (_ == 2 && _ || _ == 3 && _) = false
      rw [show (Desc.of (((s.core (coreKey c)).granted i).unit i).dst).space = 1 from hdst]
      rfl
    obtain ⟨_, t, hbody, hdram, hrr, hoc, hctl, hcredits, hindex, hiter⟩ :=
      granuleBody_oc (s := s.updCore (coreKey c) (Core.granted i)) (by rw [hcore]; exact hbad) harm hcore rfl rfl rfl hsrc hdst (hsfmt.trans hdfmt.symm) hplain hhit
    refine ⟨t, execStreamGranule_next hk hpower hrun hfirst (runGranule_moved ?_ ?_ hbody ?_), hrr, fun e he => ?_, hcredits, hindex, hdram⟩
    · rw [hcore]
      exact hdue
    · rw [hcore]
      exact hwrite
    · rw [hctl]
      exact Nat.lt_of_le_of_lt hiter hleft
    · have hsize : elemBits (Desc.of ((s.core (coreKey c)).unit i).dst).fmt / 8 = 4 := congrArg (elemBits · / 8) hdfmt
      have hmoved := ocBytes_moved (hsfmt.trans hdfmt.symm) (hsize.trans_le (by decide)) hoc
        (fun e he g hg hne p hp q hq => hapart e he g hg p (hsize ▸ hp) q (hsize ▸ hq) hne) he
      rw [hsize] at hmoved
      exact hmoved
end

section
/-! SUPPORT. TLD and TST on a core with no open group and nothing accepted: their completion from that of their rows (R179 to R181). -/

namespace Sys2Proof.Machine
open Sys2Proof Sys2Proof.Claims

/-- Nothing is accepted on a core, and no gather group is open there. -/
structure Core.Idle (x : Core) : Prop where
  bg : x.bg = []
  gather0 : x.gather0 = none
  gather1 : x.gather1 = none

namespace Core.Idle
variable {x : Core} (h : x.Idle)
include h

theorem group (arr : Nat) : x.group arr = none := by
  rw [Core.group]
  split_ifs
  · exact h.gather0
  · exact h.gather1

theorem groupNames (arr code : Nat) : x.groupNames arr code = false := by rw [Core.groupNames, h.group]
theorem gathering (code : Nat) : x.gathering code = false := by simp [Core.gathering, h.groupNames]
theorem runGroupOf (code : Nat) : x.runGroupOf code = x := by simp [Core.runGroupOf, h.groupNames]
theorem tileBusy (code : Nat) : x.tileBusy code = false := by simp [Core.tileBusy, h.bg, h.gather0, h.gather1]
theorem willWrite (code : Nat) : x.willWrite code = false := by simp [Core.willWrite, Core.tileWriting, h.bg, h.gathering]
theorem meetsTmov (d : Desc) (n : Nat) : d.meetsTmov x n = false := by simp [Desc.meetsTmov, h.bg]

end Core.Idle

/-- A TLD's tile before its first row (R164, R179). -/
def Core.loadingTile (code fmt : Nat) (x : Core) : Core :=
  x.updTile code fun t => { t with st := 1, writer := 8, fmt := fmt, data := [], scale := [] }

/-- What a TLD's end leaves: its tile FULL, its position and its record of a stop cleared (R179, R190). -/
def Core.loadedTile (pc : W64) (code fmt : Nat) (x : Core) : Core :=
  { (x.updTile code fun t => { t with st := 2, writer := 8, fmt := fmt, poison := false }).setSr tposNo 0 with
    tldStops := x.tldStops.set 0 (tldKey pc code) 0 }

theorem needTile_pass {code : Nat} (h : code < 40) (w : Nat) (s : State) : (needTile w code).run s = .ok () s :=
  illegalIf_pass (decide_eq_false (not_le.mpr h)) w s

section
variable {s u : State} {c : CoreId} {tile : BitVec 6} {dn : BitVec 4} {tfmt : BitVec 5} {d : Desc}
  (hr : s.ready c = true) (hk : isCompute (coreKey c) = true) (htile : tile.toNat < 40)
  (hpos : ((s.core (coreKey c)).sr tposNo).getLsbD 63 = false) (hidle : (s.core (coreKey c)).Idle)
  (hd : (s.core (coreKey c)).descOf dn.toNat = d)
include hr hk htile hpos hidle hd

/-- A TLD that starts anew completes when its rows do (R179). -/
theorem execTld_next {start : State}
    (hchecks : (tileChecks (coreKey c) (instrWord (.tld c tile dn tfmt none)) tile.toNat tfmt.toNat d false).run s = .ok false s)
    (hrows : 0 < (s.core (coreKey c)).rowsOf tile.toNat)
    (hstart : start = (s.updCore (coreKey c) fun y => y.runGroupOf tile.toNat).updCore (coreKey c) (Core.loadingTile tile.toNat tfmt.toNat))
    (hloop : (rowLoop (coreKey c) (s.core (coreKey c)).pc (tldRow (coreKey c) tile.toNat tfmt.toNat d) (fun _ => tldStop (coreKey c) tile.toNat)
      ((s.core (coreKey c)).rowsOf tile.toNat) 0 none).run start = .ok () u) :
    exec (.tld c tile dn tfmt none) s
      = .next ((u.updCore (coreKey c) (Core.loadedTile (s.core (coreKey c)).pc tile.toNat tfmt.toNat)).retire (coreKey c) (pcOf s c)) := by
  subst hstart
  refine runInstr_next (t := u.updCore (coreKey c) (Core.loadedTile (s.core (coreKey c)).pc tile.toNat tfmt.toNat)) hr rfl ?_
  rw [run_bind_ok (needCompute_here hk _ s), run_bind_ok (needTile_pass htile _ s), run_getC_bind,
    run_bind_ok (posStart_zero hpos)]
  dsimp only
  rw [hpos, Bool.false_and, if_neg Bool.false_ne_true, hd, run_bind_ok hchecks, if_neg Bool.false_ne_true, run_modC_bind, run_getC_bind,
    State.core_updCore_same, hidle.runGroupOf, hidle.tileBusy, hidle.gathering, hidle.meetsTmov]
  rw [Bool.or_self, Bool.or_self, if_neg Bool.false_ne_true, if_pos hrows, run_modC_bind, Nat.sub_zero]
  exact (run_bind_ok hloop).trans rfl

/-- A TST that starts anew completes when its rows do (R180). -/
theorem execTst_next {fmt : Nat} (hw : isW tile.toNat = false)
    (hfmt : (if isZ tile.toNat then 0 else ((s.core (coreKey c)).tile tile.toNat).fmt) = fmt)
    (hchecks : (tileChecks (coreKey c) (instrWord (.tst c tile dn none)) tile.toNat fmt d true).run s = .ok false s)
    (hloop : (rowLoop (coreKey c) (s.core (coreKey c)).pc (tstRow (coreKey c) tile.toNat fmt ((s.core (coreKey c)).zHolds tile.toNat) d)
      (tstStop (coreKey c) tile.toNat fmt ((s.core (coreKey c)).zHolds tile.toNat) d)
      ((s.core (coreKey c)).rowsOf tile.toNat) 0 none).run s = .ok () u) :
    exec (.tst c tile dn none) s = .next ((u.updCore (coreKey c) fun y => y.setSr tposNo 0).retire (coreKey c) (pcOf s c)) := by
  subst hfmt
  refine runInstr_next hr rfl ?_
  rw [run_bind_ok (needCompute_here hk _ s), run_bind_ok (needTile_pass htile _ s), run_getC_bind, run_bind_ok (posStart_zero hpos),
    run_bind_ok (illegalIf_pass hw _ s)]
  dsimp only
  rw [hd, run_bind_ok hchecks, if_neg Bool.false_ne_true, run_getC_bind, hidle.willWrite, hidle.meetsTmov]
  rw [Bool.or_self, if_neg Bool.false_ne_true, Nat.sub_zero, run_bind_ok hloop]
  rfl

end

end Sys2Proof.Machine
end

section
/-! SUPPORT. Actions in order: the rows of a TLD or TST, and a range of actions (R179, R190). -/

namespace Sys2Proof.Machine
open Sys2Proof Sys2Proof.Claims

theorem Ends.tryCatch {α : Type} {m : M α} {s : State} {Q : α → State → Prop} (h : Ends m s Q) (f : Err → M α) :
    Ends (tryCatch m f) s Q := by
  obtain ⟨a, t, hrun, hQ⟩ := h
  refine ⟨a, t, ?_, hQ⟩
  simp only [EStateM.run] at hrun
  simp only [MonadExcept.tryCatch, tryCatchThe, MonadExceptOf.tryCatch, EStateM.tryCatch, EStateM.run, hrun]

/-- Rows that each end well and leave no machine check run to the last. -/
theorem rowLoop_ends {k f r : Nat} {pc : W64} {row onStop : Nat → M Unit} {s : State} {I : Nat → State → Prop} (hs : I r s)
    (hmchk : ∀ i t, I i t → (t.core k).mchk = []) (hrow : ∀ i < r + f, ∀ t, I i t → Ends (row i) t fun _ u => I (i + 1) u) :
    Ends (rowLoop k pc row onStop f r none) s fun _ u => I (r + f) u := by
  induction f generalizing r s with
  | zero => exact .of_run rfl hs
  | succ f ih =>
    rw [rowLoop]
    refine .bind_run (a := s.core k) rfl ?_
    rw [if_neg (by simp [hmchk r s hs])]
    refine ((hrow r (by omega) s hs).tryCatch _).bind fun _ t ht => ?_
    rw [show r + (f + 1) = r + 1 + f by omega] at hrow ⊢
    exact ih ht hrow

/-- A range of actions, each of which carries an invariant on. -/
theorem Ends.forEach_range {I : Nat → State → Prop} {g : Nat → M Unit} {m n : Nat} {s : State} (hs : I m s)
    (hg : ∀ i < m + n, ∀ t, I i t → Ends (g i) t fun _ u => I (i + 1) u) :
    Ends (Machine.forEach (rangeFrom m n) g) s fun _ u => I (m + n) u := by
  induction n generalizing m s with
  | zero => exact .of_run rfl hs
  | succ n ih =>
    have hcons : rangeFrom m (n + 1) = m :: rangeFrom (m + 1) n := by
      simp [rangeFrom, List.range_succ_eq_map, Nat.add_assoc, Nat.add_comm 1]
    rw [hcons]
    refine (hg m (by omega) s hs).bind fun _ t ht => ?_
    rw [show m + (n + 1) = m + 1 + n by omega] at hg ⊢
    exact ih ht hg

theorem forEach_map {α β : Type} (l : List α) (f : α → β) (g : β → M Unit) : forEach (l.map f) g = forEach l fun a => g (f a) := by
  induction l with
  | nil => rfl
  | cons a l ih => simp only [List.map_cons, forEach, ih]

end Sys2Proof.Machine
end

section
/-! SUPPORT. A core whose accesses to the operand cache and to lines of its L1 meet no error, and what they leave there (R95, R104, R265). -/

namespace Sys2Proof.Machine
open Sys2Proof Sys2Proof.Claims

/-- What the accesses of core k leave as it was: everything outside the cores, and of core k what decides where its next ones go. -/
structure Steady (k : Nat) (s t : State) : Prop where
  rest : t = { s with cores := t.cores }
  level : (t.core k).level = (s.core k).level
  matp : (t.core k).sr matpNo = (s.core k).sr matpNo
  ocBad : (t.core k).ocBad = (s.core k).ocBad
  mchk : (t.core k).mchk = (s.core k).mchk
  place : ∀ key, ((t.core k).l1Line key).valid = ((s.core k).l1Line key).valid ∧ ((t.core k).l1Line key).line = ((s.core k).l1Line key).line
  sound : ∀ key, ((t.core k).l1Line key).err = ((s.core k).l1Line key).err ∧ ((t.core k).l1Line key).poison = ((s.core k).l1Line key).poison

namespace Steady
variable {k : Nat} {s t u : State}

theorem refl (k : Nat) (s : State) : Steady k s s := ⟨rfl, rfl, rfl, rfl, rfl, fun _ => ⟨rfl, rfl⟩, fun _ => ⟨rfl, rfl⟩⟩

theorem trans (h : Steady k s t) (h' : Steady k t u) : Steady k s u where
  rest := by rw [h'.rest, h.rest]
  level := h'.level.trans h.level
  matp := h'.matp.trans h.matp
  ocBad := h'.ocBad.trans h.ocBad
  mchk := h'.mchk.trans h.mchk
  place key := ⟨(h'.place key).1.trans (h.place key).1, (h'.place key).2.trans (h.place key).2⟩
  sound key := ⟨(h'.sound key).1.trans (h.sound key).1, (h'.sound key).2.trans (h.sound key).2⟩

theorem of_seen (h : Seen k s t) : Steady k s t := by
  have hmatp := h.sr matpNo
  obtain ⟨hst, hcore, hline⟩ := h
  refine ⟨hst, by rw [hcore], hmatp, by rw [hcore], by rw [hcore], fun key => ?_, fun key => ?_⟩
  all_goals
    obtain ⟨v, hv⟩ := hline key
    rw [hv]
    exact ⟨rfl, rfl⟩

/-- A change of core k's tiles and flags. -/
theorem updCore {g : Core → Core} (hlevel : (g (t.core k)).level = (t.core k).level) (hmatp : (g (t.core k)).sr matpNo = (t.core k).sr matpNo)
    (hbad : (g (t.core k)).ocBad = (t.core k).ocBad) (hmchk : (g (t.core k)).mchk = (t.core k).mchk)
    (hl1 : (g (t.core k)).l1 = (t.core k).l1) : Steady k t (t.updCore k g) := by
  have hline : ∀ key, (g (t.core k)).l1Line key = (t.core k).l1Line key := fun key => by rw [Core.l1Line, hl1]; rfl
  refine ⟨rfl, ?_, ?_, ?_, ?_, fun key => ?_, fun key => ?_⟩ <;> rw [State.core_updCore_same]
  · exact hlevel
  · exact hmatp
  · exact hbad
  · exact hmchk
  · rw [hline]; exact ⟨rfl, rfl⟩
  · rw [hline]; exact ⟨rfl, rfl⟩

section
variable (h : Steady k s t)
include h

theorem armed : t.armed = s.armed := by rw [h.rest]
theorem dram : t.dram = s.dram := by rw [h.rest]
theorem l1Find (line : Nat) : (t.core k).l1Find line = (s.core k).l1Find line := l1Find_congr h.place line

theorem l1Hit {va : W64} {key : Nat} (hit : Claims.l1Hit s k va key) : Claims.l1Hit t k va key := by
  obtain ⟨hlevel, hmatp, hlow, ⟨d, hregion⟩, hfind, herr, hpoison⟩ := hit
  refine ⟨h.level.trans hlevel, ?_, hlow, ⟨d, ?_⟩, (h.l1Find _).trans hfind, (h.sound key).1.trans herr, (h.sound key).2.trans hpoison⟩
  · rw [h.matp]
    exact hmatp
  · rw [h.rest]
    exact hregion

theorem placeReady {d : Desc} {e : Nat} (hready : Claims.placeReady s k d e) : Claims.placeReady t k d e :=
  hready.imp_right fun ⟨key, hit, hfit⟩ => ⟨key, h.l1Hit hit, hfit⟩

end

end Steady

/-- A found line stands at its key. -/
theorem l1Find_line {x : Core} {line key : Nat} (h : x.l1Find line = some key) : (x.l1Line key).line = line := by
  have hkey := List.find?_some h
  simp only [Bool.and_eq_true, beq_iff_eq] at hkey
  exact hkey.2

/-- A store of n bytes at va that core k's L1 takes: its bytes, and no others. -/
structure SpanStored (k : Nat) (va : W64) (n v : Nat) (s t : State) : Prop where
  steady : Steady k s t
  oc : (t.core k).oc = (s.core k).oc
  tiles : (t.core k).tiles = (s.core k).tiles
  put : ∀ key, (s.core k).l1Find (va.toNat / 128) = some key → lineGet ((t.core k).l1Line key).data (va.toNat % 128) n = v % 2 ^ (8 * n)
  kept : ∀ line key off m, (s.core k).l1Find line = some key → 0 < m → off + m ≤ 128 →
    (line = va.toNat / 128 → off + m ≤ va.toNat % 128 ∨ va.toNat % 128 + n ≤ off) →
    lineGet ((t.core k).l1Line key).data off m = lineGet ((s.core k).l1Line key).data off m

section
variable {s : State} {k key : Nat} {va : W64} (h : l1Hit s k va key) (harm : s.armed.get [] (unitOfKey k) = [])
include h harm

/-- A write of bytes of a line leaves the other lines. -/
theorem l1Write_other (vline : Nat) (data : LineData) (mask : LineMask) {j : Nat} (hj : j ≠ key) :
    ((s.l1Write k vline (va.toNat / 128) data mask).2.core k).l1Line j = (s.core k).l1Line j := by
  have hpresent := l1Present_hit h
  simp only [State.l1Write, hpresent, freshen, if_true, armedWord_unarmed harm, State.l1Touch, State.core_updCore_same,
    Core.l1Line, Core.setL1, SMap.get_set_other _ _ hj]

/-- A store of a span of the line is one write of it (R104). -/
theorem store_run {n : Nat} (hn : va.toNat % 128 + n ≤ 128) (v : Nat) :
    ((l1Port k .m).store va n v).run s = .ok () (s.l1Write k (va.toNat / 128) (va.toNat / 128)
      (lineAt (va.toNat % 128) (v % 2 ^ (8 * n))) (spanMask (va.toNat % 128) n)).2 := by
  have huncached := uncached_hit h
  obtain ⟨t, hwrite, -⟩ := l1Write_hit h harm (va.toNat / 128) (lineAt (va.toNat % 128) (v % 2 ^ (8 * n))) (spanMask (va.toNat % 128) n)
  obtain ⟨-, -, -, ⟨d, hregion⟩, -⟩ := id h
  have hspan : (storeSpanE k true va va.toNat n (v % 2 ^ (8 * n))).run s = .ok () t := by
    rw [storeSpanE, run_get_bind]
    simp only [huncached, hregion, Bool.false_and, Bool.false_eq_true, if_false, Nat.mod_mod]
    refine (run_modifyGet_bind _ _ s).trans ?_
    rw [hwrite]
    rfl
  rw [hwrite, MemPort.store, run_bind_ok (show ((l1Port k .m).loc .store va n).run s = _ from locate_hit h hn .store), writeParts]
  exact run_bind_ok hspan

/-- A store of a span of a held line stores its bytes and keeps all others (R104). -/
theorem store_span {n : Nat} (hpos : 0 < n) (hn : va.toNat % 128 + n ≤ 128) (v : Nat) :
    Ends ((l1Port k .m).store va n v) s fun _ t => SpanStored k va n v s t := by
  obtain ⟨t, hwrite, hst, hcore, hplace, herr, hpoison, hdata⟩ :=
    l1Write_hit h harm (va.toNat / 128) (lineAt (va.toNat % 128) (v % 2 ^ (8 * n))) (spanMask (va.toNat % 128) n)
  have hother := fun j => l1Write_other h harm (va.toNat / 128) (lineAt (va.toNat % 128) (v % 2 ^ (8 * n))) (spanMask (va.toNat % 128) n) (j := j)
  have hrun := store_run h harm hn v
  rw [hwrite] at hrun hother
  obtain ⟨herr', hpoison'⟩ := l1Hit_clean h
  have hfind := l1Hit_find h
  refine .of_run hrun ⟨⟨hst, by rw [hcore], by rw [hcore]; rfl, by rw [hcore], by rw [hcore], hplace, fun j => ?_⟩, by rw [hcore], by rw [hcore],
    fun j hj => ?_, fun line j off m hj hm hoff hdisjoint => ?_⟩
  · by_cases hj : j = key
    · rw [hj, herr, hpoison, herr', hpoison']
      exact ⟨rfl, rfl⟩
    · rw [hother j hj]
      exact ⟨rfl, rfl⟩
  · rw [Option.some.inj (hj.symm.trans hfind), hdata]
    exact lineGet_merge_same hpos hn
  · by_cases hkey : j = key
    · have hline : line = va.toNat / 128 := by
        rw [← l1Find_line hj, ← l1Find_line hfind, hkey]
      rw [hkey, hdata]
      exact lineGet_merge_other hm hoff (hdisjoint hline)
    · rw [hother j hkey]

end

end Sys2Proof.Machine
end

section
/-! SUPPORT. Plain elements through a descriptor, in the operand cache or in lines of L1: their checks and reads (R90, R125, R132). -/

namespace Sys2Proof.Machine
open Sys2Proof Sys2Proof.Claims

/-- Steady accesses that change no byte of the operand cache or of a line. -/
structure Unwritten (k : Nat) (s t : State) : Prop extends Steady k s t where
  oc : (t.core k).oc = (s.core k).oc
  data : ∀ key, ((t.core k).l1Line key).data = ((s.core k).l1Line key).data

namespace Unwritten
variable {k : Nat} {s t u : State}

theorem refl (k : Nat) (s : State) : Unwritten k s s := ⟨.refl k s, rfl, fun _ => rfl⟩

theorem trans (h : Unwritten k s t) (h' : Unwritten k t u) : Unwritten k s u :=
  ⟨h.toSteady.trans h'.toSteady, h'.oc.trans h.oc, fun key => (h'.data key).trans (h.data key)⟩

theorem of_seen (h : Seen k s t) : Unwritten k s t := by
  have hsteady := Steady.of_seen h
  obtain ⟨-, hcore, hline⟩ := h
  refine ⟨hsteady, by rw [hcore], fun key => ?_⟩
  obtain ⟨v, hv⟩ := hline key
  rw [hv]

theorem l1Byte (h : Unwritten k s t) (a : Nat) : Claims.l1Byte t k a = Claims.l1Byte s k a := by
  simp only [Claims.l1Byte, h.l1Find, h.data]

theorem placeBits (h : Unwritten k s t) (d : Desc) (e : Nat) : Claims.placeBits (t.core k) d e = Claims.placeBits (s.core k) d e := by
  simp only [Claims.placeBits, Core.ocBytes, h.oc, h.l1Find, h.data]

end Unwritten

theorem toNat_w64 {a : Nat} (h : a < 2 ^ 46) : (w64 a).toNat = a := by
  rw [w64, BitVec.toNat_ofNat]
  omega

/-- A place in memory whose access meets no error: its line is held, and it lies within the line. -/
theorem placeReady_memory {s : State} {k : Nat} {d : Desc} {e : Nat} (hspace : d.space ≠ 1) (h : placeReady s k d e) :
    ∃ key, l1Hit s k (w64 (d.place 0 e).1) key ∧ (w64 (d.place 0 e).1).toNat = (d.place 0 e).1
      ∧ (d.place 0 e).1 % 128 + elemBits d.fmt / 8 ≤ 128 := by
  obtain ⟨key, hit, hlow, hfit⟩ := h.resolve_left hspace
  exact ⟨key, hit, toNat_w64 hlow, hfit⟩

theorem placeBits_memory {x : Core} {d : Desc} {e key : Nat} (hspace : d.space ≠ 1) (hfind : x.l1Find ((d.place 0 e).1 / 128) = some key) :
    placeBits x d e = lineGet (x.l1Line key).data ((d.place 0 e).1 % 128) (elemBits d.fmt / 8) := by
  rw [placeBits, if_neg hspace, hfind]
  rfl

section
variable {s : State} {k : Nat} {d : Desc} (hplain : d.scaled = false)
include hplain

/-- The bits at a place fill an element. -/
theorem placeBits_lt (x : Core) (e : Nat) : placeBits x d e < 2 ^ elemBits d.fmt := by
  obtain ⟨hbits, hle⟩ := elemBits_unscaled (fmt := d.fmt) hplain
  have hpos : 0 < bytesOf d.fmt := by show 0 < elemBits d.fmt / 8; omega
  rw [placeBits, ← hbits]
  split_ifs
  · exact ocBytes_lt ..
  · exact lineGet_lt _ hpos

/-- The check of elements finds nothing to fault (R90, R125). -/
theorem check_place {acc : Acc} (hacc : acc = .load ∨ acc = .store) {es : List Nat} (harm : s.armed.get [] (unitOfKey k) = [])
    (hready : ∀ e ∈ es, placeReady s k d e) : (d.check (l1Port k (s.core k).level) 0 acc es).run s = .ok () s := by
  rw [Desc.check, hplain]
  by_cases hspace : d.space = 0
  · rw [if_pos hspace]
    refine run_forEach_pass fun e he => ?_
    obtain ⟨key, hit, haddr, hfit⟩ := placeReady_memory (by omega) (hready e he)
    rw [span_unscaled hplain, l1Hit_level hit]
    exact run_bind_ok (see_hit hit harm (by rwa [haddr]) hacc)
  · rw [if_neg hspace]
    rfl

/-- An element is the bits at its place (R132). -/
theorem readElem_place {e : Nat} (hready : placeReady s k d e) (hbad : (s.core k).ocBad = []) :
    Ends (d.readElem k (l1Port k (s.core k).level) 0 e) s fun b t =>
      b = (placeBits (s.core k) d e, 127) ∧ Unwritten k s t ∧ (t.core k).tiles = (s.core k).tiles := by
  by_cases hspace : d.space = 1
  · refine .of_run (readElem_oc hplain 0 e hspace hbad) ⟨?_, .refl k s, rfl⟩
    rw [placeBits, Core.walkBits]
    exact congrArg (·, 127) (if_pos hspace).symm
  · obtain ⟨key, hit, haddr, hfit⟩ := placeReady_memory hspace hready
    have hfind := l1Hit_find hit
    rw [haddr] at hfind
    rw [l1Hit_level hit]
    have hseen := seen_l1Touch hit
    have htiles : ((s.l1Touch k key).core k).tiles = (s.core k).tiles := by
      obtain ⟨-, hcore, -⟩ := hseen
      rw [hcore]
    refine .of_run (readElem_bytes hplain 0 e (placeBits_lt hplain _ e) ?_) ⟨rfl, .of_seen hseen, htiles⟩
    have hload := load_hit hit (n := elemBits d.fmt / 8) (by rwa [haddr])
    rw [haddr] at hload
    rw [if_neg hspace, placeBits_memory hspace hfind]
    exact hload

end

end Sys2Proof.Machine
end

section
/-! SUPPORT. The checks that TLD and TST begin with, where they pass (R179, R180). -/

namespace Sys2Proof.Machine
open Sys2Proof Sys2Proof.Claims

/-- A tile, its format and a plain descriptor of as many elements pass the checks; a source holds data or is a Z tile without (R179, R180). -/
theorem tileChecks_pass {s : State} {k word code fmt : Nat} {d : Desc} {src : Bool} (hmal : d.malformed = false) (hspace : d.space ≤ 1)
    (hplain : d.scaled = false) (haligned : d.misaligned = none) (hpos : 0 < d.count) (hfmt : fmt < 7)
    (hdst : src = false → (isZ code = true → fmt = 0) ∧ (isW code = true → fmt ≠ 0 ∧ fmt ≠ 5))
    (hsrc : src = true → ((s.core k).tile code).st = 2 ∨ isZ code = true ∧ (((s.core k).tile code).st = 0 ∨ ((s.core k).tile code).st = 4))
    (hcount : d.count = (s.core k).rowsOf code * rowElems code fmt) : (tileChecks k word code fmt d src).run s = .ok false s := by
  have hrows : (s.core k).rowsOf code ≠ 0 := fun h => by rw [hcount, h, Nat.zero_mul] at hpos; exact absurd hpos (lt_irrefl 0)
  have hblock : blockScaled fmt = false := decide_eq_false (by omega)
  have hword : (!src && ((isZ code && fmt != 0) || (isW code && (fmt == 0 || fmt == 5)) || decide (13 ≤ fmt))) = false := by
    cases src
    · obtain ⟨hz, hw⟩ := hdst rfl
      have hZ : (isZ code && fmt != 0) = false := by
        cases h : isZ code with
        | false => rfl
        | true => rw [hz h]; rfl
      have hW : (isW code && (fmt == 0 || fmt == 5)) = false := by
        cases h : isW code with
        | false => rfl
        | true => simpa using hw h
      rw [hZ, hW, decide_eq_false (by omega)]
      rfl
    · rfl
  have hstate : src = true → (!(((s.core k).tile code).st == 2
      || (isZ code && (((s.core k).tile code).st == 0 || ((s.core k).tile code).st == 4)))) = false := fun h => by
    simp only [Bool.not_eq_false', Bool.or_eq_true, Bool.and_eq_true, beq_iff_eq]
    exact hsrc h
  rw [tileChecks, run_getC_bind, run_bind_ok (illegalIf_pass (by rw [hmal, Bool.false_or]; exact decide_eq_false (by omega)) _ s),
    if_neg hpos.ne', run_bind_ok (illegalIf_pass (by rw [hplain, hblock]; rfl) _ s), run_bind_ok (illegalIf_pass hword _ s)]
  rw [if_neg hrows]
  have hend : (illegalIf word (d.count != (s.core k).rowsOf code * rowElems code fmt)).run s = .ok () s :=
    illegalIf_pass (by rw [← hcount, bne_self_eq_false]) _ s
  cases src
  · rw [if_neg Bool.false_ne_true, run_bind_ok hend, haligned]
    rfl
  · rw [if_pos rfl]
    dsimp only
    rw [hstate rfl, if_neg Bool.false_ne_true, run_bind_ok hend, haligned]
    rfl

end Sys2Proof.Machine
end

section
/-! SUPPORT. The rows of a tile: what a row that is written holds, and the elements packed into it (R161, R162, R197). -/

namespace Sys2Proof.Machine
open Sys2Proof Sys2Proof.Claims

theorem get_writeBytes_at {m : SMap Byte} {a i : Nat} {bs : List Byte} (hi : i < bs.length) :
    SMap.get 0 (writeBytes m a bs) (a + i) = bs[i] := by
  induction bs generalizing m a i with
  | nil => exact absurd hi (Nat.not_lt_zero i)
  | cons b bs ih =>
    rw [writeBytes]
    cases i with
    | zero => rw [writeBytes_other (.inl (by omega))]; exact SMap.get_set_same ..
    | succ i =>
      rw [show a + (i + 1) = a + 1 + i by omega]
      exact ih (Nat.lt_of_succ_lt_succ hi)

theorem readBytes_writeBytes_same (m : SMap Byte) (a : Nat) (bs : List Byte) : readBytes (writeBytes m a bs) a bs.length = bs := by
  refine List.ext_getElem (by simp [readBytes, rangeFrom]) fun i _ hi => ?_
  simp only [readBytes, rangeFrom, List.getElem_map, List.getElem_range]
  exact get_writeBytes_at hi

theorem readBytes_writeBytes_other {m : SMap Byte} {a b n : Nat} {bs : List Byte} (h : b + n ≤ a ∨ a + bs.length ≤ b) :
    readBytes (writeBytes m a bs) b n = readBytes m b n := by
  refine List.map_congr_left fun i hi => writeBytes_other ?_
  obtain ⟨j, hj, rfl⟩ := List.mem_map.mp hi
  have := List.mem_range.mp hj
  omega

theorem length_leBytes (n v : Nat) : (leBytes n v).length = n := by simp [leBytes_eq_map]

/-- Rows of a tile do not overlap (R162). -/
theorem rowBytes_apart (code : Nat) {q r : Nat} (h : q ≠ r) :
    rowBytes code * q + rowBytes code ≤ rowBytes code * r ∨ rowBytes code * r + rowBytes code ≤ rowBytes code * q := by
  rcases Nat.lt_or_gt_of_ne h with h | h
  · exact .inl (Nat.mul_le_mul_left _ h)
  · exact .inr (Nat.mul_le_mul_left _ h)

/-- The elements of packed bits (R197). -/
theorem packBits_shiftRight (b : Nat) (vs : List Nat) (p : Nat) : (packBits b vs >>> (b * p)) % 2 ^ b = vs.getD p 0 % 2 ^ b := by
  induction vs generalizing p with
  | nil => simp [packBits]
  | cons v vs ih =>
    cases p with
    | zero => simp [packBits]
    | succ p =>
      have hlt : v % 2 ^ b < 2 ^ b := Nat.mod_lt _ (Nat.two_pow_pos b)
      have hhigh : packBits b (v :: vs) >>> b = packBits b vs := by
        rw [packBits, Nat.shiftRight_eq_div_pow, Nat.add_mul_div_left _ _ (Nat.two_pow_pos b), Nat.div_eq_of_lt hlt, Nat.zero_add]
      rw [Nat.mul_succ, Nat.add_comm, Nat.shiftRight_add, hhigh, ih]
      rfl

/-- The elements of a tile row fill no more than its bytes (R161). -/
theorem rowElems_fit {code fmt : Nat} (hcode : code < 40) (hfmt : fmt < 7) (hz : isZ code = true → fmt = 0)
    (hw : isW code = true → fmt ≠ 0 ∧ fmt ≠ 5) : rowElems code fmt * elemBits fmt ≤ 8 * rowBytes code := by
  have hT : ∀ f < 7, perRow f * elemBits f ≤ 8 * 64 := by decide
  have hW : ∀ f < 7, f ≠ 0 ∧ f ≠ 5 → 32 * elemBits f ≤ 8 * 64 := by decide
  rw [rowElems, rowBytes]
  by_cases hisz : isZ code = true
  · have hnotT : isT code = false := by
      simp only [isZ, isT, decide_eq_true_eq, decide_eq_false_iff_not] at hisz ⊢
      omega
    rw [hz hisz, hnotT, if_pos hisz]
    decide
  · rw [if_neg hisz]
    by_cases hist : isT code = true
    · rw [if_pos hist]
      exact hT fmt hfmt
    · have hisw : isW code = true := by
        simp only [isZ, isT, isW, decide_eq_true_eq] at hisz hist ⊢
        omega
      rw [if_neg hist]
      exact hW fmt hfmt (hw hisw)

/-- The tile of a core's row write with nothing armed (R193). -/
theorem tile_putRow {s : State} {k : Nat} (harm : s.armed.get [] (unitOfKey k) = []) (code r v : Nat) :
    ∃ g : Tile → Tile, s.putRow k code r v [] = s.updCore k (fun c => c.updTile code g)
      ∧ ∀ t, (g t).data = writeBytes t.data (rowBytes code * r) (leBytes (rowBytes code) v) := by
  rw [State.putRow, armedErr_unarmed harm]
  exact ⟨_, rfl, fun _ => rfl⟩

end Sys2Proof.Machine
end

section
/-! SUPPORT. The rows of a TLD (R179, R181, R200). -/

namespace Sys2Proof.Machine
open Sys2Proof Sys2Proof.Claims

section
variable {t u : Tile} {code fmt r v : Nat} (h : u.data = writeBytes t.data (rowBytes code * r) (leBytes (rowBytes code) v))
include h

/-- A row that is written holds the elements of its bits. -/
theorem elem_written {p : Nat} (hfit : elemBits fmt * p + elemBits fmt ≤ 8 * rowBytes code) :
    (u.elem code fmt r p).1 = (v >>> (elemBits fmt * p)) % 2 ^ elemBits fmt := by
  have hread := readBytes_writeBytes_same t.data (rowBytes code * r) (leBytes (rowBytes code) v)
  rw [length_leBytes, ← h] at hread
  show (ofLe (readBytes u.data (rowBytes code * r) (rowBytes code)) >>> (elemBits fmt * p)) % 2 ^ elemBits fmt = _
  rw [hread, ofLe_leBytes]
  refine Nat.eq_of_testBit_eq fun i => ?_
  simp only [Nat.testBit_mod_two_pow, Nat.testBit_shiftRight]
  by_cases hi : i < elemBits fmt
  · rw [decide_eq_true (show elemBits fmt * p + i < 8 * rowBytes code by omega), Bool.true_and]
  · rw [decide_eq_false hi, Bool.false_and, Bool.false_and]

/-- The other rows keep theirs. -/
theorem elem_unwritten {q : Nat} (hq : q ≠ r) (p : Nat) : (u.elem code fmt q p).1 = (t.elem code fmt q p).1 := by
  have hrow : u.row code q = t.row code q := by
    rw [Tile.row, h, readBytes_writeBytes_other]
    · rfl
    · rw [length_leBytes]
      exact rowBytes_apart code hq
  simp only [Tile.elem, hrow]

end

/-- Plain elements in another plain format, without the cut to its size (R181, R200). -/
def convElem (sf df b : Nat) : Nat := if sf = df then b else (encodeElem df 0 (decodeElem sf b)).1

theorem convBits_eq (sf df b : Nat) : convBits sf df b = convElem sf df b % 2 ^ elemBits df := rfl

theorem convRun_plain {sf df : Nat} (hsf : blockScaled sf = false) (hdf : blockScaled df = false) (es : List Nat) (b : Nat → Nat) :
    ∃ fl, convRun true sf df (es.map fun e => (b e, 127)) = (es.map fun e => convElem sf df (b e), [], fl) := by
  have helem : ∀ e, (if (true && decide (sf = df)) = true then (b e, (0 : Flags)) else encodeElem df 0 (valueOf sf (b e, 127))).1
      = convElem sf df (b e) := fun e => by
    rw [convElem, valueOf_unscaled hsf, Bool.true_and]
    by_cases h : sf = df
    · rw [if_pos h, if_pos (decide_eq_true h)]
    · rw [if_neg h, if_neg (by simpa using h)]
  rw [convRun, hdf]
  simp only [Bool.false_eq_true, if_false, List.map_map]
  exact ⟨_, Prod.ext (List.map_congr_left fun e _ => helem e) rfl⟩

/-- A TLD after r of its rows: they hold the elements, converted, and nothing else has changed (R179, R181). -/
structure RowsLoaded (k code fmt : Nat) (d : Desc) (r : Nat) (s t : State) : Prop extends Unwritten k s t where
  elem : ∀ q < r, ∀ p < rowElems code fmt,
    (((t.core k).tile code).elem code fmt q p).1 = convBits d.fmt fmt (placeBits (s.core k) d (q * rowElems code fmt + p))
  others : ∀ j, j ≠ code → (t.core k).tile j = (s.core k).tile j

theorem Unwritten.updTile (k : Nat) (s : State) (code : Nat) (g : Tile → Tile) : Unwritten k s (s.updCore k fun c => c.updTile code g) :=
  ⟨.updCore rfl rfl rfl rfl rfl, by rw [State.core_updCore_same]; rfl, fun key => by rw [State.core_updCore_same]; rfl⟩

/-- The flags of a conversion (R181). -/
theorem Unwritten.orVflags (k : Nat) (s : State) (fl : Flags) : Unwritten k s (s.updCore k fun c => c.orVflagsOnly fl) :=
  ⟨.updCore rfl (Core.sr_setSr_other _ (by decide) _) rfl rfl rfl, by rw [State.core_updCore_same]; rfl,
    fun key => by rw [State.core_updCore_same]; rfl⟩

section
variable {s : State} {k code fmt : Nat} {d : Desc} (hplain : d.scaled = false) (hfmt : blockScaled fmt = false)
  (hfit : rowElems code fmt * elemBits fmt ≤ 8 * rowBytes code)
  (hbad : (s.core k).ocBad = []) (harm : s.armed.get [] (unitOfKey k) = [])
include hplain hfmt hfit hbad harm

theorem tldRow_ends {r : Nat} {t : State} (ht : RowsLoaded k code fmt d r s t)
    (hready : ∀ p < rowElems code fmt, placeReady s k d (r * rowElems code fmt + p)) :
    Ends (tldRow k code fmt d r) t fun _ u => RowsLoaded k code fmt d (r + 1) s u := by
  have hready' : ∀ e ∈ rangeFrom (r * rowElems code fmt) (rowElems code fmt), placeReady t k d e := fun e he => by
    obtain ⟨p, hp, rfl⟩ := List.mem_map.mp he
    exact ht.placeReady (hready p (List.mem_range.mp hp))
  have harm' : t.armed.get [] (unitOfKey k) = [] := by rw [ht.armed]; exact harm
  have hbad' : (t.core k).ocBad = [] := ht.ocBad.trans hbad
  rw [tldRow]
  refine .bind_run (a := t.core k) rfl (.bind_run (check_place hplain (.inl rfl) harm' hready') ?_)
  refine ((Ends.collect (I := fun u => Unwritten k t u ∧ (u.core k).tiles = (t.core k).tiles) (fun e => (placeBits (s.core k) d e, 127))
    ⟨.refl k t, rfl⟩ fun e he u ⟨hu, htiles⟩ => ?_).tryCatch _).bind fun xs u ⟨hxs, hu, htiles⟩ => ?_
  · rw [← hu.level]
    refine (readElem_place hplain (hu.placeReady (hready' e he)) (hu.ocBad.trans hbad')).mono
      fun b v ⟨hb, hv, htiles'⟩ => ⟨?_, hu.trans hv, htiles'.trans htiles⟩
    rw [hb, hu.placeBits, ht.placeBits]
  obtain ⟨fl, hconv⟩ := convRun_plain (sf := d.fmt) hplain hfmt (rangeFrom (r * rowElems code fmt) (rowElems code fmt)) (placeBits (s.core k) d)
  rw [hfmt, Bool.not_false, Bool.true_or, hxs, hconv]
  obtain ⟨g, hput, hg⟩ := tile_putRow (s := u) (by rw [hu.armed]; exact harm') code r
    (packBits (elemBits fmt) ((rangeFrom (r * rowElems code fmt) (rowElems code fmt)).map fun e => convElem d.fmt fmt (placeBits (s.core k) d e)))
  refine .of_run (a := ()) (t := (u.updCore k fun c => c.updTile code g).updCore k fun c => c.orVflagsOnly fl) (by rw [← hput]; rfl) ?_
  have htile : ∀ j, (((u.updCore k fun c => c.updTile code g).updCore k fun c => c.orVflagsOnly fl).core k).tile j
      = ((u.core k).updTile code g).tile j := fun j => by rw [State.core_updCore_same, State.core_updCore_same]; rfl
  have hread : ∀ j, (u.core k).tile j = (t.core k).tile j := fun j => by rw [Core.tile, htiles]; rfl
  refine ⟨ht.toUnwritten.trans (hu.trans ((Unwritten.updTile k u code g).trans (.orVflags ..))), fun q hq p hp => ?_, fun j hj => ?_⟩
  · rw [htile, tile_updTile_same]
    by_cases hqr : q = r
    · have hrow := Nat.mul_le_mul_left (elemBits fmt) (Nat.succ_le_of_lt hp)
      rw [Nat.mul_comm] at hfit
      rw [Nat.mul_succ] at hrow
      rw [hqr, elem_written (hg _) (hrow.trans hfit), packBits_shiftRight, convBits_eq]
      simp [rangeFrom, hp]
    · rw [elem_unwritten (hg _) hqr, hread]
      exact ht.elem q (by omega) p hp
  · rw [htile, tile_updTile_other _ hj, hread]
    exact ht.others j hj

end

end Sys2Proof.Machine
end

section
/-! SUPPORT. TLD of plain elements, and TST into them (R179 to R181). -/

namespace Sys2Proof.Machine
open Sys2Proof Sys2Proof.Claims

/-- A descriptor of plain elements on a core whose accesses to them meet no error, and no armed injection strikes. -/
structure PlainReady (s : State) (k : Nat) (d : Desc) : Prop where
  plain : d.scaled = false
  space : d.space ≤ 1
  sound : (s.core k).ocBad = []
  unarmed : s.armed.get [] (unitOfKey k) = []
  calm : (s.core k).mchk = []
  place : ∀ e < d.count, placeReady s k d e

/-- The first steps of a TLD leave an idle core's bytes and other tiles. -/
theorem rowsLoaded_start {s : State} {k : Nat} (hidle : (s.core k).Idle) (code fmt : Nat) (d : Desc) :
    RowsLoaded k code fmt d 0 s ((s.updCore k fun y => y.runGroupOf code).updCore k (Core.loadingTile code fmt)) := by
  have hrun : Unwritten k s (s.updCore k fun y => y.runGroupOf code) :=
    ⟨.updCore (by rw [hidle.runGroupOf]) (by rw [hidle.runGroupOf]) (by rw [hidle.runGroupOf]) (by rw [hidle.runGroupOf])
      (by rw [hidle.runGroupOf]), by rw [State.core_updCore_same, hidle.runGroupOf],
      fun key => by rw [State.core_updCore_same, hidle.runGroupOf]⟩
  refine ⟨hrun.trans (.updTile ..), fun q hq => absurd hq (Nat.not_lt_zero q), fun j hj => ?_⟩
  rw [State.core_updCore_same, State.core_updCore_same, hidle.runGroupOf]
  exact tile_updTile_other _ hj _

/-- The rows of a TLD of plain elements (R179, R181). -/
theorem tldRows_end {s start : State} {k code fmt rows : Nat} {d : Desc} {pc : W64} {onStop : Nat → M Unit} (hd : PlainReady s k d)
    (hfmt : blockScaled fmt = false) (hfit : rowElems code fmt * elemBits fmt ≤ 8 * rowBytes code)
    (hcount : d.count = rows * rowElems code fmt) (hstart : RowsLoaded k code fmt d 0 s start) :
    Ends (rowLoop k pc (tldRow k code fmt d) onStop rows 0 none) start fun _ u => RowsLoaded k code fmt d rows s u := by
  have hrows := rowLoop_ends (k := k) (f := rows) (r := 0) (pc := pc) (row := tldRow k code fmt d) (onStop := onStop)
    (I := fun r t => RowsLoaded k code fmt d r s t) hstart (fun r t ht => ht.mchk.trans hd.calm) fun r hr t ht => ?_
  · rwa [Nat.zero_add] at hrows
  · refine tldRow_ends hd.plain hfmt hfit hd.sound hd.unarmed ht fun p hp => hd.place _ ?_
    have := Nat.mul_le_mul_right (rowElems code fmt) (show r + 1 ≤ rows by omega)
    rw [Nat.succ_mul] at this
    omega

end Sys2Proof.Machine
end

section
/-! SUPPORT. The rows of a TST: its writes of plain elements to the operand cache or to lines of L1 (R95, R104, R180). -/

namespace Sys2Proof.Machine
open Sys2Proof Sys2Proof.Claims

/-- The places of a descriptor's elements share no byte. -/
def Desc.DistinctPlaces (d : Desc) : Prop :=
  ∀ e < d.count, ∀ f < d.count, e ≠ f → ∀ a < bytesOf d.fmt, ∀ b < bytesOf d.fmt, placeByte d e a ≠ placeByte d f b

theorem placeByte_memory {d : Desc} (h : d.space ≠ 1) (e j : Nat) : placeByte d e j = (d.place 0 e).1 + j := if_neg h
theorem placeByte_oc {d : Desc} (h : d.space = 1) (e j : Nat) : placeByte d e j = ((d.place 0 e).1 + j) % ocSize := if_pos h

/-- Spans of a size that share no byte follow one another. -/
theorem spans_apart {P Q z : Nat} (hz : 0 < z) (h : ∀ a < z, ∀ b < z, P + a ≠ Q + b) : P + z ≤ Q ∨ Q + z ≤ P := by
  by_contra hno
  rcases Nat.le_total P Q with hle | hle
  · exact h (Q - P) (by omega) 0 hz (by omega)
  · exact h 0 hz (P - Q) (by omega) (by omega)

theorem mem_rangeFrom {a n i : Nat} : i ∈ rangeFrom a n ↔ a ≤ i ∧ i < a + n := by
  simp only [rangeFrom, List.mem_map, List.mem_range]
  exact ⟨fun ⟨j, hj, h⟩ => by omega, fun h => ⟨i - a, by omega, by omega⟩⟩

theorem elemBytes_le (fmt : Nat) : elemBits fmt / 8 ≤ 8 := by
  unfold elemBits
  split_ifs <;> decide

/-- A TST after n of its elements, with values val: their places hold them, and no other byte has changed, nor a tile (R180). -/
structure ElemsStored (k : Nat) (d : Desc) (val : Nat → Nat) (n : Nat) (s t : State) : Prop extends Steady k s t where
  tiles : (t.core k).tiles = (s.core k).tiles
  elem : ∀ e < n, placeBits (t.core k) d e = val e % 2 ^ elemBits d.fmt
  outside : ∀ a, (∀ e < d.count, ∀ j < bytesOf d.fmt, a ≠ placeByte d e j) →
    (d.space = 1 → (t.core k).oc.get 0 a = (s.core k).oc.get 0 a) ∧ (d.space = 0 → l1Byte t k a = l1Byte s k a)
  ocKept : d.space = 0 → (t.core k).oc = (s.core k).oc
  l1Kept : d.space = 1 → ∀ a, l1Byte t k a = l1Byte s k a

namespace ElemsStored
variable {k n : Nat} {d : Desc} {val : Nat → Nat} {s t u : State}

theorem start (k : Nat) (d : Desc) (val : Nat → Nat) (s : State) : ElemsStored k d val 0 s s :=
  ⟨.refl k s, rfl, fun e he => absurd he (Nat.not_lt_zero e), fun _ _ => ⟨fun _ => rfl, fun _ => rfl⟩, fun _ => rfl, fun _ _ => rfl⟩

/-- What changes neither byte nor tile keeps it. -/
theorem unwritten (ht : ElemsStored k d val n s t) (hu : Unwritten k t u) (htiles : (u.core k).tiles = (t.core k).tiles) :
    ElemsStored k d val n s u where
  toSteady := ht.toSteady.trans hu.toSteady
  tiles := htiles.trans ht.tiles
  elem e he := (hu.placeBits d e).trans (ht.elem e he)
  outside a ha := (ht.outside a ha).imp (fun h hspace => by rw [hu.oc, h hspace]) fun h hspace => (hu.l1Byte a).trans (h hspace)
  ocKept hspace := hu.oc.trans (ht.ocKept hspace)
  l1Kept hspace a := (hu.l1Byte a).trans (ht.l1Kept hspace a)

section
variable (hd : PlainReady s k d) (hdistinct : d.DistinctPlaces) (ht : ElemsStored k d val n s t)
include hd hdistinct ht

/-- The store of the next element to a line of L1 (R104). -/
theorem stored (hspace : d.space = 0) (hn : n < d.count) (hu : SpanStored k (w64 (d.place 0 n).1) (elemBits d.fmt / 8) (val n) t u) :
    ElemsStored k d val (n + 1) s u := by
  have hmem : d.space ≠ 1 := by omega
  obtain ⟨hbits, hle⟩ := elemBits_unscaled (fmt := d.fmt) hd.plain
  obtain ⟨key, hit, haddr, hfit⟩ := placeReady_memory hmem (ht.placeReady (hd.place n hn))
  have hfind := l1Hit_find hit
  obtain ⟨hsteady, hoc, htiles, hput, hkept⟩ := hu
  rw [haddr] at hfind hput hkept
  refine ⟨ht.toSteady.trans hsteady, htiles.trans ht.tiles, fun e he => ?_, fun a ha => ⟨fun h => absurd h hmem, fun _ => ?_⟩,
    fun _ => hoc.trans (ht.ocKept hspace), fun h => absurd h hmem⟩
  · by_cases hen : e = n
    · rw [hen, placeBits_memory hmem ((hsteady.l1Find _).trans hfind), hput key hfind, hbits]
    · obtain ⟨j, hjit, hjaddr, hjfit⟩ := placeReady_memory hmem (ht.placeReady (hd.place e (by omega)))
      have hjfind := l1Hit_find hjit
      rw [hjaddr] at hjfind
      rw [← ht.elem e (by omega), placeBits_memory hmem ((hsteady.l1Find _).trans hjfind), placeBits_memory hmem hjfind]
      refine hkept _ j _ _ hjfind (by omega) hjfit fun hline => ?_
      have hapart := spans_apart (P := (d.place 0 e).1) (Q := (d.place 0 n).1) (show 0 < elemBits d.fmt / 8 by omega) fun a ha b hb => by
        have hne := hdistinct e (by omega) n hn hen a ha b hb
        rwa [placeByte_memory hmem, placeByte_memory hmem] at hne
      omega
  · refine Eq.trans ?_ ((ht.outside a ha).2 hspace)
    rw [l1Byte, l1Byte, hsteady.l1Find]
    cases hj : (t.core k).l1Find (a / 128) with
    | none => rfl
    | some j =>
      have hsame : lineGet ((u.core k).l1Line j).data (a % 128) 1 = lineGet ((t.core k).l1Line j).data (a % 128) 1 := by
        refine hkept _ j _ 1 hj Nat.one_pos (by omega) fun hline => ?_
        by_contra hin
        refine ha n hn (a - (d.place 0 n).1) (show _ < elemBits d.fmt / 8 by omega) ?_
        rw [placeByte_memory hmem]
        omega
      rw [Option.map_some, Option.map_some, hsame]

/-- The writes of the next elements to the operand cache, made at once (R95). -/
theorem written {m : Nat} (hspace : d.space = 1) (hm : n + m ≤ d.count) (hrest : u = { t with cores := u.cores })
    (hcore : u.core k = { t.core k with oc := putBytes (t.core k).oc (elemBytes (fun e => (d.place 0 e).1) (elemBits d.fmt / 8)
      ((rangeFrom n m).map fun e => (e, val e))) }) : ElemsStored k d val (n + m) s u := by
  have hoc : (u.core k).oc = putBytes (t.core k).oc (elemBytes (fun e => (d.place 0 e).1) (elemBits d.fmt / 8)
      ((rangeFrom n m).map fun e => (e, val e))) := by rw [hcore]
  have hsteady : Steady k t u := by
    refine ⟨hrest, ?_, ?_, ?_, ?_, fun key => ?_, fun key => ?_⟩ <;> rw [hcore]
    · rfl
    · exact ⟨rfl, rfl⟩
    · exact ⟨rfl, rfl⟩
  have hbits : ∀ x : Core, ∀ e, placeBits x d e = ofLe (x.ocBytes (d.place 0 e).1 (elemBits d.fmt / 8)) := fun x e => if_pos hspace
  have hapart : ∀ e < d.count, ∀ f < d.count, e ≠ f → Apart (fun e => (d.place 0 e).1) (elemBits d.fmt / 8) e f :=
    fun e he f hf hne a ha b hb => by
      have hbyte := hdistinct e he f hf hne a ha b hb
      rwa [placeByte_oc hspace, placeByte_oc hspace] at hbyte
  refine ⟨ht.toSteady.trans hsteady, by rw [hcore]; exact ht.tiles, fun e he => ?_, fun a ha => ⟨fun _ => ?_, fun h => absurd h (by omega)⟩,
    fun h => absurd h (by omega), fun h a => ?_⟩
  · by_cases hen : e < n
    · rw [← ht.elem e hen, hbits, hbits]
      refine congrArg ofLe ((ocBytes_elemBytes_other hoc fun o ho => ?_).trans rfl)
      obtain ⟨f, hf, rfl⟩ := List.mem_map.mp ho
      obtain ⟨hnf, hfm⟩ := mem_rangeFrom.mp hf
      exact hapart e (by omega) f (by omega) (by omega)
    · have hmem : (e, val e) ∈ (rangeFrom n m).map fun e => (e, val e) := List.mem_map_of_mem (mem_rangeFrom.mpr ⟨by omega, he⟩)
      have hsame := ocBytes_elemBytes_same hoc (elemBytes_le d.fmt) hmem fun o ho => by
        obtain ⟨f, hf, rfl⟩ := List.mem_map.mp ho
        obtain ⟨hnf, hfm⟩ := mem_rangeFrom.mp hf
        exact (eq_or_ne f e).imp (fun h => by rw [h]) fun h => hapart e (by omega) f (by omega) h.symm
      rw [hbits]
      refine (congrArg ofLe hsame).trans ?_
      rw [ofLe_leBytes, (elemBits_unscaled hd.plain).1]
  · rw [hoc, get_putBytes_other, (ht.outside a ha).1 hspace]
    intro b hb hba
    obtain ⟨o, ho, j, hj, rfl⟩ := mem_elemBytes.mp hb
    obtain ⟨f, hf, rfl⟩ := List.mem_map.mp ho
    obtain ⟨hnf, hfm⟩ := mem_rangeFrom.mp hf
    exact ha f (by omega) j hj (hba.symm.trans (placeByte_oc hspace _ j).symm)
  · refine Eq.trans ?_ (ht.l1Kept h a)
    rw [l1Byte, hcore]
    rfl

end

end ElemsStored

theorem run_modifyGet {α : Type} {g : State → α × State} {a : α} {t u : State} (h : g t = (a, u)) :
    (modifyGet g : M α).run t = .ok a u := by
  show EStateM.Result.ok (g t).1 (g t).2 = _
  rw [h]

/-- The writes of elements that are copied or converted one by one (R181). -/
theorem joinPuts_elems {d : Desc} {val : Nat → Nat} {fmt : Nat} (hfmt : blockScaled fmt = false) {elem : Nat → Nat × Nat}
    (hval : ∀ e, val e = convElem fmt d.fmt (elem e).1) (es : List Nat) :
    (joinPuts (es.map fun e =>
      let (b, f) := if fmt = d.fmt then ((elem e).1, (0 : Flags)) else encodeElem d.fmt 0 (valueOf fmt (elem e))
      ([d.putElem 0 e b], f))).1 = es.map fun e => d.putElem 0 e (val e) := by
  rw [joinPuts, List.flatMap_map, ← List.map_eq_flatMap]
  refine List.map_congr_left fun e _ => ?_
  rw [hval, convElem, show valueOf fmt (elem e) = decodeElem fmt (elem e).1 from valueOf_unscaled hfmt (elem e).1 (elem e).2]
  split_ifs <;> rfl

section
variable {k : Nat} {d : Desc} {val : Nat → Nat} {s : State} (hd : PlainReady s k d) (hdistinct : d.DistinctPlaces)
include hd hdistinct

/-- The writes of a row (R90). -/
theorem putAll_place {n m : Nat} {t : State} (ht : ElemsStored k d val n s t) (hm : n + m ≤ d.count) :
    Ends ((l1Port k (t.core k).level).putAll k ((rangeFrom n m).map fun e => d.putElem 0 e (val e))) t
      fun _ u => ElemsStored k d val (n + m) s u := by
  have harm : t.armed.get [] (unitOfKey k) = [] := by rw [ht.armed]; exact hd.unarmed
  have hsound : (t.core k).ocBad = [] := ht.ocBad.trans hd.sound
  have hspace := hd.space
  obtain hspace | hspace : d.space = 1 ∨ d.space = 0 := by omega
  · have hputs : OcOnly ((rangeFrom n m).map fun e => d.putElem 0 e (val e)) (elemBytes (fun e => (d.place 0 e).1) (elemBits d.fmt / 8)
        ((rangeFrom n m).map fun e => (e, val e))) := by
      simp only [putElem_oc hd.plain 0 _ hspace, elemBytes, List.flatMap_map]
      exact OcOnly.map ..
    exact (putAll_oc hputs (by simp [harm]) hsound _).mono fun _ u ⟨hrest, hcore⟩ => ht.written hd hdistinct hspace hm hrest hcore
  · have hput : ∀ e, d.putElem 0 e (val e) = .mem (w64 (d.place 0 e).1) (elemBits d.fmt / 8) (val e) := fun e => by
      rw [Desc.putElem, span_unscaled hd.plain]
      exact if_neg (by omega)
    have hnone : ((rangeFrom n m).map fun e => Put.mem (w64 (d.place 0 e).1) (elemBits d.fmt / 8) (val e)).flatMap Put.ocPart = [] := by
      rw [List.flatMap_map, List.flatMap_eq_nil_iff]
      exact fun _ _ => rfl
    simp only [hput]
    rw [MemPort.putAll, forEach_map]
    refine (Ends.forEach_range (I := fun i u => ElemsStored k d val i s u) ht fun i hi v hv => ?_).bind fun _ u hu => ?_
    · obtain ⟨key, hit, haddr, hfit⟩ := placeReady_memory (by omega) (hv.placeReady (hd.place i (by omega)))
      obtain ⟨hbits, hle⟩ := elemBits_unscaled (fmt := d.fmt) hd.plain
      have hlevel : (t.core k).level = .m := ht.level.trans (hv.level.symm.trans (l1Hit_level hit))
      rw [hlevel]
      exact (store_span hit (by rw [hv.armed]; exact hd.unarmed) (by omega) (by rwa [haddr]) (val i)).mono
        fun _ w hw => hv.stored hd hdistinct hspace (by omega) hw
    · dsimp only
      rw [hnone]
      exact .of_run rfl hu

/-- One row of a TST of a tile without errors, which holds no poison where it holds data (R180, R181). -/
theorem tstRow_ends {code fmt r : Nat} {held : Bool} {t : State} (hfmt : blockScaled fmt = false)
    (hpoison : held = true → ((s.core k).tile code).poison = false) (hbad : ((s.core k).tile code).bad = [])
    (ht : ElemsStored k d val (r * rowElems code fmt) s t) (hr : (r + 1) * rowElems code fmt ≤ d.count)
    (hval : ∀ e, val e = convElem fmt d.fmt (((s.core k).tile code).stored code fmt held e).1) :
    Ends (tstRow k code fmt held d r) t fun _ u => ElemsStored k d val ((r + 1) * rowElems code fmt) s u := by
  have htile : (t.core k).tile code = (s.core k).tile code := by rw [Core.tile, ht.tiles]; rfl
  have hnone : (held && ((t.core k).tile code).poison) = false := by
    rw [htile]
    cases h : held with
    | false => rfl
    | true => exact hpoison h
  have hmeet : t.meetRow k code r 3 = (false, t) := by rw [State.meetRow, htile, hbad]; rfl
  have harm : t.armed.get [] (unitOfKey k) = [] := by rw [ht.armed]; exact hd.unarmed
  rw [Nat.succ_mul] at hr ⊢
  have hready : ∀ e ∈ rangeFrom (r * rowElems code fmt) (rowElems code fmt), placeReady t k d e := fun e he =>
    ht.placeReady (hd.place e ((mem_rangeFrom.mp he).2.trans_le hr))
  rw [tstRow]
  refine .bind_run (a := t.core k) rfl ?_
  dsimp only
  rw [hnone, if_neg Bool.false_ne_true]
  refine .bind_run (a := false) (t := t) (run_modifyGet hmeet) ?_
  rw [if_neg Bool.false_ne_true]
  refine .bind_run (a := t.core k) rfl (.bind_run (check_place hd.plain (.inr rfl) harm hready) ?_)
  rw [hd.plain, if_neg Bool.false_ne_true, htile, joinPuts_elems hfmt hval]
  refine (putAll_place hd hdistinct ht hr).bind fun _ u hu => .of_run (a := ()) rfl (hu.unwritten (.orVflags ..) ?_)
  rw [State.core_updCore_same]
  rfl

/-- The rows of a TST (R180, R181). -/
theorem tstRows_end {code fmt rows : Nat} {held : Bool} {pc : W64} {onStop : Nat → M Unit} (hfmt : blockScaled fmt = false)
    (hpoison : held = true → ((s.core k).tile code).poison = false) (hbad : ((s.core k).tile code).bad = [])
    (hcount : d.count = rows * rowElems code fmt)
    (hval : ∀ e, val e = convElem fmt d.fmt (((s.core k).tile code).stored code fmt held e).1) :
    Ends (rowLoop k pc (tstRow k code fmt held d) onStop rows 0 none) s fun _ u => ElemsStored k d val d.count s u := by
  have hrows := rowLoop_ends (k := k) (f := rows) (r := 0) (pc := pc) (row := tstRow k code fmt held d) (onStop := onStop)
    (I := fun r t => ElemsStored k d val (r * rowElems code fmt) s t) (by rw [Nat.zero_mul]; exact .start k d val s)
    (fun r t ht => ht.mchk.trans hd.calm) fun r hr t ht => ?_
  · rwa [Nat.zero_add, ← hcount] at hrows
  · refine tstRow_ends hd hdistinct hfmt hpoison hbad ht ?_ hval
    rw [hcount]
    exact Nat.mul_le_mul_right _ (by omega)

end

end Sys2Proof.Machine
end

section
/-! SUPPORT. What TLD and TST leave (R179 to R181). -/

namespace Sys2Proof.Machine
open Sys2Proof Sys2Proof.Claims

section
variable (pc : W64) (code fmt : Nat) (x : Core)

theorem tile_loadedTile_same : (x.loadedTile pc code fmt).tile code = { x.tile code with st := 2, writer := 8, fmt := fmt, poison := false } :=
  tile_updTile_same x code fun t => { t with st := 2, writer := 8, fmt := fmt, poison := false }
theorem tile_loadedTile_other {j : Nat} (h : j ≠ code) : (x.loadedTile pc code fmt).tile j = x.tile j :=
  tile_updTile_other x h fun t => { t with st := 2, writer := 8, fmt := fmt, poison := false }
theorem sr_loadedTile_tpos : (x.loadedTile pc code fmt).sr tposNo = 0 :=
  Core.sr_setSr_same (x.updTile code fun t => { t with st := 2, writer := 8, fmt := fmt, poison := false }) tposNo 0

end

section
variable (u : State) (k : Nat) (pc : W64)

theorem tiles_ended : (((u.updCore k fun y => y.setSr tposNo 0).retire k pc).core k).tiles = (u.core k).tiles := by
  obtain ⟨p, y, h⟩ := loopStep_frame ((u.core k).setSr tposNo 0) pc
  rw [State.core_retire_same, State.core_updCore_same, h]
  rfl

/-- The end of an instruction changes no byte. -/
theorem Unwritten.retire : Unwritten k u (u.retire k pc) := by
  have hcore : (u.retire k pc).core k = (u.core k).loopStep pc := State.core_retire_same ..
  have hsteady : Steady k u (u.retire k pc) := by
    refine .updCore (loopStep_level ..) (sr_loopStep_other _ _ (by decide) (by decide)) ?_ ?_ (loopStep_l1 ..)
    all_goals
      obtain ⟨p, y, h⟩ := loopStep_frame (u.core k) pc
      rw [h]
  refine ⟨hsteady, by rw [hcore, loopStep_oc], fun key => ?_⟩
  rw [hcore, Core.l1Line, loopStep_l1]
  rfl

/-- The end of a TLD changes no byte. -/
theorem Unwritten.loaded (code fmt : Nat) (pc' : W64) : Unwritten k u ((u.updCore k (Core.loadedTile pc' code fmt)).retire k pc) := by
  refine .trans ⟨.updCore rfl ?_ rfl rfl rfl, ?_, fun key => ?_⟩ (.retire ..)
  · exact Core.sr_setSr_other ((u.core k).updTile code fun t => { t with st := 2, writer := 8, fmt := fmt, poison := false })
      (show matpNo ≠ tposNo by decide) 0
  all_goals
    rw [State.core_updCore_same]
    rfl

/-- The end of a TST changes no byte. -/
theorem Unwritten.ended : Unwritten k u ((u.updCore k fun y => y.setSr tposNo 0).retire k pc) := by
  refine .trans ⟨.updCore rfl (Core.sr_setSr_other _ (by decide) _) rfl rfl rfl, ?_, fun key => ?_⟩ (.retire ..)
  all_goals
    rw [State.core_updCore_same]
    rfl

end

/-- tileReady, by its parts. -/
theorem plainReady_of {s : State} {c : CoreId} {d : Desc} (hr : s.ready c = true) (h : tileReady s (coreKey c) d) :
    PlainReady s (coreKey c) d ∧ (s.core (coreKey c)).Idle := by
  obtain ⟨-, h0, h1, hbg, hbad, harm, hspace, -, hplain, -, -, hplace⟩ := h
  exact ⟨⟨hplain, hspace, hbad, harm, calm_mchk (ready_calm hr), hplace⟩, hbg, h0, h1⟩

section
variable {s : State} {c : CoreId} {tile : BitVec 6} {dn : BitVec 4} {d : Desc} (hr : s.ready c = true)
  (hk : isCompute (coreKey c) = true) (htile : tile.toNat < 40) (hd : (s.core (coreKey c)).descOf dn.toNat = d)
  (hready : tileReady s (coreKey c) d)
include hr hk htile hd hready

/-- A TLD of plain elements fills its tile with them (R179, R181). -/
theorem execTld_loads {tfmt : BitVec 5} {rows : Nat} (hrows : (s.core (coreKey c)).rowsOf tile.toNat = rows) (hpos : 0 < rows) (hfmt : tfmt.toNat < 7)
    (hz : isZ tile.toNat = true → tfmt.toNat = 0) (hw : isW tile.toNat = true → tfmt.toNat ≠ 0 ∧ tfmt.toNat ≠ 5)
    (hcount : d.count = rows * rowElems tile.toNat tfmt.toNat) :
    ∃ u, RowsLoaded (coreKey c) tile.toNat tfmt.toNat d rows s u ∧ exec (.tld c tile dn tfmt none) s
      = .next ((u.updCore (coreKey c) (Core.loadedTile (s.core (coreKey c)).pc tile.toNat tfmt.toNat)).retire (coreKey c) (pcOf s c)) := by
  obtain ⟨hplain, hidle⟩ := plainReady_of hr hready
  obtain ⟨htpos, -, -, -, -, -, hspace, hmal, hscaled, haligned, hsome, -⟩ := hready
  have hblock : blockScaled tfmt.toNat = false := decide_eq_false (by omega)
  obtain ⟨_, u, hloop, hu⟩ := tldRows_end (pc := (s.core (coreKey c)).pc) (onStop := fun _ => tldStop (coreKey c) tile.toNat) hplain hblock
    (rowElems_fit htile hfmt hz hw) hcount (rowsLoaded_start hidle tile.toNat tfmt.toNat d)
  subst hrows
  exact ⟨u, hu, execTld_next hr hk htile htpos hidle hd (tileChecks_pass hmal hspace hscaled haligned hsome hfmt (fun _ => ⟨hz, hw⟩)
    (fun h => absurd h (by decide)) hcount) hpos rfl hloop⟩

/-- A TST of plain elements stores the elements of its tile (R180, R181). -/
theorem execTst_stores {fmt : Nat} {held : Bool} (hw : isW tile.toNat = false)
    (hfmteq : (if isZ tile.toNat then 0 else ((s.core (coreKey c)).tile tile.toNat).fmt) = fmt)
    (hheld : (((s.core (coreKey c)).tile tile.toNat).st == 2) = held) (hfmt : fmt < 7)
    (hbad : ((s.core (coreKey c)).tile tile.toNat).bad = [])
    (hst : ((s.core (coreKey c)).tile tile.toNat).st = 2 ∧ ((s.core (coreKey c)).tile tile.toNat).poison = false
      ∨ isZ tile.toNat = true ∧ (((s.core (coreKey c)).tile tile.toNat).st = 0 ∨ ((s.core (coreKey c)).tile tile.toNat).st = 4))
    (hcount : d.count = (s.core (coreKey c)).rowsOf tile.toNat * rowElems tile.toNat fmt) (hdistinct : d.DistinctPlaces) :
    ∃ u, ElemsStored (coreKey c) d (fun e => convElem fmt d.fmt (((s.core (coreKey c)).tile tile.toNat).stored tile.toNat fmt held e).1) d.count s u
      ∧ exec (.tst c tile dn none) s = .next ((u.updCore (coreKey c) fun y => y.setSr tposNo 0).retire (coreKey c) (pcOf s c)) := by
  obtain ⟨hplain, hidle⟩ := plainReady_of hr hready
  obtain ⟨htpos, -, -, -, -, -, hspace, hmal, hscaled, haligned, hsome, -⟩ := hready
  have hblock : blockScaled fmt = false := decide_eq_false (by omega)
  have hpoison : held = true → ((s.core (coreKey c)).tile tile.toNat).poison = false := fun h => by
    rw [h, beq_iff_eq] at hheld
    rcases hst with ⟨-, hpoison⟩ | ⟨-, h0 | h4⟩
    · exact hpoison
    · omega
    · omega
  subst hheld
  obtain ⟨_, u, hloop, hu⟩ := tstRows_end (pc := (s.core (coreKey c)).pc)
    (onStop := tstStop (coreKey c) tile.toNat fmt ((s.core (coreKey c)).zHolds tile.toNat) d) hplain hdistinct hblock hpoison hbad hcount fun _ => rfl
  exact ⟨u, hu, execTst_next hr hk htile htpos hidle hd hw hfmteq (tileChecks_pass hmal hspace hscaled haligned hsome hfmt
    (fun h => absurd h (by decide)) (fun _ => hst.imp_left And.left) hcount) hloop⟩

end

end Sys2Proof.Machine
end

section
open Sys2Proof Sys2Proof.Machine Sys2Proof.Claims

/-- Settles O36: every row of a TLD reads its elements and writes them to the tile, every row of a TST stores its own; the rows keep
what the next ones rest on, and the end of the instruction changes no byte. -/
theorem tileLoadsAndStoresComplete : Obligations.TileLoadsAndStoresComplete := by
  unfold Obligations.TileLoadsAndStoresComplete
  dsimp only
  refine ⟨fun s c tile dn tfmt hr hk htile hready hrows => ⟨fun hfmt hz hw hcount => ?_, fun hw hfmt hbad hst hcount hdistinct => ?_⟩,
    fun s u c tile dn tfmt hr hk htile hpos h0 h1 hbg => ⟨fun hchecks hrows hoc hloop => ?_, fun hw hchecks hloop => ?_⟩⟩
  · obtain ⟨u, hu, hexec⟩ := execTld_loads hr hk htile rfl hready rfl hrows hfmt (fun h => by rw [hz h]; rfl)
      (fun h => (hw h).imp (mt fun h => BitVec.eq_of_toNat_eq h) (mt fun h => BitVec.eq_of_toNat_eq h)) hcount
    have hend := hu.toUnwritten.trans (.loaded u (coreKey c) (pcOf s c) tile.toNat tfmt.toNat (s.core (coreKey c)).pc)
    refine ⟨_, hexec, ?_, fun r hr p hp => ?_, fun j hj => ?_, hend.oc, hend.l1Byte, hend.dram⟩ <;>
      rw [State.core_retire_same, State.core_updCore_same, loopStep_tile]
    · rw [tile_loadedTile_same]
    · rw [tile_loadedTile_same]
      exact hu.elem r hr p hp
    · rw [tile_loadedTile_other _ _ _ _ hj]
      exact hu.others j hj
  · obtain ⟨u, hu, hexec⟩ := execTst_stores hr hk htile rfl hready hw rfl rfl hfmt hbad hst hcount hdistinct
    have hend := hu.unwritten (Unwritten.ended u (coreKey c) (pcOf s c)) (tiles_ended ..)
    refine ⟨_, hexec, fun e he => ?_, hend.outside, hend.ocKept, hend.l1Kept, fun j => ?_, hend.dram⟩
    · rw [hend.elem e he, convBits_eq, Tile.stored, apply_ite Prod.fst]
    · rw [Core.tile, hend.tiles]
      rfl
  · have hidle : (s.core (coreKey c)).Idle := ⟨hbg, h0, h1⟩
    refine ⟨_, execTld_next hr hk htile hpos hidle rfl hchecks hrows rfl hloop, ?_⟩
    rw [State.core_retire_same, State.core_updCore_same, loopStep_tile, tile_loadedTile_same,
      sr_loopStep_other _ _ (by decide) (by decide)]
    exact ⟨rfl, rfl, rfl, rfl, sr_loadedTile_tpos (s.core (coreKey c)).pc tile.toNat tfmt.toNat (u.core (coreKey c)), rfl⟩
  · exact execTst_next hr hk htile hpos ⟨hbg, h0, h1⟩ rfl hw rfl hchecks hloop
end

section
open Sys2Proof Sys2Proof.Machine

/-- Settles O3: nothing is written at reset, so every register reads its default. -/
theorem resetRegisterValues : Obligations.ResetRegisterValues := by
  unfold Obligations.ResetRegisterValues
  refine ⟨fun k => ⟨rfl, rfl, rfl, rfl⟩, fun k => rfl, fun k n hn => if_neg hn, fun a => rfl, fun k r => ?_, fun d => ⟨rfl, rfl⟩, rfl, rfl, rfl⟩
  rw [Core.rx]
  exact ite_self _
end

section
/-! SUPPORT. Gather groups and the releases behind them (R164, R166, R184, R187). -/

namespace Sys2Proof.Machine
open Sys2Proof Sys2Proof.Claims

/-! ### No group open -/

/-- No gather group is open on a core; work may be accepted. -/
structure Core.Ungrouped (x : Core) : Prop where
  gather0 : x.gather0 = none
  gather1 : x.gather1 = none

theorem Core.Idle.ungrouped {x : Core} (h : x.Idle) : x.Ungrouped := ⟨h.gather0, h.gather1⟩

namespace Core.Ungrouped
variable {x : Core} (h : x.Ungrouped)
include h

theorem group (arr : Nat) : x.group arr = none := by
  rw [Core.group]
  split_ifs
  · exact h.gather0
  · exact h.gather1

theorem groupNames (arr code : Nat) : x.groupNames arr code = false := by rw [Core.groupNames, h.group]
theorem gathering (code : Nat) : x.gathering code = false := by simp [Core.gathering, h.groupNames]
theorem runGroupOf (code : Nat) : x.runGroupOf code = x := by simp [Core.runGroupOf, h.groupNames]

theorem runGroups (arrs : List Nat) : arrs.foldl Core.runGroup x = x := by
  induction arrs with
  | nil => rfl
  | cons arr arrs ih => rw [List.foldl_cons, runGroup_none (h.group arr), ih]

/-- A release takes its place behind the accepted work. -/
theorem queueRel (r : Nat × Nat) : x.queueRel r = { x with bg := x.bg ++ [.rel r.1 r.2] } := by
  simp [Core.queueRel, Core.groupReading, h.group]

end Core.Ungrouped

/-! ### One group open -/

@[simp] theorem group_setGroup_same (x : Core) (arr : Fin 2) (g : Option Gather) : (x.setGroup arr g).group arr = g := by
  obtain rfl | rfl : arr = 0 ∨ arr = 1 := by omega
  · rfl
  · rfl
@[simp] theorem group_setGroup_other (x : Core) (arr : Fin 2) (g : Option Gather) :
    (x.setGroup (1 - arr.val) g).group arr = x.group arr := by
  obtain rfl | rfl : arr = 0 ∨ arr = 1 := by omega
  · rfl
  · rfl

theorem group_setGroup_left (x : Core) (arr : Fin 2) (g : Option Gather) :
    (x.setGroup arr g).group (1 - arr.val) = x.group (1 - arr.val) := by
  obtain rfl | rfl : arr = 0 ∨ arr = 1 := by omega
  · rfl
  · rfl
theorem bg_setGroup (x : Core) (arr : Nat) (g : Option Gather) : (x.setGroup arr g).bg = x.bg := by
  rw [Core.setGroup]
  split_ifs <;> rfl
theorem tile_setGroup (x : Core) (arr : Nat) (g : Option Gather) (code : Nat) : (x.setGroup arr g).tile code = x.tile code := by
  rw [Core.setGroup]
  split_ifs <;> rfl

/-- The array's open group has still to read a release's tile. -/
def Core.readsLater (x : Core) (arr : Nat) (r : Nat × Nat) : Bool := (x.group arr).any fun g => g.reqs.any fun q => q.t == r.1

/-- A core whose releases have taken their places: behind the array's open group where that has still to read the tile, else behind the
accepted work. -/
def Core.released (x : Core) (arr : Nat) (rels : List (Nat × Nat)) : Core :=
  { x.setGroup arr ((x.group arr).map fun g => { g with rels := g.rels ++ rels.filter (x.readsLater arr) }) with
    bg := x.bg ++ (rels.filter fun r => !x.readsLater arr r).map fun r => .rel r.1 r.2 }

theorem setGroup_group (x : Core) (arr : Nat) : x.setGroup arr (x.group arr) = x := by
  rw [Core.setGroup, Core.group]
  split_ifs <;> rfl

theorem released_nil (x : Core) (arr : Nat) : x.released arr [] = x := by
  have hmap : (x.group arr).map (fun g => { g with rels := g.rels ++ [].filter (x.readsLater arr) }) = x.group arr := by
    cases x.group arr <;> simp
  rw [Core.released, hmap, setGroup_group]
  simp

theorem group_released_same (x : Core) (arr : Nat) (rels : List (Nat × Nat)) :
    (x.released arr rels).group arr = (x.group arr).map fun g => { g with rels := g.rels ++ rels.filter (x.readsLater arr) } := by
  simp only [Core.released, Core.setGroup, Core.group]
  split_ifs <;> rfl
theorem tile_released (x : Core) (arr : Nat) (rels : List (Nat × Nat)) (code : Nat) : (x.released arr rels).tile code = x.tile code :=
  tile_setGroup x arr _ code

theorem readsLater_released (x : Core) (arr : Nat) (rels : List (Nat × Nat)) : (x.released arr rels).readsLater arr = x.readsLater arr := by
  funext r
  rw [Core.readsLater, group_released_same, Core.readsLater]
  cases x.group arr <;> rfl

theorem released_released (x : Core) (arr : Nat) (l m : List (Nat × Nat)) :
    (x.released arr l).released arr m = x.released arr (l ++ m) := by
  rw [Core.released, readsLater_released]
  simp only [Core.released, Core.setGroup, Core.group]
  split_ifs <;> simp [Function.comp_def]

theorem groupReading_eq (x : Core) (arr : Nat) (r : Nat × Nat) :
    x.groupReading arr r.1 = if x.readsLater arr r then x.group arr else none := by
  rw [Core.groupReading, Core.readsLater]
  cases x.group arr with
  | none => rfl
  | some g => simp [Option.filter]

theorem group_released (x : Core) (arr : Fin 2) (rels : List (Nat × Nat)) : (x.released (1 - arr.val) rels).group arr = x.group arr :=
  group_setGroup_other x arr _

/-- With one array's group closed, a release takes its place by the other's (R164, R184). -/
theorem queueRel_eq {x : Core} {arr : Fin 2} (h : x.group arr = none) (r : Nat × Nat) : x.queueRel r = x.released (1 - arr.val) [r] := by
  have hnone : x.groupReading arr r.1 = none := by rw [groupReading_eq, h, ite_self]
  have hother : x.queueRel r = match x.groupReading (1 - arr.val) r.1 with
      | some g => x.setGroup (1 - arr.val) (some { g with rels := g.rels ++ [r] })
      | none => { x with bg := x.bg ++ [.rel r.1 r.2] } := by
    rw [Core.queueRel]
    obtain rfl | rfl : arr = 0 ∨ arr = 1 := by omega
    · rw [show x.groupReading 0 r.1 = none from hnone, show 1 - ((0 : Fin 2) : Nat) = 1 from rfl]
      cases x.groupReading 1 r.1 <;> rfl
    · rw [show x.groupReading 1 r.1 = none from hnone, show 1 - ((1 : Fin 2) : Nat) = 0 from rfl]
      cases x.groupReading 0 r.1 <;> rfl
  have hkeep := setGroup_group x (1 - arr.val)
  rw [hother, groupReading_eq, Core.released]
  cases hlater : x.readsLater (1 - arr.val) r with
  | false => cases hg : x.group (1 - arr.val) <;> rw [hg] at hkeep <;> simp [hlater, hkeep]
  | true =>
    obtain ⟨g, hg, -⟩ := (Option.any_eq_true ..).mp hlater
    simp only [hlater, hg, if_true, Option.map_some, List.filter_cons, List.filter_nil, Bool.not_true, Bool.false_eq_true, if_false,
      List.map_nil, List.append_nil, Core.setGroup]
    split_ifs <;> rfl

theorem foldl_queueRel {x : Core} {arr : Fin 2} (h : x.group arr = none) (rels : List (Nat × Nat)) :
    rels.foldl Core.queueRel x = x.released (1 - arr.val) rels := by
  induction rels generalizing x with
  | nil => exact (released_nil x _).symm
  | cons r rels ih =>
    rw [List.foldl_cons, queueRel_eq h, ih (by rw [group_released, h]), released_released, List.singleton_append]

/-! ### A group that runs -/

/-- An operation takes its place behind the accepted work. -/
def Core.queueBg (x : Core) (op : BgOp) : Core := { x with bg := x.bg ++ [op] }

theorem group_queueBg (x : Core) (op : BgOp) (arr : Nat) : (x.queueBg op).group arr = x.group arr := rfl
theorem tile_queueBg (x : Core) (op : BgOp) (code : Nat) : (x.queueBg op).tile code = x.tile code := rfl

/-- A core whose array's group g has gone into its queue, with the releases behind it (R170, R188). -/
def Core.groupRun (x : Core) (arr : Fin 2) (g : Gather) : Core :=
  ((x.setGroup arr none).queueBg (.gather arr g.w g.nw 0 g.reqs)).released (1 - arr.val) g.rels

theorem runGroup_some {x : Core} {arr : Fin 2} {g : Gather} (h : x.group arr = some g) (hroom : x.queued arr < 8) :
    x.runGroup arr = x.groupRun arr g := by
  rw [Core.runGroup, h]
  dsimp only
  rw [if_neg (by omega)]
  exact foldl_queueRel ((group_queueBg ..).trans (group_setGroup_same x arr none)) g.rels

section
variable (x : Core) (arr : Fin 2) (g : Gather)

theorem group_groupRun : (x.groupRun arr g).group arr = none := by
  rw [Core.groupRun, group_released, group_queueBg, group_setGroup_same]

theorem readsLater_closed (op : BgOp) : ((x.setGroup arr none).queueBg op).readsLater (1 - arr.val) = x.readsLater (1 - arr.val) := by
  funext r
  rw [Core.readsLater, group_queueBg, group_setGroup_left, Core.readsLater]

theorem group_groupRun_other : (x.groupRun arr g).group (1 - arr.val)
    = (x.group (1 - arr.val)).map fun o => { o with rels := o.rels ++ g.rels.filter (x.readsLater (1 - arr.val)) } := by
  rw [Core.groupRun, group_released_same, group_queueBg, group_setGroup_left, readsLater_closed]

theorem bg_groupRun : (x.groupRun arr g).bg = x.bg ++ [.gather arr g.w g.nw 0 g.reqs]
    ++ (g.rels.filter fun r => !x.readsLater (1 - arr.val) r).map fun r => .rel r.1 r.2 := by
  rw [Core.groupRun, Core.released, readsLater_closed, Core.queueBg, bg_setGroup]

theorem tile_groupRun (code : Nat) : (x.groupRun arr g).tile code = x.tile code := by
  rw [Core.groupRun, tile_released, tile_queueBg, tile_setGroup]

end

@[simp] theorem loopStep_group (c : Core) (e : W64) (arr : Nat) : (c.loopStep e).group arr = c.group arr := by
  obtain ⟨p, y, h⟩ := loopStep_frame c e; rw [h]; rfl

end Sys2Proof.Machine
end

section
/-! SUPPORT. The release and the configuration of tiles where nothing accepted names them (R164, R184, R185). -/

namespace Sys2Proof.Machine
open Sys2Proof Sys2Proof.Claims

/-! ### Credits and emptied tiles -/

section
variable (x : Core) (writer n : Nat)

theorem tile_returnCredits (code : Nat) : (x.returnCredits writer n).tile code = x.tile code := by
  unfold Core.returnCredits Core.creditUnit
  dsimp only
  split_ifs <;> rfl
theorem bg_returnCredits : (x.returnCredits writer n).bg = x.bg := by
  unfold Core.returnCredits Core.creditUnit
  dsimp only
  split_ifs <;> rfl
theorem group_returnCredits (arr : Nat) : (x.returnCredits writer n).group arr = x.group arr := by
  unfold Core.returnCredits Core.creditUnit
  dsimp only
  split_ifs <;> rfl
theorem groupReleases_returnCredits (code : Nat) : (x.returnCredits writer n).groupReleases code = x.groupReleases code := by
  simp only [Core.groupReleases, group_returnCredits]

end

theorem tile_coreRetire_same (x : Core) (code writer : Nat) : (x.retire code writer).tile code = { rows := (x.tile code).rows } :=
  (tile_returnCredits ..).trans (tile_updTile_same x code _)
theorem tile_coreRetire_other (x : Core) {code j : Nat} (h : j ≠ code) (writer : Nat) : (x.retire code writer).tile j = x.tile j :=
  (tile_returnCredits ..).trans (tile_updTile_other x h _)

theorem Core.Idle.wTaken {x : Core} (h : x.Idle) (code : Nat) : x.wTaken code = false := by rw [Core.wTaken, h.bg]; rfl

/-- A tile that no accepted work names is EMPTY once released (R184). -/
theorem release_idle {x : Core} (h : x.Idle) {code : Nat} (hst : (x.tile code).st ≠ 4) :
    ((x.release code).tile code).st = 0 ∧ ((x.release code).tile code).rows = (x.tile code).rows
      ∧ ∀ j, j ≠ code → (x.release code).tile j = x.tile j := by
  rw [Core.release, h.wTaken, h.tileBusy]
  by_cases h0 : (x.tile code).st = 0
  · rw [if_pos (.inl h0)]
    exact ⟨h0, rfl, fun _ _ => rfl⟩
  · rw [if_neg (by simp [h0, hst]), if_neg Bool.false_ne_true, tile_coreRetire_same]
    exact ⟨rfl, rfl, fun j hj => tile_coreRetire_other x hj _⟩

/-! ### TREL -/

/-- A stream unit that is neither RUNNING nor HALTED (R141). -/
def Core.StreamsIdle (x : Core) : Prop := ∀ i < 8, (x.unit i).state = 0 ∨ (x.unit i).state = 3

theorem Core.StreamsIdle.not_active {x : Core} (h : x.StreamsIdle) {i : Nat} (hi : i < 8) :
    ¬ ((x.unit i).state = 1 ∨ (x.unit i).state = 2) := by
  have := h i hi
  omega

theorem Core.StreamsIdle.streamWrites {x : Core} (h : x.StreamsIdle) (code : Nat) : x.streamWrites code = false := by
  rw [Core.streamWrites, List.any_eq_false]
  intro i hi
  rw [StreamUnit.writes?, if_neg fun hw => h.not_active (List.mem_range.mp hi) hw.1]
  exact Bool.false_ne_true

section
variable {s : State} {c : CoreId} (hr : s.ready c = true) (hk : isCompute (coreKey c) = true) (hidle : (s.core (coreKey c)).Idle)
  (hunits : (s.core (coreKey c)).StreamsIdle)
include hr hk hidle hunits

theorem execTrel_next {tile : BitVec 6} (htile : tile.toNat < 40) (hrows : (s.core (coreKey c)).rowsOf tile.toNat ≠ 0) :
    exec (.trel c tile) s = .next (((s.updCore (coreKey c) fun x => x.runGroupOf tile.toNat).updCore (coreKey c)
      fun x => x.release tile.toNat).retire (coreKey c) (pcOf s c)) := by
  refine runInstr_next hr rfl ?_
  rw [run_bind_ok (needCompute_here hk _ s), run_bind_ok (needTile_pass htile _ s), run_getC_bind, if_neg hrows, run_modC_bind,
    run_getC_bind, State.core_updCore_same, hunits.streamWrites, hidle.runGroupOf, hidle.gathering]
  rfl

/-! ### TCFG -/

/-- A tile gets new ROWS, and is EMPTY (R185). -/
def Core.configure (n : Nat) (x : Core) (code : Nat) : Core :=
  (x.retire code (x.tile code).writer).updTile code fun t => { t with rows := n }

omit hr hk hidle hunits in
theorem tile_configured (n : Nat) (x : Core) (l : List Nat) (j : Nat) :
    (l.foldl (Core.configure n) x).tile j = if j ∈ l then { rows := n } else x.tile j := by
  induction l generalizing x with
  | nil => rfl
  | cons code l ih =>
    rw [List.foldl_cons, ih]
    by_cases hj : j = code
    · subst hj
      rw [Core.configure, tile_updTile_same, tile_coreRetire_same]
      simp
    · rw [Core.configure, tile_updTile_other _ hj, tile_coreRetire_other _ hj]
      simp [hj]

omit hr hk hidle hunits in
theorem completeReleases_idle {x : Core} (h : x.Idle) : x.completeReleases = x := by
  have hstep : ∀ code, x.completeRelease code = x := fun code => by rw [Core.completeRelease, Core.firstBg, h.bg]; rfl
  have hfold : ∀ l : List Nat, l.foldl Core.completeRelease x = x := fun l => by
    induction l with
    | nil => rfl
    | cons code l ih => rw [List.foldl_cons, hstep, ih]
  exact hfold _

/-- The tiles that a TCFG changes: those selected whose ROWS differ (R185). -/
def Core.reconfigured (x : Core) (sel n : Nat) : List Nat :=
  ((List.range 32).filter fun t => sel.testBit t).filter fun t => (x.tile t).rows != n

theorem execTcfg_next {a b : Reg} {sel n : Nat} (hsel : ((s.core (coreKey c)).rx a).toNat = sel) (hn : ((s.core (coreKey c)).rx b).toNat = n)
    (hlt : sel < 2 ^ 32) (hle : n ≤ 256) :
    exec (.tcfg c a b) s = .next ((((s.updCore (coreKey c) Core.runGroups).updCore (coreKey c) Core.completeReleases).updCore (coreKey c)
      fun x => ((s.core (coreKey c)).reconfigured sel n).foldl (Core.configure n) x).retire (coreKey c) (pcOf s c)) := by
  have hcore : (((s.updCore (coreKey c) Core.runGroups).updCore (coreKey c) Core.completeReleases).core (coreKey c)) = s.core (coreKey c) := by
    rw [State.core_updCore_same, State.core_updCore_same, runGroups_none hidle.gather0 hidle.gather1, completeReleases_idle hidle]
  have hlegal : (decide (2 ^ 32 ≤ sel) || decide (256 < n)) = false := by
    rw [decide_eq_false (by omega), decide_eq_false (by omega)]
    rfl
  refine runInstr_next hr rfl ?_
  rw [run_bind_ok (needCompute_here hk _ s), run_getC_bind]
  dsimp only
  rw [hsel, hn, run_bind_ok (illegalIf_pass hlegal _ s), run_modC_bind, run_modC_bind, run_getC_bind, hcore, hidle.bg,
    if_neg (by decide), run_bind_ok (run_forEach_pass fun i hi => ?_)]
  · rfl
  · rw [if_neg fun h => hunits.not_active (List.mem_range.mp hi) h.1]
    rfl

end

/-! ### A release that was deferred -/

/-- The only accepted work is a release: it completes, and empties its tile where no open group holds a later one (R164, R184). -/
theorem completeRelease_alone {x : Core} {code writer : Nat} (hbg : x.bg = [.rel code writer]) (hst : (x.tile code).st = 4) :
    (x.completeRelease code).bg = [] ∧ ((x.completeRelease code).tile code).st = if x.groupReleases code then 4 else 0 := by
  have hfirst : x.firstBg (·.releases code) = some (0, .rel code writer) := by simp [Core.firstBg, hbg, BgOp.releases]
  have hdone : x.completeRelease code = x.finishRelease 0 code writer := by
    rw [Core.completeRelease, hfirst]
    rfl
  have hbg' : ((x.dropBg 0).returnCredits writer (x.tileCost code)).bg = [] := by
    rw [bg_returnCredits, Core.dropBg, hbg]
    rfl
  have htile : ((x.dropBg 0).returnCredits writer (x.tileCost code)).tile code = x.tile code := tile_returnCredits ..
  have hgroup : ((x.dropBg 0).returnCredits writer (x.tileCost code)).groupReleases code = x.groupReleases code :=
    groupReleases_returnCredits ..
  rw [hdone, Core.finishRelease, hbg', htile, hgroup]
  cases x.groupReleases code with
  | true =>
    rw [if_neg (by simp)]
    exact ⟨hbg', by rw [htile, hst]; rfl⟩
  | false =>
    rw [if_pos ⟨hst, rfl, rfl⟩, Core.emptyTile, tile_updTile_same]
    exact ⟨hbg', rfl⟩

end Sys2Proof.Machine
end

section
open Sys2Proof Sys2Proof.Machine Sys2Proof.Claims

/-- Settles O37: a TREL releases at once, a TCFG configures one tile after another, and a release that stands alone in the order of the
accepted work waits for nothing. -/
theorem tileReleaseAndConfigure : Obligations.TileReleaseAndConfigure := by
  unfold Obligations.TileReleaseAndConfigure
  intro s c hk
  refine ⟨fun hr h0 h1 hbg hunits => ?_, fun hp tile w hbg hst => ?_⟩
  · have hidle : (s.core (coreKey c)).Idle := ⟨hbg, h0, h1⟩
    refine ⟨fun tile htile hrows hst => ?_, fun a b ha hb => ?_⟩
    · refine ⟨_, execTrel_next hr hk hidle hunits htile hrows, ?_⟩
      simp only [State.core_retire_same, State.core_updCore_same, loopStep_tile, hidle.runGroupOf]
      exact release_idle hidle hst
    · refine ⟨_, execTcfg_next hr hk hidle hunits rfl rfl ha hb, fun j hj => ?_⟩
      rw [State.core_retire_same, loopStep_tile, State.core_updCore_same, State.core_updCore_same, State.core_updCore_same,
        runGroups_none h0 h1, completeReleases_idle hidle, tile_configured]
      simp only [Core.reconfigured, List.mem_filter, List.mem_range, hj, true_and, bne_iff_ne]
      by_cases hsel : ((s.core (coreKey c)).rx a).toNat.testBit j = true
      · by_cases hne : ((s.core (coreKey c)).tile j).rows = ((s.core (coreKey c)).rx b).toNat
        · rw [if_neg (fun h => h.2 hne), if_pos hsel]
          exact ⟨hne, fun _ h => absurd hne h⟩
        · rw [if_pos ⟨hsel, hne⟩, if_pos hsel]
          exact ⟨rfl, fun _ _ => rfl⟩
      · rw [if_neg (fun h => hsel h.1), if_neg hsel]
        exact ⟨rfl, fun h => absurd h hsel⟩
  · obtain ⟨hbg', hst'⟩ := completeRelease_alone hbg hst
    refine ⟨_, if_pos hp, ?_⟩
    rw [State.core_updCore_same]
    exact ⟨hbg', hst'⟩
end

section
/-! SUPPORT. The checks of MMF and MMGATHER where they pass, and what acceptance leaves (R164, R170, R176, R178, R187, R222). -/

namespace Sys2Proof.Machine
open Sys2Proof Sys2Proof.Claims

theorem run_tryCatch_ok {α : Type} {m : M α} {s t : State} {a : α} (h : m.run s = .ok a t) (f : Err → M α) :
    (tryCatch m f).run s = .ok a t := by
  simp only [EStateM.run] at h ⊢
  simp only [MonadExcept.tryCatch, tryCatchThe, MonadExceptOf.tryCatch, EStateM.tryCatch, h]

/-! ### Checks -/

theorem poisoned_sound {x : Core} {code : Nat} (h : (x.tile code).poison = false) : x.poisoned code = false := by
  rw [Core.poisoned, h, Bool.false_and]

section
variable {s : State} {k : Nat}

theorem checkT_pass {t : Nat} (hrows : ((s.core k).tile t).rows ≠ 0) (hst : ((s.core k).tile t).st = 2)
    (hcls : fmtClass ((s.core k).tile t).fmt ≠ 0) : (checkT k t).run s = .ok () s := by
  rw [checkT, run_getC_bind]
  dsimp only
  rw [if_neg (by simp [hrows, hst]), if_neg hcls]
  rfl

theorem checkZ_pass {z tokens : Nat} (hrows : ((s.core k).tile z).rows ≠ 0) (hst : ((s.core k).tile z).st ≠ 3)
    (hroom : tokens ≤ ((s.core k).tile z).rows) : (checkZ k z tokens).run s = .ok () s := by
  rw [checkZ, run_getC_bind]
  dsimp only
  rw [if_neg (by simp [hrows, hst]), if_neg (by omega)]
  rfl

theorem checkW_pass {arr w t : Nat} (h : wReady (s.core k) arr w t) :
    (checkW k arr w (fmtClass ((s.core k).tile t).fmt) false).run s = .ok () s := by
  obtain ⟨hst, hpoison, hcls⟩ := h
  have hfmt : (s.core k).weightFmt arr w false = some ((s.core k).tile (wCode arr w)).fmt := by simp [Core.weightFmt, hst]
  rw [checkW, run_getC_bind]
  dsimp only
  rw [hfmt, hpoison]
  dsimp only
  rw [if_neg (by simp [hcls]), if_neg (by simp)]
  rfl

/-- The checks of R176 and R222 pass on ready tiles. -/
theorem checkMmf_pass {arr t w z : Nat} {keep : Bool} (h : mmfReady (s.core k) arr t z) (hw : keep = false → wReady (s.core k) arr w t)
    (hcells : keep = true → ((s.core k).cells arr).cls = fmtClass ((s.core k).tile t).fmt) (acc : Bool) :
    (checkMmf k arr t w z acc keep false).run s = .ok () s := by
  obtain ⟨-, -, hbg, hrows, hst, hcls, hpoison, hzrows, hzst, hroom, hzpoison, hmode⟩ := h
  have hclass : (s.core k).cellClass arr = ((s.core k).cells arr).cls := by rw [Core.cellClass, hbg]; rfl
  have hopen : ¬ (arr = 1 ∧ (s.core k).mode1After = (true, true)) := fun ⟨h1, hboth⟩ => by
    rw [Core.mode1After, hbg, List.foldl_nil, hmode h1] at hboth
    exact Bool.false_ne_true (congrArg Prod.fst hboth)
  rw [checkMmf, run_bind_ok (checkT_pass hrows hst hcls), run_getC_bind]
  dsimp only
  rw [run_bind_ok (checkZ_pass hzrows hzst hroom), poisoned_sound hpoison, poisoned_sound hzpoison]
  rw [if_neg Bool.false_ne_true, if_neg (by simp)]
  cases keep with
  | true =>
    rw [if_pos rfl, if_neg (by simp [hclass, hcells]), if_neg hopen]
    rfl
  | false =>
    rw [if_neg Bool.false_ne_true, run_bind_ok (checkW_pass (hw rfl)), if_neg hopen]
    rfl

theorem needRoom_pass {arr : Nat} (h : (s.core k).bg = []) : (needRoom k arr).run s = .ok () s := by
  rw [needRoom, run_getC_bind, Core.queued, h]
  rfl

/-- The state in which a core's array instruction is checked: the open groups of these arrays have run (R188). -/
def State.groupsRun (s : State) (k : Nat) (arrs : List Nat) : State := s.updCore k fun c => arrs.foldl Core.runGroup c

theorem core_groupsRun (h : (s.core k).Ungrouped) (arrs : List Nat) : (s.groupsRun k arrs).core k = s.core k := by
  rw [State.groupsRun, State.core_updCore_same, h.runGroups]

/-- With no group open, the checks alone decide (R188). -/
theorem groupFirst_pass (h : (s.core k).Ungrouped) {arrs : List Nat} {body : M Unit}
    (hbody : body.run (s.groupsRun k arrs) = .ok () (s.groupsRun k arrs)) :
    (groupFirst k arrs body).run s = .ok () (s.groupsRun k arrs) := by
  have hnone : (arrs.any fun a => ((s.core k).group a).isSome && decide (8 ≤ (s.core k).queued a)) = false := by simp [h.group]
  rw [groupFirst, run_getC_bind]
  dsimp only
  rw [hnone, if_neg Bool.false_ne_true, run_modC_bind]
  exact run_tryCatch_ok hbody _

end

/-! ### MMF -/

/-- A released tile that accepted work names is RELEASING, and its release stands behind that work (R164, R184). -/
theorem release_busy {x : Core} (h : x.Ungrouped) {code : Nat} (hst : (x.tile code).st = 2) (hw : x.wTaken code = false)
    (hbusy : x.tileBusy code = true) :
    x.release code = (x.updTile code fun t => { t with st := 4 }).queueBg (.rel code (x.tile code).writer) := by
  have hun : (x.updTile code fun t => { t with st := 4 }).Ungrouped := ⟨h.gather0, h.gather1⟩
  rw [Core.release, if_neg (by simp [hst, hw]), if_pos hbusy, hun.queueRel]
  rfl

theorem wTaken_notW {x : Core} {code : Nat} (h : isW code = false) : x.wTaken code = false := by
  simp [Core.wTaken, BgOp.loads, h]

/-- What acceptance of a pass leaves: the pass, with its T tile's release behind it where REL is set (R164, R178). -/
theorem acceptPass_eq {x : Core} (h : x.Ungrouped) {arr t w z : Nat} {acc keep rel : Bool} {op : BgOp} {y : Core} (ht : t < 16)
    (hst : (x.tile t).st = 2)
    (hop : op = .pass arr t (x.tile t).fmt (wCode arr w) (zCode arr z) acc keep (x.zHolds (zCode arr z)))
    (hy : y = (x.queueBg op).zFull (zCode arr z) 10) :
    x.acceptPass arr t w z acc keep rel
      = if rel then (y.updTile t fun u => { u with st := 4 }).queueBg (.rel t (x.tile t).writer) else y := by
  have htile : y.tile t = x.tile t := by
    rw [hy]
    exact tile_updTile_other _ (by rw [zCode]; omega) _
  have hbusy : y.tileBusy t = true := by
    have hbg : y.bg = x.bg ++ [op] := by rw [hy]; rfl
    have htouch : op.touches t = true := by
      rw [hop, BgOp.touches, BgOp.reads]
      cases keep <;> simp
    simp [Core.tileBusy, hbg, htouch]
  have hun : y.Ungrouped := by rw [hy]; exact ⟨h.gather0, h.gather1⟩
  have hw : y.wTaken t = false := wTaken_notW (decide_eq_false (by omega))
  rw [← htile] at hst ⊢
  rw [← release_busy hun hst hw hbusy, hy, hop]
  rfl

section
variable {s : State} {c : CoreId} (hr : s.ready c = true) (hk : isCompute (coreKey c) = true) (hun : (s.core (coreKey c)).Ungrouped)
include hr hk hun

theorem execMmf_next {m : MmArgs} {keep : Bool} (hready : mmfReady (s.core (coreKey c)) m.arr.val m.t.toNat m.z.toNat)
    (hw : keep = false → wReady (s.core (coreKey c)) m.arr.val m.w.toNat m.t.toNat)
    (hcells : keep = true → ((s.core (coreKey c)).cells m.arr.val).cls = fmtClass ((s.core (coreKey c)).tile m.t.toNat).fmt) :
    exec (.mmf c m keep) s = .next (((s.groupsRun (coreKey c) [m.arr.val]).updCore (coreKey c)
      fun x => x.acceptPass m.arr.val m.t.toNat m.w.toNat m.z.toNat m.acc keep m.rel).retire (coreKey c) (pcOf s c)) := by
  have hcore := core_groupsRun hun [m.arr.val]
  obtain ⟨-, -, hbg, -⟩ := id hready
  have htaken : (s.core (coreKey c)).wTaken (wCode m.arr.val m.w.toNat) = false := Core.Idle.wTaken ⟨hbg, hun.gather0, hun.gather1⟩ _
  refine runInstr_next hr rfl ?_
  rw [run_bind_ok (needCompute_here hk _ s), run_bind_ok (groupFirst_pass hun ?_)]
  · rfl
  · rw [run_bind_ok (needRoom_pass (by rw [hcore, hbg])), run_getC_bind, hcore, htaken]
    exact checkMmf_pass (by rwa [hcore]) (by rwa [hcore]) (by rwa [hcore]) m.acc

end

/-! ### MMGATHER -/

/-- The Z tiles of an array's request are FULL (R187). -/
def Core.zFulls (arr : Nat) (l : List Nat) (x : Core) : Core := l.foldl (fun c j => c.zFull (zCode arr j) 10) x

theorem zFulls_frame (arr : Nat) (l : List Nat) (x : Core) : ∃ ts, x.zFulls arr l = { x with tiles := ts } := by
  induction l generalizing x with
  | nil => exact ⟨x.tiles, rfl⟩
  | cons j l ih => exact ih (x.zFull (zCode arr j) 10)

theorem tile_zFulls (arr : Nat) (l : List Nat) (x : Core) (code : Nat) : (x.zFulls arr l).tile code
    = if ∃ j ∈ l, zCode arr j = code then { x.tile code with st := 2, writer := 10, fmt := 0 } else x.tile code := by
  induction l generalizing x with
  | nil => simp [Core.zFulls]
  | cons j l ih =>
    rw [show x.zFulls arr (j :: l) = (x.zFull (zCode arr j) 10).zFulls arr l from rfl, ih]
    by_cases hj : code = zCode arr j
    · rw [hj, Core.zFull, tile_updTile_same]
      simp
    · rw [Core.zFull, tile_updTile_other _ hj]
      simp [Ne.symm hj]

/-- The request of an MMGATHER that opens a group, and the group (R187). -/
def Core.request (x : Core) (arr t z nw : Nat) (acc : Bool) : GReq :=
  { t := t, tf := (x.tile t).fmt, z := z, acc := acc, zHeld := (rangeFrom z nw).map fun j => x.zHolds (zCode arr j) }
def Core.newGroup (x : Core) (arr t w z nw : Nat) (acc rel : Bool) : Gather :=
  { w := w, nw := nw, cls := fmtClass (x.tile t).fmt, reqs := [x.request arr t z nw acc],
    rels := if rel then [(t, (x.tile t).writer)] else [], tokens := (x.tile t).rows * packOf (x.tile t).fmt, timed := x.gatherTimed }

/-- A core whose array has opened a group for a request, before the group runs (R187). -/
def Core.opened (x : Core) (arr t z nw : Nat) (rel : Bool) (g : Gather) : Core :=
  let y := (x.setGroup arr (some g)).zFulls arr (rangeFrom z nw)
  if rel then y.updTile t fun u => { u with st := 4 } else y

theorem joinGroup_opens {x : Core} {arr : Nat} (h : x.group arr = none) (t w z nw : Nat) (acc rel : Bool) {g : Gather}
    (hg : g = x.newGroup arr t w z nw acc rel) :
    x.joinGroup arr t w z nw acc rel = if (x.opened arr t z nw rel g).fill ≤ g.tokens then (x.opened arr t z nw rel g).runGroup arr
      else x.opened arr t z nw rel g := by
  subst hg
  rw [Core.joinGroup, h]
  simp only [Option.getD_none, Nat.zero_add, List.nil_append]
  rfl

section
variable (x : Core) (arr : Fin 2) (t z nw : Nat) (rel : Bool) (g : Gather)

theorem opened_frame : ∃ ts, x.opened arr t z nw rel g = { x.setGroup arr (some g) with tiles := ts } := by
  obtain ⟨ts, hts⟩ := zFulls_frame arr (rangeFrom z nw) (x.setGroup arr (some g))
  rw [Core.opened, hts]
  cases rel with
  | true => exact ⟨_, rfl⟩
  | false => exact ⟨ts, rfl⟩

theorem group_opened : (x.opened arr t z nw rel g).group arr = some g := by
  obtain ⟨ts, hts⟩ := opened_frame x arr t z nw rel g
  rw [hts]
  exact group_setGroup_same x arr (some g)
theorem group_opened_other : (x.opened arr t z nw rel g).group (1 - arr.val) = x.group (1 - arr.val) := by
  obtain ⟨ts, hts⟩ := opened_frame x arr t z nw rel g
  rw [hts]
  exact group_setGroup_left x arr (some g)
theorem bg_opened : (x.opened arr t z nw rel g).bg = x.bg := by
  obtain ⟨ts, hts⟩ := opened_frame x arr t z nw rel g
  rw [hts]
  exact bg_setGroup x arr (some g)
theorem fill_opened : (x.opened arr t z nw rel g).fill = x.fill := by
  obtain ⟨ts, hts⟩ := opened_frame x arr t z nw rel g
  rw [hts, Core.fill, Core.fill, Core.sr, Core.sr, Core.setGroup]
  split_ifs <;> rfl

variable {t z nw} (ht : t < 16)
include ht

theorem st_opened_z {j : Nat} (hj : j < nw) : ((x.opened arr t z nw rel g).tile (zCode arr (z + j))).st = 2 := by
  have hmem : ∃ i ∈ rangeFrom z nw, zCode arr i = zCode arr (z + j) := ⟨z + j, List.mem_map_of_mem (List.mem_range.mpr hj), rfl⟩
  have hy : ((x.setGroup arr (some g)).zFulls arr (rangeFrom z nw)).tile (zCode arr (z + j))
      = { x.tile (zCode arr (z + j)) with st := 2, writer := 10, fmt := 0 } := by
    rw [tile_zFulls, if_pos hmem, tile_setGroup]
  have hne : zCode arr (z + j) ≠ t := by rw [zCode]; omega
  rw [Core.opened]
  cases rel with
  | true => rw [if_pos rfl, tile_updTile_other _ hne, hy]
  | false => rw [if_neg Bool.false_ne_true, hy]

theorem st_opened_t : ((x.opened arr t z nw rel g).tile t).st = if rel then 4 else (x.tile t).st := by
  have hnot : ¬ ∃ i ∈ rangeFrom z nw, zCode arr i = t := fun ⟨i, _, hi⟩ => by rw [zCode] at hi; omega
  rw [Core.opened]
  cases rel with
  | true => rw [if_pos rfl, tile_updTile_same]; rfl
  | false => rw [if_neg Bool.false_ne_true, tile_zFulls, if_neg hnot, tile_setGroup]; rfl

end

section
variable {s : State} {c : CoreId} (hr : s.ready c = true) (hk : isCompute (coreKey c) = true)
include hr hk

theorem execMmgather_next {m : MmArgs} {nw : BitVec 2} (hz : m.z.toNat + nw.toNat < 8)
    (hready : ∀ j ≤ nw.toNat, mmfReady (s.core (coreKey c)) m.arr.val m.t.toNat (m.z.toNat + j)
      ∧ wReady (s.core (coreKey c)) m.arr.val (m.w.toNat + j) m.t.toNat) :
    exec (.mmgather c m nw) s = .next (((s.groupsRun (coreKey c) [m.arr.val]).updCore (coreKey c)
      fun x => x.joinGroup m.arr.val m.t.toNat m.w.toNat m.z.toNat (nw.toNat + 1) m.acc m.rel).retire (coreKey c) (pcOf s c)) := by
  obtain ⟨⟨h0, h1, hbg, -⟩, -⟩ := hready 0 (Nat.zero_le _)
  have hun : (s.core (coreKey c)).Ungrouped := ⟨h0, h1⟩
  have hcore := core_groupsRun hun [m.arr.val]
  refine runInstr_next hr rfl ?_
  rw [run_bind_ok (needCompute_here hk _ s), run_bind_ok (illegalIf_pass (decide_eq_false (by omega)) _ s), run_getC_bind]
  dsimp only
  rw [hun.group, run_bind_ok (needRoom_pass hbg)]
  dsimp only
  rw [if_neg Bool.false_ne_true, run_bind_ok (groupFirst_pass hun ?_)]
  · rfl
  · rw [run_getC_bind, hcore]
    refine run_forEach_pass fun j hj => ?_
    obtain ⟨hmmf, hw⟩ := hready j (Nat.lt_succ_iff.mp (List.mem_range.mp hj))
    rw [Core.Idle.wTaken ⟨hbg, h0, h1⟩]
    exact checkMmf_pass (by rwa [hcore]) (by rw [hcore]; exact fun _ => hw) (fun h => absurd h Bool.false_ne_true) m.acc

/-! ### MMFLUSH and TIMEOUT -/

/-- An MMFLUSH after which no group of its array stays open (R188, R189). -/
theorem execMmflush_next {arr : Fin 2} (hclosed : ((s.core (coreKey c)).runGroup arr.val).group arr.val = none) :
    exec (.mmflush c arr) s = .next ((s.updCore (coreKey c) fun x => x.runGroup arr.val).retire (coreKey c) (pcOf s c)) := by
  refine runInstr_next hr rfl ?_
  rw [run_bind_ok (needCompute_here hk _ s), run_modC_bind, run_getC_bind, State.core_updCore_same, hclosed]
  rfl

end

end Sys2Proof.Machine
end

section
/-! SUPPORT. What MMF and MMGATHER leave on a core with nothing accepted (R164, R176, R178, R187). -/

namespace Sys2Proof.Machine
open Sys2Proof Sys2Proof.Claims

theorem rx_queueBg (x : Core) (op : BgOp) (r : Reg) : (x.queueBg op).rx r = x.rx r := rfl
theorem rx_updTile (x : Core) (code : Nat) (g : Tile → Tile) (r : Reg) : (x.updTile code g).rx r = x.rx r := rfl
theorem bg_updTile (x : Core) (code : Nat) (g : Tile → Tile) : (x.updTile code g).bg = x.bg := rfl

/-- A pass accepted on an idle core, its Z tile and its T tile. -/
theorem acceptPass_idle {x : Core} (h : x.Idle) {arr t w z : Nat} (ht : t < 16) (hst : (x.tile t).st = 2) (acc keep rel : Bool) {y : Core}
    (hy : y = x.acceptPass arr t w z acc keep rel) :
    y.bg = [.pass arr t (x.tile t).fmt (wCode arr w) (zCode arr z) acc keep ((x.tile (zCode arr z)).st == 2)]
        ++ (if rel then [.rel t (x.tile t).writer] else [])
      ∧ (y.tile (zCode arr z)).st = 2 ∧ (y.tile (zCode arr z)).writer = 10
      ∧ y.tile t = (if rel then { x.tile t with st := 4 } else x.tile t) ∧ ∀ r, y.rx r = x.rx r := by
  have hne : zCode arr z ≠ t := by rw [zCode]; omega
  rw [acceptPass_eq h.ungrouped ht hst rfl rfl] at hy
  generalize hop : BgOp.pass arr t (x.tile t).fmt (wCode arr w) (zCode arr z) acc keep (x.zHolds (zCode arr z)) = op at hy
  have hbg : (x.queueBg op).bg = [op] := by rw [Core.queueBg, h.bg]; rfl
  rw [show ((x.tile (zCode arr z)).st == 2) = x.zHolds (zCode arr z) from rfl, hop]
  subst hy
  cases rel with
  | true =>
    simp only [if_true, tile_queueBg, tile_updTile_same, tile_updTile_other _ hne, Core.zFull, tile_updTile_other _ hne.symm, rx_queueBg,
      rx_updTile, implies_true, and_true]
    rw [Core.queueBg, bg_updTile, bg_updTile, hbg]
  | false =>
    simp only [Bool.false_eq_true, if_false, tile_queueBg, tile_updTile_same, Core.zFull, tile_updTile_other _ hne.symm, rx_queueBg,
      rx_updTile, implies_true, and_true, bg_updTile, hbg, List.append_nil]

/-- A group opened on an idle core that does not run yet, and one that runs at once. -/
theorem joinGroup_idle {x : Core} (h : x.Idle) (arr : Fin 2) {t : Nat} (w z nw : Nat) (acc rel : Bool)
    {g : Gather} (hg : g = x.newGroup arr t w z nw acc rel) :
    let y := x.joinGroup arr t w z nw acc rel
    (g.tokens < x.fill → y.bg = [] ∧ y.group arr = some g)
      ∧ (x.fill ≤ g.tokens → y.group arr = none ∧ y.bg = [.gather arr g.w g.nw 0 g.reqs] ++ g.rels.map fun r => .rel r.1 r.2)
      ∧ ∀ code, y.tile code = (x.opened arr t z nw rel g).tile code := by
  have hbg := (bg_opened x arr t z nw rel g).trans h.bg
  have hgroup := group_opened x arr t z nw rel g
  have hreads : ∀ r, (x.opened arr t z nw rel g).readsLater (1 - arr.val) r = false := fun r => by
    rw [Core.readsLater, group_opened_other, h.group]
    rfl
  have hrun : (x.opened arr t z nw rel g).runGroup arr = (x.opened arr t z nw rel g).groupRun arr g :=
    runGroup_some hgroup (by rw [Core.queued, hbg]; exact Nat.zero_lt_succ 7)
  dsimp only
  rw [joinGroup_opens (h.group arr) t w z nw acc rel hg, fill_opened, hrun]
  split_ifs with hfill
  · refine ⟨fun hlt => absurd hfill (not_le.mpr hlt), fun _ => ⟨group_groupRun .., ?_⟩, tile_groupRun _ arr g⟩
    rw [bg_groupRun, hbg]
    simp [hreads]
  · exact ⟨fun _ => ⟨hbg, hgroup⟩, fun hle => absurd hle hfill, fun _ => rfl⟩

end Sys2Proof.Machine
end

section
open Sys2Proof Sys2Proof.Machine Sys2Proof.Claims

/-- Settles O39: the checks pass on ready tiles, acceptance puts a pass or a group into the order of the accepted work, and a group that
runs takes its releases with it. -/
theorem forwardInstructionsAreAccepted : Obligations.ForwardInstructionsAreAccepted := by
  unfold Obligations.ForwardInstructionsAreAccepted
  dsimp only
  refine ⟨fun s c m keep hr hk hready hw hcells => ?_, fun s c m nw hk hr hz hready => ?_,
    fun s c arr hk => ⟨fun hr hnone => ?_, fun g hg hroom => ⟨fun hr => ?_, fun hp htimed => ?_⟩⟩⟩
  · obtain ⟨h0, h1, hbg, -, hst, -⟩ := id hready
    have hidle : (s.core (coreKey c)).Idle := ⟨hbg, h0, h1⟩
    obtain ⟨hpass, hz, hwriter, ht, hrx⟩ := acceptPass_idle hidle (arr := m.arr.val) (w := m.w.toNat) (z := m.z.toNat) m.t.isLt hst m.acc keep m.rel rfl
    refine ⟨_, execMmf_next hr hk hidle.ungrouped hready hw hcells, ?_⟩
    simp only [State.core_retire_same, State.core_updCore_same, core_groupsRun hidle.ungrouped, loopStep_bg, loopStep_tile, loopStep_rx]
    exact ⟨hpass, hz, hwriter, ht, hrx, rfl⟩
  · obtain ⟨⟨h0, h1, hbg, -, hst, -⟩, -⟩ := hready 0 (Nat.zero_le _)
    have hidle : (s.core (coreKey c)).Idle := ⟨hbg, h0, h1⟩
    obtain ⟨hopen, hrun, htile⟩ := joinGroup_idle hidle m.arr (t := m.t.toNat) m.w.toNat m.z.toNat (nw.toNat + 1) m.acc m.rel rfl
    refine ⟨_, execMmgather_next hr hk hz hready, ?_⟩
    simp only [State.core_retire_same, State.core_updCore_same, core_groupsRun hidle.ungrouped, loopStep_bg, loopStep_tile, loopStep_group, htile]
    refine ⟨fun hlt => ?_, fun hle => ?_, fun j hj => st_opened_z _ m.arr m.rel _ m.t.isLt (Nat.lt_succ_of_le hj), ?_⟩
    · obtain ⟨hnone, hgroup⟩ := hopen hlt
      exact ⟨hnone, _, hgroup, rfl, rfl, rfl, rfl, rfl⟩
    · obtain ⟨hnone, hgather⟩ := hrun hle
      exact ⟨hnone, (s.core (coreKey c)).request m.arr.val m.t.toNat m.z.toNat (nw.toNat + 1) m.acc, rfl, rfl, rfl, hgather⟩
    · rw [st_opened_t _ m.arr m.rel _ m.t.isLt, hst]
  · have hsame := runGroup_none hnone
    refine ⟨_, execMmflush_next hr hk (by rw [hsame, hnone]), ?_⟩
    rw [State.core_retire_same, State.core_updCore_same, hsame, loopStep_bg]
    exact ⟨rfl, loopStep_pc fun _ _ => rfl⟩
  · have hrun := runGroup_some hg hroom
    refine ⟨_, execMmflush_next hr hk (by rw [hrun, group_groupRun]), ?_⟩
    simp only [State.core_retire_same, State.core_updCore_same, hrun, loopStep_bg, loopStep_group]
    exact ⟨group_groupRun .., group_groupRun_other .., bg_groupRun ..⟩
  · have hrun := runGroup_some hg hroom
    refine ⟨s.updCore (coreKey c) fun x => x.runGroup arr.val, ?_, ?_⟩
    · dsimp only [exec, execGatherTimeout]
      rw [hg]
      exact if_pos (by rw [htimed, hp]; rfl)
    · rw [State.core_updCore_same, hrun]
      exact ⟨group_groupRun .., group_groupRun_other .., bg_groupRun ..⟩
end

section
/-! SUPPORT. TMOV where it is accepted (R182). -/

namespace Sys2Proof.Machine
open Sys2Proof Sys2Proof.Claims

/-- A guard that never stops. -/
theorem ite_guard_pass {α : Type} {p q : Prop} [Decidable p] [Decidable q] {a b : α} (h : p → ¬ q) :
    (if p then if q then a else b else b) = b := by
  by_cases hp : p
  · rw [if_pos hp, if_neg (h hp)]
  · rw [if_neg hp]

theorem isZ_of_not_T {tile : BitVec 6} {dir : BitVec 2} (hT : tile.toNat < 16 ↔ dir = 1) (hlt : tile.toNat < 32) (hdir : dir ≠ 1) :
    isZ tile.toNat = true :=
  decide_eq_true ⟨Nat.not_lt.mp fun h => hdir (hT.mp h), hlt⟩

/-- R182 refuses no form that is as it asks. -/
theorem tmovIllegal_ready {x : Core} {tile : BitVec 6} {pk : BitVec 4} {dir : BitVec 2} {tfmt ofmt : BitVec 5}
    (h : tmovReady x tile pk dir tfmt ofmt) : tmovIllegal tile.toNat dir.toNat tfmt.toNat ofmt.toNat = false := by
  obtain ⟨-, hT, hlt, hout, hin, hz, -⟩ := h
  have hcases : ∀ d : BitVec 2, d = 0 ∨ d = 1 ∨ d = 2 ∨ d = 3 := by decide
  obtain rfl | rfl | rfl | rfl := hcases dir
  · obtain ⟨rfl, ho⟩ := hout (.inl rfl)
    simp [tmovIllegal, isZ_of_not_T hT hlt, ho]
  · obtain ⟨ht, ho⟩ := hin rfl
    simp [tmovIllegal, isT, hT.mpr rfl, ht, ho]
  · obtain ⟨ht, rfl, -⟩ := hz rfl
    simp [tmovIllegal, isZ_of_not_T hT hlt, ht]
  · obtain ⟨rfl, ho⟩ := hout (.inr rfl)
    simp [tmovIllegal, isZ_of_not_T hT hlt, ho]

/-- What acceptance of a TMOV leaves: its place behind the accepted work, and its destination FULL where that is a tile (R182). -/
def Core.acceptTmov (code pk dst : Nat) (dir : BitVec 2) (tfmt ofmt : Nat) (x : Core) : Core :=
  let y := x.queueBg (.tmov code pk (x.rowBase (pNo pk)) dir.toNat tfmt ofmt (x.zHolds code))
  if dir = 0 then y else y.updTile dst fun t => { t with st := 2, writer := 9, fmt := tfmt }

section
variable (code pk dst : Nat) (dir : BitVec 2) (tfmt ofmt : Nat) (x : Core)

theorem acceptTmov_frame : ∃ ts, x.acceptTmov code pk dst dir tfmt ofmt
    = { x with bg := x.bg ++ [.tmov code pk (x.rowBase (pNo pk)) dir.toNat tfmt ofmt (x.zHolds code)], tiles := ts } := by
  rw [Core.acceptTmov]
  split_ifs
  · exact ⟨x.tiles, rfl⟩
  · exact ⟨_, rfl⟩

theorem bg_acceptTmov : (x.acceptTmov code pk dst dir tfmt ofmt).bg
    = x.bg ++ [.tmov code pk (x.rowBase (pNo pk)) dir.toNat tfmt ofmt (x.zHolds code)] := by
  obtain ⟨ts, h⟩ := acceptTmov_frame code pk dst dir tfmt ofmt x
  rw [h]

theorem rx_acceptTmov (r : Reg) : (x.acceptTmov code pk dst dir tfmt ofmt).rx r = x.rx r := by
  obtain ⟨ts, h⟩ := acceptTmov_frame code pk dst dir tfmt ofmt x
  rw [h]
  rfl

theorem tile_acceptTmov_same : (x.acceptTmov code pk dst dir tfmt ofmt).tile dst
    = if dir = 0 then x.tile dst else { x.tile dst with st := 2, writer := 9, fmt := tfmt } := by
  rw [Core.acceptTmov]
  dsimp only
  split_ifs
  · rfl
  · rw [tile_updTile_same, tile_queueBg]

theorem tile_acceptTmov_other {j : Nat} (hj : j ≠ dst) : (x.acceptTmov code pk dst dir tfmt ofmt).tile j = x.tile j := by
  rw [Core.acceptTmov]
  split_ifs
  · rfl
  · rw [tile_updTile_other _ hj, tile_queueBg]

end

section
variable {s : State} {c : CoreId} {tile : BitVec 6} {pk : BitVec 4} {dir : BitVec 2} {tfmt ofmt : BitVec 5} (hr : s.ready c = true)
  (hk : isCompute (coreKey c) = true) (hun : (s.core (coreKey c)).Ungrouped) (h : tmovReady (s.core (coreKey c)) tile pk dir tfmt ofmt)
include hr hk hun h

theorem execTmov_next {dst : Nat} (hdst : (if dir = 2 then pk.toNat else tile.toNat) = dst) :
    exec (.tmov c tile pk dir tfmt ofmt) s = .next (((s.updCore (coreKey c) fun x => (x.runGroupOf tile.toNat).runGroupOf dst).updCore
      (coreKey c) (Core.acceptTmov tile.toNat pk.toNat dst dir tfmt.toNat ofmt.toNat)).retire (coreKey c) (pcOf s c)) := by
  have hlegal := tmovIllegal_ready h
  obtain ⟨hrows, hT, hlt, -, -, hz, hsrc⟩ := h
  have hrowsOf : (s.core (coreKey c)).rowsOf tile.toNat = ((s.core (coreKey c)).tile tile.toNat).rows := by
    rw [Core.rowsOf, if_neg]
    simp only [isW, decide_eq_true_eq]
    omega
  have hcore : (s.updCore (coreKey c) fun x => (x.runGroupOf tile.toNat).runGroupOf dst).core (coreKey c) = s.core (coreKey c) := by
    rw [State.core_updCore_same, hun.runGroupOf, hun.runGroupOf]
  refine runInstr_next hr rfl ?_
  rw [run_bind_ok (needCompute_here hk _ s), run_bind_ok (needTile_pass (by omega) _ s), run_bind_ok (illegalIf_pass hlegal _ s),
    run_getC_bind, if_neg (by rwa [hrowsOf])]
  dsimp only
  rw [ite_guard_pass fun hread => ?state, ite_guard_pass fun hto => ?destination, if_neg fun hbad => ?poison, run_modC_bind, run_getC_bind,
    hdst, hcore, hun.gathering, hun.gathering]
  · rfl
  case state =>
    obtain ⟨hst, -⟩ := hsrc hread
    rcases hst with hst | hst | hst <;> simp [hst]
  case destination =>
    obtain ⟨-, -, hdrows, hsize⟩ := hz hto
    rw [hrowsOf]
    exact fun h => h.elim hdrows fun hne => hne hsize
  case poison =>
    obtain ⟨hread, -, hpoisoned⟩ := hbad
    rw [poisoned_sound (hsrc hread).2] at hpoisoned
    exact Bool.false_ne_true hpoisoned

end

end Sys2Proof.Machine
end

section
/-! SUPPORT. The accepted work of a core stays through detections, errors and rows that a TMOV moves (R166, R183, R193, R410). -/

namespace Sys2Proof.Machine
open Sys2Proof Sys2Proof.Claims

theorem bg_updCore {g : Core → Core} (hg : ∀ c, (g c).bg = c.bg) (s : State) (j k : Nat) :
    ((s.updCore j g).core k).bg = (s.core k).bg := by
  by_cases h : k = j
  · rw [h, State.core_updCore_same, hg]
  · rw [State.core_updCore_other s h]

/-- A fold keeps what each of its steps keeps. -/
theorem foldl_keeps {α β γ : Type} {g : β → γ} {f : β → α → β} (h : ∀ b a, g (f b a) = g b) (l : List α) (b : β) :
    g (l.foldl f b) = g b := by
  induction l generalizing b with
  | nil => rfl
  | cons a l ih => rw [List.foldl_cons, ih, h]

section
variable (s : State) (k : Nat)

theorem cores_record (u : Nat) (r : Report) : (s.record u r).cores = s.cores := by
  have hpost : ∀ t : State, (t.postRecorder u r.code r.loc).cores = t.cores := fun t => by
    rw [State.postRecorder]
    split_ifs
    · obtain ⟨d, h⟩ := postAt_frame t 0 (routeIn u (t.reportStop u r.code r.loc) dieCtlStop)
      rw [h]
    · rfl
  rw [State.record]
  dsimp only
  split_ifs
  · rfl
  · exact hpost _
  · exact hpost _

theorem bg_detect (u : Nat) (r : Report) : ((s.detect u r).core k).bg = (s.core k).bg := by
  have hrec : ∀ t : State, t.cores = s.cores → ((t.record u r).core k).bg = (s.core k).bg := fun t ht => by
    rw [core_congr ((cores_record t u r).trans ht)]
  rw [State.detect]
  split_ifs
  · rw [State.notice, bg_updCore (by intro; rfl)]
    exact hrec _ rfl
  · rfl
  · exact hrec _ rfl

theorem bg_bgMchk (j code : Nat) (addr : W64) : ((s.bgMchk j code addr).core k).bg = (s.core k).bg := by
  rw [State.bgMchk, State.raiseMchk, bg_updCore (by intro; rfl)]

theorem bg_meetRow (j code r sev : Nat) : (((s.meetRow j code r sev).2).core k).bg = (s.core k).bg := by
  refine foldl_keeps (g := fun acc : Bool × State => (acc.2.core k).bg) (fun acc b => ?_) _ (false, s)
  dsimp only
  split_ifs
  · exact (bg_updCore (by intro; rfl) _ j k).trans (bg_detect ..)
  · exact bg_detect ..

theorem bg_zRowBg (j code r : Nat) (held : Bool) : ((s.zRowBg j code r held).2.2.core k).bg = (s.core k).bg := by
  rw [State.zRowBg]
  split_ifs
  · exact bg_meetRow ..
  · rfl

theorem cores_armedErr (u : Nat) (nums : List Nat) (loc : Nat) : (s.armedErr u nums loc).2.cores = s.cores := by
  have htake : ∀ (t : State) (num : Nat), (t.takeArmed u num loc).2.cores = t.cores := fun t num => by
    rw [State.takeArmed]
    split <;> rfl
  refine foldl_keeps (g := fun acc : Nat × State => acc.2.cores) (fun acc num => ?_) nums (0, s)
  rw [← htake acc.2 num]
  cases acc.2.takeArmed u num loc with
  | mk a t => cases a <;> rfl

theorem bg_ocWrite (j a : Nat) (bytes : List Byte) : ((s.ocWrite j a bytes).core k).bg = (s.core k).bg := by
  rw [State.ocWrite, State.ocStore]
  dsimp only
  rw [bg_updCore (by intro; rfl), core_congr (cores_armedErr ..)]

theorem bg_putRow (j code r v : Nat) (scales : List (Nat × Nat)) : ((s.putRow j code r v scales).core k).bg = (s.core k).bg := by
  rw [State.putRow]
  dsimp only
  rw [bg_updCore (by intro; rfl), core_congr (cores_armedErr ..)]

theorem bg_ocReadBg (j a n : Nat) : ((s.ocReadBg j a n).2.2.core k).bg = (s.core k).bg := by
  rw [State.ocReadBg]
  refine foldl_keeps (g := fun acc : Bool × State => (acc.2.core k).bg) (fun acc b => ?_) _ (false, s)
  dsimp only
  split_ifs
  · exact (bg_updCore (by intro; rfl) _ j k).trans (bg_detect ..)
  · exact (bg_bgMchk ..).trans (bg_detect ..)

theorem bg_poisonTile (j code det : Nat) : ((s.poisonTile j code det).core k).bg = (s.core k).bg := by
  rw [State.poisonTile, bg_updCore (by intro; rfl)]

theorem bg_errMchk (bad : Bool) (j code : Nat) (addr : W64) :
    ((if bad then s.bgMchk j code addr else s).core k).bg = (s.core k).bg := by
  split_ifs
  · exact bg_bgMchk ..
  · rfl

theorem bg_errPoison (bad : Bool) (j code det : Nat) :
    ((if bad then s.poisonTile j code det else s).core k).bg = (s.core k).bg := by
  split_ifs
  · exact bg_poisonTile ..
  · rfl

/-- A row of a TMOV leaves the accepted work as it was, whatever it moves. -/
theorem bg_tmovRow (j tile pk base dir tfmt ofmt : Nat) (held : Bool) (r : Nat) :
    ((s.tmovRow j tile pk base dir tfmt ofmt held r).core k).bg = (s.core k).bg := by
  rw [State.tmovRow]
  by_cases h0 : dir = 0
  · rw [if_pos h0]
    exact (bg_updCore (by intro; rfl) _ j k).trans ((bg_ocWrite ..).trans ((bg_errMchk ..).trans (bg_zRowBg ..)))
  · rw [if_neg h0]
    by_cases h2 : dir = 2
    · rw [if_pos h2]
      refine (bg_errPoison ..).trans ((bg_updCore (by intro; rfl) _ j k).trans ((bg_putRow ..).trans ?_))
      exact foldl_keeps (g := fun acc : List Nat × Bool × State => (acc.2.2.core k).bg)
        (fun acc q => (bg_errMchk ..).trans (bg_zRowBg ..)) _ ([], false, s)
    · rw [if_neg h2]
      exact (bg_errPoison ..).trans ((bg_updCore (by intro; rfl) _ j k).trans ((bg_putRow ..).trans (bg_ocReadBg ..)))

end

/-! ### A TMOV that runs -/

/-- The first rows of a TMOV, one after another (R183). -/
def State.tmovRows (s : State) (k tile pk base dir tfmt ofmt : Nat) (held : Bool) (n : Nat) : State :=
  (List.range n).foldl (fun s r => s.tmovRow k tile pk base dir tfmt ofmt held r) s

theorem tmovRows_succ (s : State) (k tile pk base dir tfmt ofmt : Nat) (held : Bool) (n : Nat) :
    s.tmovRows k tile pk base dir tfmt ofmt held (n + 1)
      = (s.tmovRows k tile pk base dir tfmt ofmt held n).tmovRow k tile pk base dir tfmt ofmt held n := by
  rw [State.tmovRows, List.range_succ, List.foldl_concat, ← State.tmovRows]

theorem bg_tmovRows (s : State) (k j tile pk base dir tfmt ofmt : Nat) (held : Bool) (n : Nat) :
    ((s.tmovRows j tile pk base dir tfmt ofmt held n).core k).bg = (s.core k).bg :=
  foldl_keeps (g := fun t : State => (t.core k).bg) (fun t r => bg_tmovRow t k j tile pk base dir tfmt ofmt held r) _ s

/-- The state in which a TMOV moves its rows: a tile that it writes holds no data yet (R182). -/
def State.tmovCleared (s : State) (k tile pk dir : Nat) : State :=
  if dir = 0 then s else s.updCore k fun c => c.updTile (if dir = 2 then pk else tile) fun t =>
    { t with poison := false, data := [], scale := [] }

theorem bg_tmovCleared (s : State) (k tile pk dir : Nat) : ((s.tmovCleared k tile pk dir).core k).bg = (s.core k).bg := by
  by_cases h : dir = 0
  · rw [State.tmovCleared, if_pos h]
  · rw [State.tmovCleared, if_neg h, bg_updCore (by intro; rfl)]

section
variable {s : State} {c : CoreId} {tile pk base dir tfmt ofmt : Nat} {held : Bool} (hp : s.corePowered (coreKey c) = true)
  (hbg : (s.core (coreKey c)).bg = [.tmov tile pk base dir tfmt ofmt held])
include hp hbg

/-- A TMOV that stands alone in the accepted work runs, and is accepted work no more (R166, R182). -/
theorem execTmovRun_alone {n : Nat}
    (hn : n = if dir = 2 then ((s.core (coreKey c)).tile pk).rows else (s.core (coreKey c)).rowsOf tile) :
    exec (.tmovRun c) s = .next (((s.tmovCleared (coreKey c) tile pk dir).tmovRows (coreKey c) tile pk base dir tfmt ofmt held n).updCore
      (coreKey c) fun x => x.dropBg 0) := by
  have hfirst : (s.core (coreKey c)).firstBg (·.isTmov) = some (0, .tmov tile pk base dir tfmt ofmt held) := by
    simp [Core.firstBg, hbg, BgOp.isTmov]
  have hfree : (s.core (coreKey c)).free? 0 (.tmov tile pk base dir tfmt ofmt held) = true := rfl
  rw [exec, execTmovRun]
  dsimp only
  rw [if_pos hp, hfirst]
  dsimp only
  rw [if_pos hfree, hn]
  rfl

omit hp in
theorem bg_tmovRun_alone (n : Nat) :
    ((((s.tmovCleared (coreKey c) tile pk dir).tmovRows (coreKey c) tile pk base dir tfmt ofmt held n).updCore
      (coreKey c) fun x => x.dropBg 0).core (coreKey c)).bg = [] := by
  rw [State.core_updCore_same, Core.dropBg, bg_tmovRows, bg_tmovCleared, hbg]
  rfl

end

end Sys2Proof.Machine
end

section
/-! SUPPORT. An FP32 element converted to FP32 again is as it was, and a NaN is the canonical NaN (R195, R202, R205, R207). -/

namespace Sys2Proof.Machine
open Sys2Proof Sys2Proof.Claims

/-- A multiple that neither exceeds the largest mantissa nor the largest exponent does not overflow (R205). -/
theorem dyadicLt_of_le {n m : Nat} {q e : Int} (hm : m ≤ n) (he : e ≤ q) : dyadicLt n q m e = false := by
  rw [dyadicLt]
  split_ifs with h
  · rw [le_antisymm he h, sub_self]
    exact decide_eq_false (not_lt.mpr hm)
  · rw [Nat.shiftLeft_eq]
    exact decide_eq_false (not_lt.mpr (hm.trans (Nat.le_mul_of_pos_right n (Nat.two_pow_pos _))))

/-- A value on its own grid, below the overflow limit, is encoded exactly (R205, R207). -/
theorem encode_of_grid {f : Fmt} {mode : RMode} {neg : Bool} {m : Nat} {e : Int} (hm : m ≠ 0) (hgrid : f.grid m e = e)
    (hmax : m ≤ f.maxM) (he : e ≤ f.maxE) :
    (f.encode mode (.fin neg m e)).1 = f.signed neg (if m < 2 ^ f.mb then m else (e + f.mb + f.bias - 1).toNat * 2 ^ f.mb + m) := by
  have hround : roundTo mode neg m e e = (m, false) := by
    rw [roundTo, if_pos le_rfl, sub_self]
    rfl
  have hfits : f.overflows mode neg m e = false := by
    rw [Fmt.overflows, if_neg hm, hgrid]
    dsimp only
    rw [hround]
    exact dyadicLt_of_le hmax he
  rw [Fmt.encode, if_neg hm, hgrid]
  dsimp only
  rw [hround, hfits]
  rfl

/-- A subnormal of FP32, or a zero. -/
theorem encode_subnormal (neg : Bool) {m : Nat} (h : m < 2 ^ 23) :
    (fmtFp32.encode 0 (.fin neg m (-149))).1 = fmtFp32.signed neg m := by
  by_cases hm : m = 0
  · rw [hm]
    rfl
  · have hgrid : fmtFp32.grid m (-149) = -149 := by
      have := (Nat.log2_lt hm).mpr h
      simp only [Fmt.grid, topExp, fmtFp32]
      omega
    rw [encode_of_grid hm hgrid (by simp only [fmtFp32]; omega) (by decide)]
    exact congrArg _ (if_pos h)

/-- A normal number of FP32. -/
theorem encode_normal (neg : Bool) {m ex : Nat} (h : m < 2 ^ 23) (h0 : ex ≠ 0) (hex : ex < 255) :
    (fmtFp32.encode 0 (.fin neg (2 ^ 23 + m) ((ex : Int) - 150))).1 = fmtFp32.signed neg (ex * 2 ^ 23 + m) := by
  have hm : 2 ^ 23 + m ≠ 0 := by omega
  have hlog : (2 ^ 23 + m).log2 = 23 := (Nat.log2_eq_iff hm).mpr ⟨by omega, by omega⟩
  have hgrid : fmtFp32.grid (2 ^ 23 + m) ((ex : Int) - 150) = (ex : Int) - 150 := by
    simp only [Fmt.grid, topExp, fmtFp32, hlog]
    omega
  rw [encode_of_grid hm hgrid (by simp only [fmtFp32]; omega) (by simp only [fmtFp32]; omega), if_neg (by simp only [fmtFp32]; omega)]
  refine congrArg _ ?_
  simp only [fmtFp32]
  omega

/-- The sign, exponent and mantissa bits of an FP32 element make it up. -/
theorem signed_bits {v : Nat} (h : v < 2 ^ 32) : fmtFp32.signed (v.testBit 31) ((v >>> 23) % 2 ^ 8 * 2 ^ 23 + v % 2 ^ 23) = v := by
  rw [Fmt.signed, Nat.testBit_eq_decide_div_mod_eq, b2n, Nat.shiftRight_eq_div_pow]
  simp only [fmtFp32, decide_eq_true_eq]
  split_ifs <;> omega

/-- The value that an FP32 element encodes, by its exponent bits (R195). -/
theorem fpDec_eq (v : Nat) : fpDec v = if (v >>> 23) % 2 ^ 8 = 255 then (if v % 2 ^ 23 = 0 then .inf (v.testBit 31) else .nan)
    else if (v >>> 23) % 2 ^ 8 = 0 then .fin (v.testBit 31) (v % 2 ^ 23) (-149)
    else .fin (v.testBit 31) (2 ^ 23 + v % 2 ^ 23) ((((v >>> 23) % 2 ^ 8 : Nat) : Int) - 150) := by
  have hexp : ∀ x : Nat, (x : Int) - 127 - (23 : Nat) = (x : Int) - 150 := fun x => by omega
  have hnone : ∀ a b : FV, (if fmtFp32 = fmtE4m3 ∧ v % 128 = 127 then a else b) = b := fun a b => if_neg fun h => absurd h.1 (by decide)
  have hieee : (fmtFp32.ieee = true ∧ (v >>> fmtFp32.mb) % 2 ^ fmtFp32.eb = 2 ^ fmtFp32.eb - 1) = ((v >>> 23) % 2 ^ 8 = 255) :=
    propext (and_iff_right rfl)
  rw [fpDec, Fmt.decode]
  simp only [hieee, hnone]
  simp only [fmtFp32, hexp]
  rfl

/-- Decoding and encoding again changes no FP32 element but a NaN (R195, R202). -/
theorem encode_fpDec {v : Nat} (h : v < 2 ^ 32) :
    (encodeElem 0 0 (fpDec v)).1 = if (fpDec v).isNan then 0x7FC00000 else v := by
  have hm : v % 2 ^ 23 < 2 ^ 23 := Nat.mod_lt _ (by decide)
  have hex : (v >>> 23) % 2 ^ 8 < 2 ^ 8 := Nat.mod_lt _ (by decide)
  have hbits := signed_bits h
  have henc : encodeElem 0 0 (fpDec v) = fmtFp32.encode 0 (fpDec v) := rfl
  rw [henc, fpDec_eq]
  by_cases htop : (v >>> 23) % 2 ^ 8 = 255
  · rw [if_pos htop]
    by_cases hzero : v % 2 ^ 23 = 0
    · rw [htop, hzero] at hbits
      rw [if_pos hzero]
      exact hbits
    · rw [if_neg hzero]
      rfl
  · rw [if_neg htop]
    by_cases hsub : (v >>> 23) % 2 ^ 8 = 0
    · rw [hsub, Nat.zero_mul, Nat.zero_add] at hbits
      rw [if_pos hsub, encode_subnormal _ hm, hbits]
      rfl
    · rw [if_neg hsub, encode_normal _ hm hsub (by omega), hbits]
      rfl

end Sys2Proof.Machine
end

section
/-! SUPPORT. What a TMOV of a Z tile to the operand cache as FP32 leaves there (R182, R183, R202). -/

namespace Sys2Proof.Machine
open Sys2Proof Sys2Proof.Claims

/-- A row of a Z tile as a TMOV writes it as FP32 (R183, R202). -/
def Tile.fp32Row (t : Tile) (r : Nat) : Nat := packBits 32 ((List.range 32).map fun p => (encodeElem 0 0 (fpDec (t.z r p))).1)

/-- The first operand-cache byte of a row of a move as FP32 (R183). -/
def fp32Addr (base r : Nat) : Nat := (base * 64 + r * 128) % ocSize

section
variable {s : State} {k tile : Nat} (harm : s.armed.get [] (unitOfKey k) = []) (hbad : ((s.core k).tile tile).bad = [])
include harm

/-- A write of the operand cache with no armed error changes its bytes, and otherwise at most the errors noted there. -/
theorem ocWrite_unarmed (a : Nat) (bytes : List Byte) :
    ∃ e : Core → List Nat, s.ocWrite k a bytes
      = s.updCore k fun c => { c with oc := putBytes c.oc (ocBytesAt a bytes), ocBad := e c } := by
  rw [State.ocWrite, State.ocStore, armedErr_unarmed harm]
  exact ⟨_, rfl⟩

include hbad

omit harm in
theorem zRowBg_sound (r : Nat) : s.zRowBg k tile r true = ((List.range 32).map (((s.core k).tile tile).z r), false, s) := by
  rw [State.zRowBg, if_pos rfl, State.meetRow, hbad]
  rfl

theorem tmovRow_fp32 (pk base r : Nat) : (s.tmovRow k tile pk base 0 0 0 true r).armed = s.armed
    ∧ ((s.tmovRow k tile pk base 0 0 0 true r).core k).tile tile = (s.core k).tile tile
    ∧ ((s.tmovRow k tile pk base 0 0 0 true r).core k).oc
      = putBytes (s.core k).oc (ocBytesAt (fp32Addr base r) (leBytes 128 (((s.core k).tile tile).fp32Row r))) := by
  obtain ⟨e, hwrite⟩ := ocWrite_unarmed harm (fp32Addr base r) (leBytes 128 (((s.core k).tile tile).fp32Row r))
  have hrow : ∃ f, s.tmovRow k tile pk base 0 0 0 true r
      = (s.ocWrite k (fp32Addr base r) (leBytes 128 (((s.core k).tile tile).fp32Row r))).updCore k fun c => c.orMxflags f := by
    rw [State.tmovRow, if_pos rfl, zRowBg_sound hbad, Tile.fp32Row, show elemBits 0 = 32 from rfl, fp32Addr]
    simp only [List.map_map, Bool.false_eq_true, if_false, Nat.mul_assoc, Nat.reduceMul]
    exact ⟨_, rfl⟩
  obtain ⟨f, hrow⟩ := hrow
  rw [hrow, hwrite, State.core_updCore_same, State.core_updCore_same]
  exact ⟨rfl, rfl, rfl⟩

end

/-- The states that the rows of a move as FP32 go through: the operand cache holds the rows moved so far, and of the core only its errors
and flags may differ besides. -/
theorem tmovRows_fp32 {s : State} {k tile : Nat} (harm : s.armed.get [] (unitOfKey k) = []) (hbad : ((s.core k).tile tile).bad = [])
    (pk base n : Nat) : (s.tmovRows k tile pk base 0 0 0 true n).armed = s.armed
      ∧ ((s.tmovRows k tile pk base 0 0 0 true n).core k).tile tile = (s.core k).tile tile
      ∧ ((s.tmovRows k tile pk base 0 0 0 true n).core k).oc
        = putBytes (s.core k).oc (elemBytes (fp32Addr base) 128 ((List.range n).map fun r => (r, ((s.core k).tile tile).fp32Row r))) := by
  induction n with
  | zero => exact ⟨rfl, rfl, rfl⟩
  | succ n ih =>
    obtain ⟨harmed, htile, hoc⟩ := ih
    obtain ⟨harmed', htile', hoc'⟩ := tmovRow_fp32 (s := s.tmovRows k tile pk base 0 0 0 true n) (by rwa [harmed])
      (by rwa [htile]) pk base n
    rw [tmovRows_succ]
    refine ⟨harmed'.trans harmed, htile'.trans htile, hoc'.trans ?_⟩
    rw [htile, hoc, ← putBytes_append, List.range_succ, List.map_append, elemBytes, elemBytes, List.flatMap_append]
    simp

/-- The bytes of a row of at most 256 rows moved read as written (R95, R183). -/
theorem ocByte_fp32 {c : Core} {m : SMap Byte} {base n : Nat} {row : Nat → Nat}
    (hoc : c.oc = putBytes m (elemBytes (fp32Addr base) 128 ((List.range n).map fun r => (r, row r)))) (hn : n ≤ 256) {r q : Nat}
    (hr : r < n) (hq : q < 128) : c.oc.get 0 ((base * 64 + r * 128 + q) % ocSize) = BitVec.ofNat 8 (row r / 256 ^ q) := by
  have hat : ∀ g i, (fp32Addr base g + i) % ocSize = (base * 64 + g * 128 + i) % ocSize := fun g i => Nat.mod_add_mod ..
  rw [hoc]
  have hin : (r, row r) ∈ (List.range n).map fun r => (r, row r) := List.mem_map.mpr ⟨r, List.mem_range.mpr hr, rfl⟩
  refine get_putBytes_same ⟨_, mem_elemBytes.mpr ⟨_, hin, q, hq, rfl⟩, hat r q⟩ ?_
  intro b hb hba
  obtain ⟨o, ho, i, hi, rfl⟩ := mem_elemBytes.mp hb
  obtain ⟨g, hg, rfl⟩ := List.mem_map.mp ho
  have hg := List.mem_range.mp hg
  rw [hat] at hba
  simp only [ocSize] at hba
  obtain ⟨rfl, rfl⟩ : g = r ∧ i = q := by omega
  rfl

theorem ocBytes_fp32 {c : Core} {m : SMap Byte} {base n : Nat} {t : Tile}
    (hoc : c.oc = putBytes m (elemBytes (fp32Addr base) 128 ((List.range n).map fun r => (r, t.fp32Row r)))) (hn : n ≤ 256) {r p : Nat}
    (hr : r < n) (hp : p < 32) : ofLe (c.ocBytes ((base * 64 + r * 128 + p * 4) % ocSize) 4)
      = (encodeElem 0 0 (fpDec (t.z r p))).1 := by
  have hbytes : c.ocBytes ((base * 64 + r * 128 + p * 4) % ocSize) 4 = leBytes 4 (t.fp32Row r >>> (32 * p)) := by
    rw [ocBytes_mod, leBytes_eq_map, Core.ocBytes, rangeFrom, List.map_map]
    refine List.map_congr_left fun i hi => ?_
    have hi := List.mem_range.mp hi
    have hbyte := ocByte_fp32 hoc hn hr (q := p * 4 + i) (by omega)
    rw [Function.comp_apply, Nat.add_assoc, hbyte, Nat.shiftRight_eq_div_pow, Nat.div_div_eq_div_mul,
      show (256 : Nat) ^ (p * 4 + i) = 2 ^ (32 * p) * 256 ^ i by rw [pow_add, mul_comm p, pow_mul, pow_mul]; rfl]
  have hlt : (encodeElem 0 0 (fpDec (t.z r p))).1 < 2 ^ 32 := encodeElem_lt (by decide) 0 _
  rw [hbytes, ofLe_leBytes, show 8 * 4 = 32 from rfl, Tile.fp32Row, packBits_shiftRight]
  rw [List.getD_eq_getElem _ _ (by simpa using hp), List.getElem_map, List.getElem_range, Nat.mod_eq_of_lt hlt]

theorem z_lt (t : Tile) (r p : Nat) : t.z r p < 2 ^ 32 := by
  have h := ofLe_lt (readBytes t.data (128 * r + 4 * p) 4)
  rwa [show (readBytes t.data (128 * r + 4 * p) 4).length = 4 by simp [readBytes, rangeFrom]] at h

theorem rowsOf_z (x : Core) (z : BitVec 4) : x.rowsOf (0x10#6 + z.setWidth 6).toNat = (x.tile (0x10#6 + z.setWidth 6).toNat).rows := by
  have hnotW : ∀ z : BitVec 4, isW (0x10#6 + z.setWidth 6).toNat = false := by decide
  rw [Core.rowsOf, hnotW, if_neg Bool.false_ne_true]

end Sys2Proof.Machine
end

section
open Sys2Proof Sys2Proof.Machine Sys2Proof.Claims

/-- Settles O38: every check of an accepted TMOV passes; a row moved leaves the accepted work as it was; and the rows of a move to the
operand cache stand apart there, each with the encodings of its elements, which a conversion from FP32 to FP32 leaves but for NaNs. -/
theorem tileMoveToOperandCache : Obligations.TileMoveToOperandCache := by
  unfold Obligations.TileMoveToOperandCache
  refine ⟨fun s c tile pk dir tfmt ofmt hr hk h0 h1 hready => ?_, fun s c tile pk base dir tfmt ofmt held hp hbg => ?_,
    fun s c z pk base hp hbg hbad hrows harm => ?_⟩
  · have hun : (s.core (coreKey c)).Ungrouped := ⟨h0, h1⟩
    refine ⟨_, execTmov_next hr hk hun hready rfl, ?_⟩
    simp only [State.core_retire_same, State.core_updCore_same, hun.runGroupOf, loopStep_bg, loopStep_tile, loopStep_rx, bg_acceptTmov,
      rx_acceptTmov]
    exact ⟨rfl, tile_acceptTmov_same .., fun j hj => tile_acceptTmov_other _ _ _ _ _ _ _ hj, fun _ => trivial, State.retire_dram ..⟩
  · exact ⟨_, execTmovRun_alone hp hbg rfl, bg_tmovRun_alone hbg _⟩
  · refine ⟨_, execTmovRun_alone hp hbg (rowsOf_z _ z).symm, fun r hr p hp => ?_⟩
    obtain ⟨-, -, hoc⟩ := tmovRows_fp32 harm hbad pk.toNat base ((s.core (coreKey c)).tile (0x10#6 + z.setWidth 6).toNat).rows
    rw [State.core_updCore_same]
    exact (ocBytes_fp32 hoc hrows hr hp).trans (encode_fpDec (z_lt ..))
end

section
/-! SUPPORT. MMBWD, ZDRAIN and the GACC forms where they are accepted (R164, R184, R217, R222, R224, R227, R228). -/

namespace Sys2Proof.Machine
open Sys2Proof Sys2Proof.Claims

/-! ### Checks -/

/-- An MMBWD whose fields and tiles are as R217 and R222 ask. -/
structure MmbwdReady (x : Core) (m : BwdArgs) : Prop where
  kept : m.keep = true → m.tw = false ∧ x.cells0.cls = 1
  weights : m.keep = false → wReady x 0 m.w.toNat m.dy.toNat
  dyRows : (x.tile m.dy.toNat).rows ≠ 0
  dyFull : (x.tile m.dy.toNat).st = 2
  dyFmt : (x.tile m.dy.toNat).fmt = 7
  dySound : (x.tile m.dy.toNat).poison = false
  dxRows : (x.tile m.dx.toNat).rows = (x.tile m.dy.toNat).rows
  dxFull : (x.tile m.dx.toNat).st = 2
  dxClass : fmtClass (x.tile m.dx.toNat).fmt = 1
  dxSound : (x.tile m.dx.toNat).poison = false
  zState : (x.tile (zCode 0 m.z.toNat)).st ≠ 3
  zRoom : (x.tile m.dy.toNat).rows ≤ (x.tile (zCode 0 m.z.toNat)).rows
  zSound : (x.tile (zCode 0 m.z.toNat)).poison = false

section
variable {s : State} {k : Nat}

theorem checkMmbwd_pass {m : BwdArgs} (hidle : (s.core k).Idle) (h : MmbwdReady (s.core k) m) :
    (checkMmbwd k m).run s = .ok () s := by
  have hclass : (s.core k).cellClass 0 = (s.core k).cells0.cls := by rw [Core.cellClass, hidle.bg]; rfl
  have hdx : ((s.core k).tile m.dx.toNat).rows ≠ 0 := h.dxRows ▸ h.dyRows
  have hz : ((s.core k).tile (zCode 0 m.z.toNat)).rows ≠ 0 := fun h0 => h.dyRows (Nat.le_zero.mp (h0 ▸ h.zRoom))
  rw [checkMmbwd, run_getC_bind]
  dsimp only
  rw [if_neg (by simp [h.dyRows, h.dyFull]), if_neg (by simp [h.dyFmt]), if_neg (by simp [hdx, h.dxFull]), if_neg (by simp [h.dxClass]),
    if_neg (by simp [h.dxRows]), run_bind_ok (checkZ_pass hz h.zState h.zRoom), poisoned_sound h.dySound, poisoned_sound h.dxSound,
    poisoned_sound h.zSound, Bool.and_false, if_neg Bool.false_ne_true, if_neg Bool.false_ne_true, if_neg Bool.false_ne_true]
  by_cases hkeep : m.keep = true
  · rw [if_pos hkeep, if_neg (by simp [hclass, (h.kept hkeep).2])]
    rfl
  · rw [if_neg hkeep, hidle.wTaken, show (1 : Nat) = fmtClass ((s.core k).tile m.dy.toNat).fmt by rw [h.dyFmt]; rfl]
    exact checkW_pass (h.weights (Bool.eq_false_iff.mpr hkeep))

theorem checkZdrain_pass {z roff : Nat} (acc : Bool) (hst : ((s.core k).tile z).st ≠ 3) (hroom : 32 * (roff + 1) ≤ ((s.core k).tile z).rows)
    (hpoison : ((s.core k).tile z).poison = false) : (checkZdrain k z roff acc).run s = .ok () s := by
  rw [checkZdrain, run_getC_bind, run_bind_ok (checkZ_pass (by omega) hst hroom), poisoned_sound hpoison, Bool.and_false,
    if_neg Bool.false_ne_true]
  rfl

theorem checkGacc_pass {z word : Nat} {row : W64} (source : Bool) (hk : gradientHolding k = true) (hrows : ((s.core k).tile z).rows ≠ 0)
    (hend : row.toNat + ((s.core k).tile z).rows ≤ 32768) (hrow : row.toNat < 32768) (hst : ((s.core k).tile z).st ≠ 3)
    (hpoison : ((s.core k).tile z).poison = false) : (checkGacc k word z row source).run s = .ok () s := by
  have hin : (decide (32768 ≤ row.toNat) || decide (32768 < row.toNat + ((s.core k).tile z).rows)) = false := by
    rw [decide_eq_false (by omega), decide_eq_false (by omega)]
    rfl
  rw [checkGacc, run_bind_ok (illegalIf_pass (by rw [hk]; rfl) word s), run_getC_bind, run_bind_ok (illegalIf_pass hin word s),
    if_neg hrows, if_neg hst, poisoned_sound hpoison, Bool.and_false, if_neg Bool.false_ne_true]
  exact congrFun (ite_self (pure () : M Unit)) s

end

/-! ### What acceptance leaves -/

/-- A T tile that accepted work names is RELEASING once released, its release behind that work; a second release finds it so (R184). -/
theorem release_named {x y : Core} (h : x.Ungrouped) {op : BgOp} {t : Nat} (ht : t < 16) (hop : op ∈ x.bg) (htouch : op.touches t = true)
    (hst : (x.tile t).st = 2 ∨ (x.tile t).st = 4) {rel : Bool} (hy : y = if rel then x.release t else x) :
    y.Ungrouped ∧ y.bg = x.bg ++ (if rel = true ∧ (x.tile t).st = 2 then [.rel t (x.tile t).writer] else [])
      ∧ y.tile t = (if rel then { x.tile t with st := 4 } else x.tile t) ∧ ∀ j, j ≠ t → y.tile j = x.tile j := by
  subst hy
  cases rel with
  | false => exact ⟨h, by simp, rfl, fun _ _ => rfl⟩
  | true =>
    rw [if_pos rfl]
    rcases hst with hst | hst
    · have hbusy : x.tileBusy t = true := by
        rw [Core.tileBusy, List.any_eq_true.mpr ⟨op, hop, htouch⟩, Bool.true_or]
      rw [release_busy h hst (wTaken_notW (decide_eq_false (by omega))) hbusy, if_pos ⟨rfl, hst⟩, tile_queueBg, tile_updTile_same]
      exact ⟨⟨h.gather0, h.gather1⟩, rfl, rfl, fun j hj => (tile_queueBg ..).trans (tile_updTile_other x hj _)⟩
    · rw [Core.release, if_pos (.inr (.inl hst)), if_neg (by simp [hst]), List.append_nil, ← hst]
      exact ⟨h, rfl, rfl, fun _ _ => rfl⟩

/-- The releases of two T tiles that accepted work reads: where both name one tile, it is released once (R184, R217). -/
theorem releases_named {x y : Core} (h : x.Ungrouped) {op : BgOp} {a b : Nat} (ha : a < 16) (hb : b < 16) (hop : op ∈ x.bg)
    (hta : op.touches a = true) (htb : op.touches b = true) (hsa : (x.tile a).st = 2) (hsb : (x.tile b).st = 2) {ra rb : Bool}
    (hy : y = if rb then (if ra then x.release a else x).release b else if ra then x.release a else x) :
    y.bg = x.bg ++ (if ra then [.rel a (x.tile a).writer] else []) ++ (if rb ∧ ¬ (ra ∧ b = a) then [.rel b (x.tile b).writer] else [])
      ∧ (y.tile a).st = (if ra ∨ (rb ∧ b = a) then 4 else 2) ∧ (y.tile b).st = (if rb ∨ (ra ∧ b = a) then 4 else 2)
      ∧ ∀ j, j ≠ a → j ≠ b → y.tile j = x.tile j := by
  obtain ⟨hun, hbg, htile, hother⟩ := release_named (rel := ra) h ha hop hta (.inl hsa) rfl
  have hst : ((if ra then x.release a else x).tile b).st = if ra ∧ b = a then 4 else 2 := by
    by_cases hab : b = a
    · subst hab
      rw [htile]
      cases ra <;> simp [hsa]
    · rw [hother b hab, if_neg (fun h => hab h.2), hsb]
  have hwriter : ((if ra then x.release a else x).tile b).writer = (x.tile b).writer := by
    by_cases hab : b = a
    · subst hab
      rw [htile]
      cases ra <;> rfl
    · rw [hother b hab]
  have hst' : ((if ra then x.release a else x).tile b).st = 2 ∨ ((if ra then x.release a else x).tile b).st = 4 := by
    rw [hst]
    split_ifs
    · exact .inr rfl
    · exact .inl rfl
  obtain ⟨-, hbg', htile', hother'⟩ := release_named (rel := rb) hun hb (by rw [hbg]; exact List.mem_append_left _ hop) htb hst' hy
  refine ⟨?_, ?_, ?_, fun j hja hjb => (hother' j hjb).trans (hother j hja)⟩
  · rw [hbg', hbg, hst, hwriter]
    simp only [hsa, and_true]
    congr 2
    by_cases hab : ra = true ∧ b = a <;> simp [hab]
  · by_cases hab : b = a
    · subst hab
      rw [htile', htile]
      cases ra <;> cases rb <;> simp [hsa]
    · rw [hother' a (Ne.symm hab), htile]
      cases ra <;> simp [hab, hsa]
  · rw [htile']
    cases rb <;> simp [hst]

/-- The MMBWD that an idle core accepts, its Z tile, and its T tiles with their releases (R217, R218). -/
theorem acceptMmbwd_idle {x y : Core} (h : x.Idle) {m : BwdArgs} (hready : MmbwdReady x m) (hy : y = x.acceptMmbwd m) :
    y.bg = [.mmbwd m.dy.toNat m.dx.toNat (x.tile m.dx.toNat).fmt (wCode 0 m.w.toNat) (zCode 0 m.z.toNat) m.acc m.keep m.tw
          ((x.tile (zCode 0 m.z.toNat)).st == 2)]
        ++ (if m.rely then [.rel m.dy.toNat (x.tile m.dy.toNat).writer] else [])
        ++ (if m.relx ∧ ¬ (m.rely ∧ m.dx.toNat = m.dy.toNat) then [.rel m.dx.toNat (x.tile m.dx.toNat).writer] else [])
      ∧ (y.tile (zCode 0 m.z.toNat)).st = 2
      ∧ (y.tile m.dy.toNat).st = (if m.rely ∨ (m.relx ∧ m.dx.toNat = m.dy.toNat) then 4 else 2)
      ∧ (y.tile m.dx.toNat).st = (if m.relx ∨ (m.rely ∧ m.dx.toNat = m.dy.toNat) then 4 else 2) := by
  have hnotT : ∀ t : BitVec 4, t.toNat ≠ zCode 0 m.z.toNat := fun t => by rw [zCode]; omega
  generalize hop : BgOp.mmbwd m.dy.toNat m.dx.toNat (x.tile m.dx.toNat).fmt (wCode 0 m.w.toNat) (zCode 0 m.z.toNat) m.acc m.keep m.tw
    ((x.tile (zCode 0 m.z.toNat)).st == 2) = op
  obtain ⟨hdy, hdx⟩ : op.touches m.dy.toNat = true ∧ op.touches m.dx.toNat = true := by
    rw [← hop]
    cases m.keep <;> simp [BgOp.touches, BgOp.reads]
  generalize hq : (x.queueBg op).zFull (zCode 0 m.z.toNat) 10 = q
  have hbg : q.bg = [op] := by
    rw [← hq, Core.zFull, bg_updTile, Core.queueBg, h.bg]
    rfl
  have htile : ∀ t : BitVec 4, q.tile t.toNat = x.tile t.toNat := fun t => by
    rw [← hq, Core.zFull, tile_updTile_other _ (hnotT t), tile_queueBg]
  have hz : (q.tile (zCode 0 m.z.toNat)).st = 2 := by rw [← hq, Core.zFull, tile_updTile_same]
  have haccept : y = if m.relx then (if m.rely then q.release m.dy.toNat else q).release m.dx.toNat
      else if m.rely then q.release m.dy.toNat else q := by
    rw [hy, ← hq, ← hop]
    rfl
  obtain ⟨hbg', hsty, hstx, hother⟩ := releases_named (by rw [← hq]; exact ⟨h.gather0, h.gather1⟩) m.dy.isLt m.dx.isLt
    (by rw [hbg]; exact List.mem_singleton_self op) hdy hdx (by rw [htile, hready.dyFull]) (by rw [htile, hready.dxFull]) haccept
  rw [hbg, htile, htile] at hbg'
  exact ⟨hbg', by rw [hother _ (hnotT _).symm (hnotT _).symm, hz], hsty, hstx⟩

/-- What acceptance of a ZDRAIN leaves of the core (R224). -/
def Core.acceptZdrain (z roff : Nat) (acc : Bool) (x : Core) : Core := (x.queueBg (.zdrain z roff acc (x.zHolds z))).zFull z 10
/-- What acceptance of a GACC form leaves of the core (R227). -/
def Core.acceptGacc (form z : Nat) (row : W64) (x : Core) : Core :=
  if form = 4 then (x.queueBg (.gacc form z row.toNat (x.zHolds z))).zFull z 10 else x.queueBg (.gacc form z row.toNat (x.zHolds z))

theorem acceptZdrain_idle {x : Core} (h : x.Idle) (z roff : Nat) (acc : Bool) :
    (x.acceptZdrain z roff acc).bg = [.zdrain z roff acc ((x.tile z).st == 2)] ∧ ((x.acceptZdrain z roff acc).tile z).st = 2 := by
  rw [Core.acceptZdrain, Core.zFull, tile_updTile_same, bg_updTile, Core.queueBg, h.bg]
  exact ⟨rfl, rfl⟩

theorem acceptGacc_idle {x : Core} (h : x.Idle) (form z : Nat) (row : W64) :
    (x.acceptGacc form z row).bg = [.gacc form z row.toNat ((x.tile z).st == 2)]
      ∧ (form = 4 → ((x.acceptGacc form z row).tile z).st = 2) := by
  rw [Core.acceptGacc]
  split_ifs with hform
  · rw [Core.zFull, tile_updTile_same, bg_updTile, Core.queueBg, h.bg]
    exact ⟨rfl, fun _ => rfl⟩
  · rw [Core.queueBg, h.bg]
    exact ⟨rfl, fun h4 => absurd h4 hform⟩

/-! ### The instructions -/

section
variable {s : State} {c : CoreId} (hr : s.ready c = true) (hk : isCompute (coreKey c) = true) (hidle : (s.core (coreKey c)).Idle)
include hr hk hidle

theorem execMmbwd_next {m : BwdArgs} (h : MmbwdReady (s.core (coreKey c)) m) :
    exec (.mmbwd c m) s = .next (((s.groupsRun (coreKey c) [0, 1]).updCore (coreKey c) fun x => x.acceptMmbwd m).retire
      (coreKey c) (pcOf s c)) := by
  have hcore := core_groupsRun hidle.ungrouped [0, 1]
  have hlegal : (m.keep && m.tw) = false := by
    cases hkeep : m.keep with
    | true => exact (h.kept hkeep).1
    | false => rfl
  refine runInstr_next hr rfl ?_
  rw [run_bind_ok (needCompute_here hk _ s), run_bind_ok (illegalIf_pass hlegal _ s), run_bind_ok (groupFirst_pass hidle.ungrouped ?_)]
  · rfl
  · rw [run_bind_ok (needRoom_pass (by rw [hcore, hidle.bg])), run_bind_ok (needRoom_pass (by rw [hcore, hidle.bg]))]
    exact checkMmbwd_pass (by rwa [hcore]) (by rwa [hcore])

theorem execZdrain_next {z roff : BitVec 3} (acc : Bool) (hst : ((s.core (coreKey c)).tile (zCode 1 z.toNat)).st ≠ 3)
    (hroom : 32 * (roff.toNat + 1) ≤ ((s.core (coreKey c)).tile (zCode 1 z.toNat)).rows)
    (hpoison : ((s.core (coreKey c)).tile (zCode 1 z.toNat)).poison = false) :
    exec (.zdrain c z roff acc) s = .next (((s.groupsRun (coreKey c) [1]).updCore (coreKey c)
      (Core.acceptZdrain (zCode 1 z.toNat) roff.toNat acc)).retire (coreKey c) (pcOf s c)) := by
  have hcore := core_groupsRun hidle.ungrouped [1]
  refine runInstr_next hr rfl ?_
  rw [run_bind_ok (needCompute_here hk _ s), run_bind_ok (groupFirst_pass hidle.ungrouped ?_)]
  · rfl
  · rw [run_bind_ok (needRoom_pass (by rw [hcore, hidle.bg]))]
    exact checkZdrain_pass acc (by rwa [hcore]) (by rwa [hcore]) (by rwa [hcore])

omit hr in
/-- The common part of the GACC forms (R227, R228). -/
theorem acceptGacc_run {z : Nat} {a : Reg} (word form : Nat) (hgrad : gradientHolding (coreKey c) = true)
    (hrows : ((s.core (coreKey c)).tile z).rows ≠ 0)
    (hend : ((s.core (coreKey c)).rx a).toNat + ((s.core (coreKey c)).tile z).rows ≤ 32768)
    (hrow : ((s.core (coreKey c)).rx a).toNat < 32768) (hst : ((s.core (coreKey c)).tile z).st ≠ 3)
    (hpoison : ((s.core (coreKey c)).tile z).poison = false) :
    (acceptGacc (coreKey c) word form z a).run s = .ok .next ((s.updCore (coreKey c) fun x => x.runGroupOf z).updCore (coreKey c)
      (Core.acceptGacc form z ((s.core (coreKey c)).rx a))) := by
  have hcore : (s.updCore (coreKey c) fun x => x.runGroupOf z).core (coreKey c) = s.core (coreKey c) := by
    rw [State.core_updCore_same, hidle.runGroupOf]
  rw [acceptGacc, run_bind_ok (needCompute_here hk word s), run_modC_bind, run_getC_bind, hcore, hidle.gathering,
    if_neg Bool.false_ne_true, run_bind_ok (needRoom_pass (by rw [hcore, hidle.bg])), run_getC_bind, hcore]
  dsimp only
  rw [run_bind_ok (checkGacc_pass _ hgrad (by rwa [hcore]) (by rwa [hcore]) hrow (by rwa [hcore]) (by rwa [hcore]))]
  rfl

/-- A GACC form that is accepted goes into its array's queue, and a GET makes its Z tile FULL (R227, R228). -/
theorem execGacc_accepted {i : Instr} {form z : Nat} {a : Reg}
    (hi : exec i s = runInstr c (instrWord i) false (acceptGacc (coreKey c) (instrWord i) form z a) s)
    (hgrad : gradientHolding (coreKey c) = true) (hrows : ((s.core (coreKey c)).tile z).rows ≠ 0)
    (hend : ((s.core (coreKey c)).rx a).toNat + ((s.core (coreKey c)).tile z).rows ≤ 32768)
    (hrow : ((s.core (coreKey c)).rx a).toNat < 32768) (hst : ((s.core (coreKey c)).tile z).st ≠ 3)
    (hpoison : ((s.core (coreKey c)).tile z).poison = false) :
    ∃ t, exec i s = .next t
      ∧ (t.core (coreKey c)).bg = [.gacc form z ((s.core (coreKey c)).rx a).toNat (((s.core (coreKey c)).tile z).st == 2)]
      ∧ (form = 4 → ((t.core (coreKey c)).tile z).st = 2) := by
  have hrun := acceptGacc_run hk hidle (instrWord i) form hgrad hrows hend hrow hst hpoison
  refine ⟨_, hi.trans (runInstr_next hr rfl hrun), ?_⟩
  simp only [State.core_retire_same, State.core_updCore_same, hidle.runGroupOf, loopStep_bg, loopStep_tile]
  exact acceptGacc_idle hidle form z _

end

end Sys2Proof.Machine
end

section
/-! SUPPORT. What detections, errors of rows and row writes leave alone of a core's array work (R193, R410, R413). -/

namespace Sys2Proof.Machine
open Sys2Proof Sys2Proof.Claims

/-- A core's array work besides the contents of its tiles: what is accepted, the mode of array 1 with its count of tokens, the cells of
array 0, the drain shadow, and the state, rows and format of each tile. -/
structure ArrayWork where
  bg : List BgOp
  mode1 : Bool
  atok : Nat
  cells0 : Cells
  shadow : Option Shadow
  tiles : Nat → Nat × Nat × Nat

def Core.work (x : Core) : ArrayWork :=
  { bg := x.bg, mode1 := x.mode1, atok := x.atok, cells0 := x.cells0, shadow := x.shadow
    tiles := fun code => ((x.tile code).st, (x.tile code).rows, (x.tile code).fmt) }

theorem work_updTile (x : Core) (code : Nat) {g : Tile → Tile} (hg : ∀ t, (g t).st = t.st ∧ (g t).rows = t.rows ∧ (g t).fmt = t.fmt) :
    (x.updTile code g).work = x.work := by
  have htiles : (x.updTile code g).work.tiles = x.work.tiles := funext fun j => by
    by_cases hj : j = code
    · obtain ⟨hst, hrows, hfmt⟩ := hg (x.tile code)
      simp only [Core.work, hj, tile_updTile_same, hst, hrows, hfmt]
    · simp only [Core.work, tile_updTile_other x hj]
  exact congrArg (fun f => { x.work with tiles := f }) htiles

theorem work_updCore {g : Core → Core} (hg : ∀ c, (g c).work = c.work) (s : State) (j k : Nat) :
    ((s.updCore j g).core k).work = (s.core k).work := by
  by_cases h : k = j
  · rw [h, State.core_updCore_same, hg]
  · rw [State.core_updCore_other s h]

/-- A change of a tile's contents or errors. -/
theorem work_contents {g : Tile → Tile} (hg : ∀ t, (g t).st = t.st ∧ (g t).rows = t.rows ∧ (g t).fmt = t.fmt) (s : State)
    (j k code : Nat) : ((s.updCore j fun c => c.updTile code g).core k).work = (s.core k).work :=
  work_updCore (fun c => work_updTile c code hg) s j k

section
variable (s : State) (k : Nat)

theorem core_record (u : Nat) (r : Report) : (s.record u r).core k = s.core k := core_congr (cores_record s u r) k

/-- A detection adds at most a NOTICE to what a core has waiting (R410). -/
theorem core_detect (u : Nat) (r : Report) : ∃ l, (s.detect u r).core k = { s.core k with notices := l } := by
  rw [State.detect]
  split_ifs
  · by_cases h : k = mainland0
    · rw [State.notice, h, State.core_updCore_same, core_record]
      exact ⟨_, rfl⟩
    · rw [State.notice, State.core_updCore_other _ h, core_record]
      exact ⟨_, rfl⟩
  · exact ⟨_, rfl⟩
  · rw [core_record]
    exact ⟨_, rfl⟩

theorem core_bgMchk (j code : Nat) (addr : W64) : ∃ l, (s.bgMchk j code addr).core k = { s.core k with mchk := l } := by
  rw [State.bgMchk, State.raiseMchk]
  by_cases h : k = j
  · rw [h, State.core_updCore_same]
    exact ⟨_, rfl⟩
  · rw [State.core_updCore_other _ h]
    exact ⟨_, rfl⟩

theorem work_detect (u : Nat) (r : Report) : ((s.detect u r).core k).work = (s.core k).work := by
  obtain ⟨l, h⟩ := core_detect s k u r
  rw [h]
  rfl

theorem work_bgMchk (j code : Nat) (addr : W64) : ((s.bgMchk j code addr).core k).work = (s.core k).work := by
  obtain ⟨l, h⟩ := core_bgMchk s k j code addr
  rw [h]
  rfl

theorem work_errMchk (bad : Bool) (j code : Nat) (addr : W64) :
    ((if bad then s.bgMchk j code addr else s).core k).work = (s.core k).work := by
  split_ifs
  · exact work_bgMchk ..
  · rfl

theorem work_meetRow (j code r sev : Nat) : ((s.meetRow j code r sev).2.core k).work = (s.core k).work := by
  refine foldl_keeps (g := fun acc : Bool × State => (acc.2.core k).work) (fun acc b => ?_) _ (false, s)
  dsimp only
  split_ifs
  · exact (work_contents (by intro t; exact ⟨rfl, rfl, rfl⟩) _ j k code).trans (work_detect ..)
  · exact work_detect ..

theorem work_zRowBg (j code r : Nat) (held : Bool) : ((s.zRowBg j code r held).2.2.core k).work = (s.core k).work := by
  rw [State.zRowBg]
  split_ifs
  · exact work_meetRow ..
  · rfl

theorem work_putRow (j code r v : Nat) (scales : List (Nat × Nat)) : ((s.putRow j code r v scales).core k).work = (s.core k).work := by
  rw [State.putRow]
  dsimp only
  exact (work_contents (by intro t; exact ⟨rfl, rfl, rfl⟩) _ j k code).trans (congrArg _ (core_congr (cores_armedErr ..) k))

theorem work_poisonTile (j code det : Nat) : ((s.poisonTile j code det).core k).work = (s.core k).work :=
  work_contents (by intro t; exact ⟨rfl, rfl, rfl⟩) s j k code

theorem cores_takeArmed (u num loc : Nat) : (s.takeArmed u num loc).2.cores = s.cores := by
  rw [State.takeArmed]
  split <;> rfl

theorem cores_accResidue : (s.accResidue k).2.cores = s.cores := by
  have htake := cores_takeArmed s (unitOfKey k) 0x0107 (s.locOf k)
  rw [State.accResidue]
  split
  next t h =>
    rw [h] at htake
    exact htake
  next t h =>
    rw [h] at htake
    exact htake

theorem work_residue (j arr : Nat) : ((s.residue j arr).2.core k).work = (s.core k).work := by
  have htake := cores_takeArmed s (unitOfKey j) 0x0106 (s.locOf j + arr * 32768)
  rw [State.residue]
  split
  next t h =>
    rw [h] at htake
    exact (work_bgMchk ..).trans ((work_detect ..).trans (congrArg _ (core_congr htake k)))
  next t h =>
    rw [h] at htake
    exact congrArg _ (core_congr htake k)

end

end Sys2Proof.Machine
end

section
/-! SUPPORT. The stages of a pass, and what they leave of a core's array work (R167, R193). -/

namespace Sys2Proof.Machine
open Sys2Proof Sys2Proof.Claims

/-- What a pass may change of its Z tile before its first row: its contents where it held no data, and its marks of errors. -/
structure PassStarted (z : Nat) (held : Bool) (x y : Core) : Prop where
  frame : ∃ ts, y = { x with tiles := ts }
  others : ∀ j, j ≠ z → y.tile j = x.tile j
  kept : (y.tile z).st = (x.tile z).st ∧ (y.tile z).rows = (x.tile z).rows ∧ (y.tile z).fmt = (x.tile z).fmt
  sound : (x.tile z).bad = [] → (y.tile z).bad = []
  contents : held = true → (y.tile z).data = (x.tile z).data

namespace PassStarted

theorem refl (z : Nat) (held : Bool) (x : Core) : PassStarted z held x x :=
  ⟨⟨x.tiles, rfl⟩, fun _ _ => rfl, ⟨rfl, rfl, rfl⟩, id, fun _ => rfl⟩

theorem updTile {z : Nat} {held : Bool} {x y : Core} (h : PassStarted z held x y) {g : Tile → Tile}
    (hg : ∀ t, (g t).st = t.st ∧ (g t).rows = t.rows ∧ (g t).fmt = t.fmt) (hbad : ∀ t, t.bad = [] → (g t).bad = [])
    (hdata : held = true → ∀ t, (g t).data = t.data) : PassStarted z held x (y.updTile z g) := by
  obtain ⟨⟨ts, rfl⟩, hothers, ⟨hst, hrows, hfmt⟩, hsound, hcontents⟩ := h
  obtain ⟨hst', hrows', hfmt'⟩ := hg (({ x with tiles := ts } : Core).tile z)
  refine ⟨⟨_, rfl⟩, fun j hj => (tile_updTile_other _ hj g).trans (hothers j hj), ?_, fun h => ?_, fun h => ?_⟩
  · rw [tile_updTile_same]
    exact ⟨hst'.trans hst, hrows'.trans hrows, hfmt'.trans hfmt⟩
  · rw [tile_updTile_same]
    exact hbad _ (hsound h)
  · rw [tile_updTile_same, hdata h, hcontents h]

theorem work {z : Nat} {held : Bool} {x y : Core} (h : PassStarted z held x y) : y.work = x.work := by
  obtain ⟨⟨ts, rfl⟩, hothers, ⟨hst, hrows, hfmt⟩, -, -⟩ := h
  refine congrArg (fun f => { x.work with tiles := f }) (funext fun j => ?_)
  by_cases hj : j = z
  · subst hj
    exact Prod.ext hst (Prod.ext hrows hfmt)
  · exact congrArg (fun t : Tile => (t.st, t.rows, t.fmt)) (hothers j hj)

end PassStarted

theorem core_meterMat (s : State) (k j n : Nat) : (s.meterMat j n).core k = s.core k := core_congr (State.updDie_cores s _ _) k

section
variable (s : State) (k arr t tf z : Nat)

/-- A pass before its first row: a Z tile that holds no data has none left from earlier (R164, R193). -/
def State.passStart (acc held : Bool) : State :=
  let s' := if !held || (!acc && decide (((s.core k).tile z).rows ≤ ((s.core k).tile t).rows * packOf tf))
    then s.updCore k fun c => c.updTile z fun x => { x with poison := false } else s
  if held then s' else s'.updCore k fun c => c.updTile z fun x => { x with data := [], bad := [] }

/-- The first rows of a pass, and whether an error stood in one. -/
def State.passRows (prior : Bool) (n : Nat) (wbad : Bool) : Bool × State :=
  (List.range n).foldl (fun b r => (b.1 || (b.2.passRow k arr t tf z prior r).1, (b.2.passRow k arr t tf z prior r).2)) (wbad, s)

/-- What a pass leaves once its rows have run: POISON after an error (R193). -/
def State.passEnd (rows : Nat) (bad : Bool) : State :=
  let res := s.residue k arr
  (if bad || res.1 then res.2.poisonTile k z (if bad then 0x0105 else 0x0106) else res.2).meterMat k rows

theorem pass_eq (acc held wbad : Bool) {rows : Nat} (hrows : ((s.core k).tile t).rows = rows) {p : Bool × State}
    (hp : (s.passStart k t tf z acc held).passRows k arr t tf z (acc && held) rows wbad = p) :
    s.pass k arr t tf z acc held wbad = p.2.passEnd k arr z rows p.1 := by
  subst hrows hp
  rfl

theorem armed_passStart (acc held : Bool) : (s.passStart k t tf z acc held).armed = s.armed := by
  rw [State.passStart]
  split_ifs <;> rfl

theorem passStart_started (acc held : Bool) : PassStarted z held (s.core k) ((s.passStart k t tf z acc held).core k) := by
  have hclear : PassStarted z held (s.core k) ((s.core k).updTile z fun x => { x with poison := false }) :=
    (PassStarted.refl ..).updTile (fun _ => ⟨rfl, rfl, rfl⟩) (fun _ => id) fun _ _ => rfl
  rw [State.passStart]
  cases held with
  | true =>
    rw [if_pos rfl]
    split_ifs
    · rwa [State.core_updCore_same]
    · exact .refl ..
  | false =>
    rw [if_neg Bool.false_ne_true, Bool.not_false, Bool.true_or, if_pos rfl, State.core_updCore_same, State.core_updCore_same]
    exact hclear.updTile (fun _ => ⟨rfl, rfl, rfl⟩) (fun _ _ => rfl) fun h => absurd h Bool.false_ne_true

variable (j : Nat)

theorem work_passRow (prior : Bool) (r : Nat) : ((s.passRow k arr t tf z prior r).2.core j).work = (s.core j).work := by
  rw [State.passRow]
  dsimp only
  refine (foldl_keeps (g := fun acc : Bool × State => (acc.2.core j).work) (fun acc g => ?_) _ _).trans
    ((work_errMchk ..).trans (work_meetRow ..))
  have hflags : ∀ (c : Core) (fl : Flags), (c.orMxflags fl).work = c.work := fun _ _ => rfl
  dsimp only
  rw [work_updCore fun c => hflags c _, work_putRow, work_errMchk, work_zRowBg]

theorem work_passEnd (rows : Nat) (bad : Bool) : ((s.passEnd k arr z rows bad).core j).work = (s.core j).work := by
  rw [State.passEnd, core_meterMat, ← work_residue s j k arr]
  by_cases h : (bad || (s.residue k arr).1) = true
  · rw [if_pos h, work_poisonTile]
  · rw [if_neg h]

theorem work_passRows (prior : Bool) (n : Nat) (wbad : Bool) :
    ((s.passRows k arr t tf z prior n wbad).2.core j).work = (s.core j).work := by
  refine foldl_keeps (g := fun b : Bool × State => (b.2.core j).work) (fun b r => ?_) _ (wbad, s)
  exact work_passRow b.2 k arr t tf z j prior r

end

theorem work_pass (s : State) (k arr t tf z : Nat) (acc held wbad : Bool) :
    ((s.pass k arr t tf z acc held wbad).core k).work = (s.core k).work := by
  rw [pass_eq s k arr t tf z acc held wbad rfl rfl, work_passEnd, work_passRows, (passStart_started ..).work]

end Sys2Proof.Machine
end

section
/-! SUPPORT. The stages of array 1's part of an MMBWD, and what they leave of a core's array work (R218, R219, R221, R222). -/

namespace Sys2Proof.Machine
open Sys2Proof Sys2Proof.Claims

/-- Array 1 becomes output-stationary: its accumulators start from +0.0 where it was not (R218, R222). -/
def Core.enterMode1 (x : Core) : Core := if x.mode1 then x else { x with cells1 := {}, acc := [], mode1 := true }

/-- The tokens of an MMBWD are counted, and an error among them marks the accumulators (R219, R221). -/
def Core.countTokens (n : Nat) (bad res : Bool) (x : Core) : Core :=
  { x with atok := satAdd x.atok n 0xFFFFFFFF, apois := x.apois || bad || res }

section
variable (s : State) (k y x xf : Nat)

/-- One row of X and dY into the accumulators (R218). -/
def State.accRow (r : Nat) : Bool × State :=
  let met := if x = y then (false, s) else s.meetRow k x r 2
  (met.1, (if met.1 then met.2.bgMchk k 0x0105 (tileAddr x r) else met.2).updCore k fun c =>
    c.accToken ((c.tile x).token xf r 0) ((c.tile y).token 7 r 0))

def State.accRows (n : Nat) (ybad : Bool) : Bool × State :=
  (List.range n).foldl (fun b r => (b.1 || (b.2.accRow k y x xf r).1, (b.2.accRow k y x xf r).2)) (ybad, s)

/-- What array 1 leaves once the rows have run (R219, R221). -/
def State.accEnd (rows : Nat) (bad : Bool) : State :=
  ((s.accResidue k).2.updCore k (Core.countTokens rows bad (s.accResidue k).1)).meterMat k rows

theorem accTiles_eq (ybad : Bool) {rows : Nat} (hrows : ((s.core k).tile y).rows = rows) {p : Bool × State}
    (hp : (s.updCore k Core.enterMode1).accRows k y x xf rows ybad = p) :
    s.accTiles k y x xf ybad = p.2.accEnd k rows p.1 := by
  subst hrows hp
  by_cases hxy : x = y
  · simp only [State.accTiles, State.accRows, State.accRow, if_pos hxy]
    rfl
  · simp only [State.accTiles, State.accRows, State.accRow, if_neg hxy]
    rfl

end

theorem work_enterMode1 (x : Core) : x.enterMode1.work = { x.work with mode1 := true } := by
  rw [Core.enterMode1]
  split_ifs with h
  · rw [← h]
    rfl
  · rfl

/-- One product into an accumulator (R204, R218). -/
def Core.accCell (a b : List FV) (x : Core) (i : Nat) : Core :=
  let r := accum (some (x.acc.get 0 i).toNat) (fvMul (a.getD (i / 32) .nan) (b.getD (i % 32) .nan))
  { x with acc := x.acc.set 0 i (BitVec.ofNat 32 r.1) }.orMxflags r.2

theorem accToken_eq (x : Core) (a b : List FV) : x.accToken a b = (List.range 1024).foldl (Core.accCell a b) x := by
  rw [Core.accToken]
  dsimp only
  rfl

/-- What products leave alone of a core. -/
theorem accCells_frame (x : Core) (a b : List FV) (l : List Nat) :
    ∃ acc fl, l.foldl (Core.accCell a b) x = { x with acc := acc, mxflags := fl } := by
  induction l generalizing x with
  | nil => exact ⟨_, _, rfl⟩
  | cons i l ih =>
    obtain ⟨acc, fl, h⟩ := ih (Core.accCell a b x i)
    exact ⟨acc, fl, h⟩

theorem work_accRow (s : State) (k y x xf r : Nat) : ((s.accRow k y x xf r).2.core k).work = (s.core k).work := by
  have htoken : ∀ c : Core, (c.accToken ((c.tile x).token xf r 0) ((c.tile y).token 7 r 0)).work = c.work := fun c => by
    obtain ⟨acc, fl, h⟩ := accCells_frame c ((c.tile x).token xf r 0) ((c.tile y).token 7 r 0) (List.range 1024)
    rw [accToken_eq, h]
    rfl
  rw [State.accRow, work_updCore htoken, work_errMchk]
  by_cases hxy : x = y
  · rw [if_pos hxy]
  · rw [if_neg hxy, work_meetRow]

/-- Array 1's part of an MMBWD counts its tokens, and leaves the array output-stationary (R218, R221). -/
theorem work_accTiles (s : State) (k y x xf : Nat) (ybad : Bool) : ((s.accTiles k y x xf ybad).core k).work
    = { (s.core k).work with mode1 := true, atok := min ((s.core k).atok + ((s.core k).tile y).rows) 0xFFFFFFFF } := by
  have hrows : (((s.updCore k Core.enterMode1).accRows k y x xf ((s.core k).tile y).rows ybad).2.core k).work
      = { (s.core k).work with mode1 := true } := by
    rw [← work_enterMode1, ← State.core_updCore_same s k Core.enterMode1]
    refine foldl_keeps (g := fun b : Bool × State => (b.2.core k).work) (fun b r => ?_) _ (ybad, s.updCore k Core.enterMode1)
    exact work_accRow b.2 k y x xf r
  rw [accTiles_eq s k y x xf ybad rfl rfl, State.accEnd, core_meterMat, State.core_updCore_same, core_congr (cores_accResidue ..)]
  generalize ((s.updCore k Core.enterMode1).accRows k y x xf ((s.core k).tile y).rows ybad).2.core k = u at *
  rw [show (Core.countTokens _ _ _ u).work = { u.work with atok := satAdd u.work.atok ((s.core k).tile y).rows 0xFFFFFFFF } from rfl, hrows]
  rfl

end Sys2Proof.Machine
end

section
/-! SUPPORT. The load of a W register into array 0 (R177, R220). -/

namespace Sys2Proof.Machine
open Sys2Proof Sys2Proof.Claims

/-- Array 0 with new cells (R177, R220). -/
def Core.withCells (cells : Cells) (tw : Bool) (x : Core) : Core := { x with cells0 := cells, transp0 := tw }

theorem tile_withCells (cells : Cells) (tw : Bool) (x : Core) (j : Nat) : (x.withCells cells tw).tile j = x.tile j := rfl

/-- Array 0 with the cells that a W register gives, the register emptied (R177, R220). -/
def Core.loaded (code : Nat) (tw : Bool) (x : Core) : Core :=
  (x.withCells (cellsOf (x.tile code) code tw) tw).retire code (x.tile code).writer

/-- The rows of a W register that is loaded, one after another: an error in one is met (R177, R193). -/
def State.loadRows (s : State) (k code n : Nat) : Bool × State :=
  (List.range n).foldl (fun b r => (b.1 || (b.2.meetRow k code r 2).1,
    if (b.2.meetRow k code r 2).1 then (b.2.meetRow k code r 2).2.bgMchk k 0x0105 (tileAddr code r) else (b.2.meetRow k code r 2).2))
    (false, s)

theorem updCore_congr {s : State} {k : Nat} {f g : Core → Core} (h : f (s.core k) = g (s.core k)) : s.updCore k f = s.updCore k g := by
  rw [State.updCore, h]
  rfl

theorem loadCells_eq (s : State) (k code : Nat) (tw : Bool) {p : Bool × State} (hp : s.loadRows k code 32 = p) :
    s.loadCells k 0 code tw = (p.1, p.2.updCore k (Core.loaded code tw)) := by
  rw [State.loadRows] at hp
  rw [State.loadCells]
  dsimp only
  rw [hp]
  refine congrArg (Prod.mk p.1) (updCore_congr ?_)
  rw [Core.loaded]
  generalize cellsOf ((p.2.core k).tile code) code tw = cells
  rfl

theorem coreRetire_frame (x : Core) (code writer : Nat) : ∃ ts us, x.retire code writer = { x with tiles := ts, units := us } := by
  unfold Core.retire Core.returnCredits Core.creditUnit
  dsimp only
  split_ifs
  · exact ⟨_, _, rfl⟩
  · exact ⟨_, x.units, rfl⟩
  · exact ⟨_, x.units, rfl⟩

theorem withCells_retire_frame (x : Core) (cells : Cells) (tw : Bool) (code writer : Nat) : ∃ ts us,
    (x.withCells cells tw).retire code writer = { x with cells0 := cells, transp0 := tw, tiles := ts, units := us } := by
  obtain ⟨ts, us, h⟩ := coreRetire_frame (x.withCells cells tw) code writer
  rw [h]
  exact ⟨ts, us, rfl⟩

/-- What a load changes besides tiles and credits. -/
theorem loaded_frame (x : Core) (code : Nat) (tw : Bool) : ∃ ts us, x.loaded code tw
    = { x with cells0 := cellsOf (x.tile code) code tw, transp0 := tw, tiles := ts, units := us } := by
  rw [Core.loaded]
  exact withCells_retire_frame ..

theorem tile_loaded_other (x : Core) {code j : Nat} (h : j ≠ code) (tw : Bool) : (x.loaded code tw).tile j = x.tile j := by
  rw [Core.loaded, tile_coreRetire_other _ h, tile_withCells]

theorem st_loaded (x : Core) (code : Nat) (tw : Bool) : ((x.loaded code tw).tile code).st = 0 := by
  rw [Core.loaded, tile_coreRetire_same]

theorem work_loadRows (s : State) (k code n : Nat) : ((s.loadRows k code n).2.core k).work = (s.core k).work := by
  refine foldl_keeps (g := fun b : Bool × State => (b.2.core k).work) (fun b r => ?_) _ (false, s)
  exact (work_errMchk ..).trans (work_meetRow ..)

theorem fmt_cellsOf (w : Tile) (code : Nat) (tw : Bool) : (cellsOf w code tw).fmt = w.fmt := by
  rw [cellsOf]
  exact foldl_keeps (g := Cells.fmt) (by intro x i; rfl) _ _

theorem cells0_loaded (x : Core) (code : Nat) (tw : Bool) : (x.loaded code tw).cells0 = cellsOf (x.tile code) code tw := by
  obtain ⟨ts, us, h⟩ := loaded_frame x code tw
  rw [h]

theorem fmt_cells0_loaded (x : Core) (code : Nat) (tw : Bool) : (x.loaded code tw).cells0.fmt = (x.tile code).fmt := by
  rw [cells0_loaded, fmt_cellsOf]

end Sys2Proof.Machine
end

section
/-! SUPPORT. An MMBWD that runs, whatever errors it meets (R166, R218, R223). -/

namespace Sys2Proof.Machine
open Sys2Proof Sys2Proof.Claims

section
variable (s : State) (k dy dx xf w z : Nat) (acc keep tw held : Bool)

/-- An MMBWD without KEEP has loaded its W register; and whether an error stood in it (R218, R220). -/
def State.weightsIn : Bool × State := if keep then (false, s) else s.loadCells k 0 w tw

/-- What an MMBWD's two parts leave (R218). -/
def State.mmbwd : State :=
  ((s.weightsIn k w keep tw).2.pass k 0 dy 7 z acc held (s.weightsIn k w keep tw).1).accTiles k dy dx xf ((s.core k).tile dy).broken

variable {s k dy dx xf w z acc keep tw held} {c : CoreId}

/-- An MMBWD that stands alone in the accepted work runs, once its W register is FULL (R166, R218, R223). -/
theorem execMmbwdRun_alone (hp : s.corePowered (coreKey c) = true)
    (hbg : (s.core (coreKey c)).bg = [.mmbwd dy dx xf w z acc keep tw held])
    (hw : keep = false → ((s.core (coreKey c)).tile w).st = 2) :
    exec (.mmbwdRun c) s = .next ((s.mmbwd (coreKey c) dy dx xf w z acc keep tw held).updCore (coreKey c) fun x => x.dropBg 0) := by
  have hstart : ((s.core (coreKey c)).free? 0 (.mmbwd dy dx xf w z acc keep tw held)
      && (keep || ((s.core (coreKey c)).tile w).st == 2)) = true := by
    cases keep with
    | true => rfl
    | false => rw [hw rfl]; rfl
  rw [exec, execMmbwdRun]
  dsimp only
  rw [if_pos hp, Core.firstBg, hbg]
  dsimp only [List.zipIdx_cons, List.find?_cons, Option.map_some]
  rw [if_pos hstart, State.mmbwd, State.weightsIn]

theorem work_mmbwd : ((s.mmbwd k dy dx xf w z acc keep tw held).core k).work
    = { ((s.weightsIn k w keep tw).2.core k).work with
        mode1 := true, atok := min (((s.weightsIn k w keep tw).2.core k).atok
          + (((s.weightsIn k w keep tw).2.core k).tile dy).rows) 0xFFFFFFFF } := by
  have hpass := work_pass (s.weightsIn k w keep tw).2 k 0 dy 7 z acc held (s.weightsIn k w keep tw).1
  have hatok := congrArg ArrayWork.atok hpass
  have hrows := congrArg (fun a => (a.tiles dy).2.1) hpass
  dsimp only [Core.work] at hatok hrows
  rw [State.mmbwd, work_accTiles, hpass, hatok, hrows]

/-- What a load of weights leaves of the accepted work, the count of tokens and the tiles but the W register (R177, R220). -/
theorem weightsIn_work (hdy : dy ≠ w) : ((s.weightsIn k w keep tw).2.core k).bg = (s.core k).bg
    ∧ ((s.weightsIn k w keep tw).2.core k).atok = (s.core k).atok
    ∧ (((s.weightsIn k w keep tw).2.core k).tile dy).rows = ((s.core k).tile dy).rows
    ∧ (keep = false → (((s.weightsIn k w keep tw).2.core k).tile w).st = 0
      ∧ ((s.weightsIn k w keep tw).2.core k).cells0.fmt = ((s.core k).tile w).fmt) := by
  rw [State.weightsIn]
  cases keep with
  | true => exact ⟨rfl, rfl, rfl, fun h => absurd h.symm Bool.false_ne_true⟩
  | false =>
    rw [if_neg Bool.false_ne_true, loadCells_eq s k w tw rfl]
    dsimp only
    have hwork := work_loadRows s k w 32
    generalize (s.loadRows k w 32).2 = u at hwork ⊢
    obtain ⟨ts, us, hloaded⟩ := loaded_frame (u.core k) w tw
    have hrows : ((u.core k).tile dy).rows = ((s.core k).tile dy).rows := congrArg (fun a => (a.tiles dy).2.1) hwork
    have hfmt : ((u.core k).tile w).fmt = ((s.core k).tile w).fmt := congrArg (fun a => (a.tiles w).2.2) hwork
    rw [State.core_updCore_same]
    refine ⟨?_, ?_, by rw [tile_loaded_other _ hdy, hrows], fun _ => ⟨st_loaded .., ?_⟩⟩
    · rw [hloaded]
      exact congrArg ArrayWork.bg hwork
    · rw [hloaded]
      exact congrArg ArrayWork.atok hwork
    · rw [fmt_cells0_loaded, hfmt]

/-- A core with another's array work but for MODE1 and the count of tokens. -/
theorem work_counted {x y : Core} {n : Nat} (h : y.work = { x.work with mode1 := true, atok := n }) :
    y.bg = x.bg ∧ y.mode1 = true ∧ y.atok = n ∧ y.cells0 = x.cells0 ∧ ∀ j, (y.tile j).st = (x.tile j).st :=
  ⟨congrArg ArrayWork.bg h, congrArg ArrayWork.mode1 h, congrArg ArrayWork.atok h, congrArg ArrayWork.cells0 h,
    fun j => congrArg (fun a => (a.tiles j).1) h⟩

/-- An MMBWD keeps the accepted work, counts its tokens and leaves array 1 output-stationary; without KEEP its W register is EMPTY, and
array 0's cells are of that register's format (R177, R218, R220, R221). -/
theorem mmbwd_work (hdy : dy ≠ w) : ((s.mmbwd k dy dx xf w z acc keep tw held).core k).bg = (s.core k).bg
    ∧ ((s.mmbwd k dy dx xf w z acc keep tw held).core k).mode1 = true
    ∧ ((s.mmbwd k dy dx xf w z acc keep tw held).core k).atok = min ((s.core k).atok + ((s.core k).tile dy).rows) 0xFFFFFFFF
    ∧ (keep = false → (((s.mmbwd k dy dx xf w z acc keep tw held).core k).tile w).st = 0
      ∧ ((s.mmbwd k dy dx xf w z acc keep tw held).core k).cells0.fmt = ((s.core k).tile w).fmt) := by
  obtain ⟨hbg, hmode, hatok, hcells, hst⟩ := work_counted (work_mmbwd (s := s) (k := k) (dy := dy) (dx := dx) (xf := xf) (w := w) (z := z)
    (acc := acc) (keep := keep) (tw := tw) (held := held))
  obtain ⟨hbg', hatok', hrows', hload⟩ := weightsIn_work (s := s) (k := k) (w := w) (keep := keep) (tw := tw) hdy
  refine ⟨hbg.trans hbg', hmode, ?_, fun hkeep => ?_⟩
  · rw [hatok, hatok', hrows']
  · rw [hst, hcells]
    exact hload hkeep

end

end Sys2Proof.Machine
end

section
/-! SUPPORT. Rows that background work goes through one after another where it meets no error, and rows written to a Z tile
(R161, R193). -/

namespace Sys2Proof.Machine
open Sys2Proof Sys2Proof.Claims

/-- A core has changed, and no armed injection has struck. -/
structure CoreRan (k : Nat) (f : Core → Core) (s t : State) : Prop where
  armed : t.armed = s.armed
  core : t.core k = f (s.core k)

namespace CoreRan
variable {k : Nat}

theorem updCore (f : Core → Core) (s : State) : CoreRan k f s (s.updCore k f) := ⟨rfl, State.core_updCore_same ..⟩

theorem trans {f g : Core → Core} {s t u : State} (h : CoreRan k f s t) (h' : CoreRan k g t u) : CoreRan k (g ∘ f) s u :=
  ⟨h'.armed.trans h.armed, by rw [h'.core, h.core]; rfl⟩

/-- Rows that meet no error and keep it so. -/
theorem rows {P : Core → Prop} {F : Bool × State → Nat → Bool × State} {f : Nat → Core → Core} {s : State}
    (harm : s.armed.get [] (unitOfKey k) = [])
    (hF : ∀ b (u : State) r, u.armed.get [] (unitOfKey k) = [] → P (u.core k) → ∃ v, F (b, u) r = (b, v) ∧ CoreRan k (f r) u v)
    (hP : ∀ r x, P x → P (f r x)) (hs : P (s.core k)) (l : List Nat) (b : Bool) :
    ∃ t, l.foldl F (b, s) = (b, t) ∧ CoreRan k (fun x => l.foldl (fun x r => f r x) x) s t := by
  induction l generalizing s with
  | nil => exact ⟨s, rfl, rfl, rfl⟩
  | cons r l ih =>
    obtain ⟨u, hu, hran⟩ := hF b s r harm hs
    obtain ⟨t, ht, hran'⟩ := ih (s := u) (by rw [hran.armed, harm]) (by rw [hran.core]; exact hP r _ hs)
    exact ⟨t, by rw [List.foldl_cons, hu, ht], hran.trans hran'⟩

end CoreRan

/-! ### A row written to a Z tile -/

/-- A tile with a row written where nothing armed strikes (R193). -/
def Tile.withRow (code r v : Nat) (t : Tile) : Tile :=
  { t with data := writeBytes t.data (rowBytes code * r) (leBytes (rowBytes code) v), bad := t.bad.filter fun b => b / 8 != r }

theorem putRow_unarmed {s : State} {k : Nat} (harm : s.armed.get [] (unitOfKey k) = []) (code r v : Nat) :
    s.putRow k code r v [] = s.updCore k fun x => x.updTile code (Tile.withRow code r v) := by
  rw [State.putRow, armedErr_unarmed harm]
  refine updCore_congr (congrArg (fun g => Core.updTile _ code g) (funext fun t => ?_))
  simp [Tile.withRow]

section
variable {code : Nat} (hz : isZ code = true) (t : Tile) (r v : Nat)
include hz

/-- The row written holds the elements packed in it (R161, R197). -/
theorem z_withRow_same {p : Nat} (hp : p < 32) : (t.withRow code r v).z r p = (v >>> (32 * p)) % 2 ^ 32 := by
  have hsize : rowBytes code = 128 := if_pos hz
  have hbytes : readBytes (t.withRow code r v).data (128 * r + 4 * p) 4 = leBytes 4 (v >>> (32 * p)) := by
    rw [leBytes_eq_map, readBytes, rangeFrom, List.map_map]
    refine List.map_congr_left fun i hi => ?_
    have hi := List.mem_range.mp hi
    have hlen : 4 * p + i < (leBytes 128 v).length := by rw [length_leBytes]; omega
    have hbyte := get_writeBytes_at (m := t.data) (a := 128 * r) hlen
    simp only [leBytes_eq_map, List.getElem_map, List.getElem_range] at hbyte
    rw [Function.comp_apply, Tile.withRow, hsize, Nat.add_assoc, leBytes_eq_map, hbyte, Nat.shiftRight_eq_div_pow, Nat.div_div_eq_div_mul,
      show (256 : Nat) ^ (4 * p + i) = 2 ^ (32 * p) * 256 ^ i by rw [pow_add, pow_mul, pow_mul]; rfl]
  rw [Tile.z, hbytes, ofLe_leBytes]

/-- The other rows keep theirs. -/
theorem z_withRow_other {q : Nat} (hq : q ≠ r) {p : Nat} (hp : p < 32) : (t.withRow code r v).z q p = t.z q p := by
  have hsize : rowBytes code = 128 := if_pos hz
  rw [Tile.z, Tile.withRow, hsize, readBytes_writeBytes_other]
  · rfl
  · rw [length_leBytes]
    omega

end

/-- The first n rows of a Z tile from a first row on have been written, and of the core nothing else but flags has changed. -/
structure RowsWritten (z base : Nat) (v : Nat → List Nat) (n : Nat) (x y : Core) : Prop where
  frame : ∃ ts fl, y = { x with tiles := ts, mxflags := fl }
  others : ∀ j, j ≠ z → y.tile j = x.tile j
  sound : (x.tile z).bad = [] → (y.tile z).bad = []
  row : ∀ r < n, ∀ p < 32, (y.tile z).z (base + r) p = (v r).getD p 0 % 2 ^ 32
  rest : ∀ r, base + n ≤ r → ∀ p < 32, (y.tile z).z r p = (x.tile z).z r p

namespace RowsWritten
variable {z base : Nat} {v : Nat → List Nat} {x : Core}

theorem refl (z base : Nat) (v : Nat → List Nat) (x : Core) : RowsWritten z base v 0 x x :=
  ⟨⟨x.tiles, x.mxflags, rfl⟩, fun _ _ => rfl, id, fun _ h => absurd h (Nat.not_lt_zero _), fun _ _ _ _ => rfl⟩

theorem succ (hz : isZ z = true) {n : Nat} {y y' : Core} (h : RowsWritten z base v n x y)
    (hy : ∃ fl, y' = { y.updTile z (Tile.withRow z (base + n) (packRow (v n))) with mxflags := fl }) :
    RowsWritten z base v (n + 1) x y' := by
  obtain ⟨fl, rfl⟩ := hy
  have hsame : ({ y.updTile z (Tile.withRow z (base + n) (packRow (v n))) with mxflags := fl } : Core).tile z
      = (y.tile z).withRow z (base + n) (packRow (v n)) := tile_updTile_same ..
  obtain ⟨ts, fl', hframe⟩ := h.frame
  refine ⟨⟨_, fl, by rw [hframe]; rfl⟩, fun j hj => (tile_updTile_other y hj _).trans (h.others j hj), fun hbad => ?_, fun r hr p hp => ?_,
    fun r hr p hp => ?_⟩
  · rw [hsame, Tile.withRow, h.sound hbad]
    rfl
  · rw [hsame]
    by_cases hrn : r = n
    · rw [hrn, z_withRow_same hz _ _ _ hp, packRow, packBits_shiftRight]
    · rw [z_withRow_other hz _ _ _ (by omega) hp, h.row r (by omega) p hp]
  · rw [hsame, z_withRow_other hz _ _ _ (by omega) hp, h.rest r (by omega) p hp]

/-- Rows written one after another, each with values that the rows before it leave alone. -/
theorem fold (hz : isZ z = true) {f : Nat → Core → Core}
    (hf : ∀ n y, RowsWritten z base v n x y → ∃ fl, f n y = { y.updTile z (Tile.withRow z (base + n) (packRow (v n))) with mxflags := fl })
    (n : Nat) : RowsWritten z base v n x ((List.range n).foldl (fun y r => f r y) x) := by
  induction n with
  | zero => exact refl z base v x
  | succ n ih =>
    rw [List.range_succ, List.foldl_concat]
    exact ih.succ hz (hf n _ ih)

end RowsWritten

end Sys2Proof.Machine
end

section
/-! SUPPORT. A load of weights that meets no error (R177, R220). -/

namespace Sys2Proof.Machine
open Sys2Proof Sys2Proof.Claims

theorem meetRow_sound {s : State} {k code : Nat} (hbad : ((s.core k).tile code).bad = []) (r sev : Nat) :
    s.meetRow k code r sev = (false, s) := by
  rw [State.meetRow, hbad]
  rfl

theorem armed_meterMat (s : State) (k n : Nat) : (s.meterMat k n).armed = s.armed := State.updDie_armed ..

theorem loadRows_sound {s : State} {k code : Nat} (hbad : ((s.core k).tile code).bad = []) (n : Nat) :
    s.loadRows k code n = (false, s) := by
  induction n with
  | zero => rfl
  | succ n ih =>
    rw [State.loadRows] at ih ⊢
    rw [List.range_succ, List.foldl_concat, ih, meetRow_sound hbad]
    rfl

/-- The element of a W register, with its scale, that a load puts into a cell (R220). -/
def cellElem (w : Tile) (code : Nat) (tw : Bool) (i : Nat) : Nat × Nat :=
  if tw then w.elem code w.fmt (i % 32) (i / 32) else w.elem code w.fmt (i / 32) (i % 32)

/-- The first cells that a load fills. -/
def cellsUpTo (w : Tile) (code : Nat) (tw : Bool) (n : Nat) : Cells :=
  (List.range n).foldl (fun x i => { x with code := x.code.set 0 i (cellElem w code tw i).1, scl := x.scl.set 127 i (cellElem w code tw i).2 })
    { cls := fmtClass w.fmt, fmt := w.fmt }

theorem cellsOf_eq (w : Tile) (code : Nat) (tw : Bool) : cellsOf w code tw = cellsUpTo w code tw 1024 := by
  rw [cellsOf, cellsUpTo]
  rfl

theorem cellsUpTo_get (w : Tile) (code : Nat) (tw : Bool) {n i : Nat} (hi : i < n) :
    (cellsUpTo w code tw n).code.get 0 i = (cellElem w code tw i).1 ∧ (cellsUpTo w code tw n).scl.get 127 i = (cellElem w code tw i).2 := by
  induction n with
  | zero => exact absurd hi (Nat.not_lt_zero i)
  | succ n ih =>
    rw [cellsUpTo, List.range_succ, List.foldl_concat, ← cellsUpTo]
    dsimp only
    by_cases hin : i = n
    · rw [hin, SMap.get_set_same, SMap.get_set_same]
      exact ⟨rfl, rfl⟩
    · rw [SMap.get_set_other _ _ hin, SMap.get_set_other _ _ hin]
      exact ih (by omega)

/-- A cell's weight as a load leaves it, transposed where TW is set (R220). -/
theorem weight_cellsOf (w : Tile) (code : Nat) (tw : Bool) {i n : Nat} (hi : i < 32) (hn : n < 32) :
    (cellsOf w code tw).weight i n = valueOf w.fmt (if tw then w.elem code w.fmt n i else w.elem code w.fmt i n) := by
  obtain ⟨hcode, hscale⟩ := cellsUpTo_get w code tw (n := 1024) (i := 32 * i + n) (by omega)
  have helem : cellElem w code tw (32 * i + n) = if tw then w.elem code w.fmt n i else w.elem code w.fmt i n := by
    rw [cellElem, show (32 * i + n) / 32 = i by omega, show (32 * i + n) % 32 = n by omega]
  rw [Cells.weight, fmt_cellsOf, cellsOf_eq, hcode, hscale, helem]

end Sys2Proof.Machine
end

section
/-! SUPPORT. A pass of a 16-bit format that meets no error, and its sums (R167, R193, R203, R204). -/

namespace Sys2Proof.Machine
open Sys2Proof Sys2Proof.Claims

/-- What one row of a 16-bit pass leaves of a core (R167). -/
def Core.passedRow (arr t tf z : Nat) (prior : Bool) (x : Core) (r : Nat) : Core :=
  let o := (x.cells arr).pass ((x.tile t).token tf r 0) (if prior then some ((List.range 32).map ((x.tile z).z r)) else none)
  (x.updTile z (Tile.withRow z r (packRow o.1))).orMxflags o.2

theorem passRow_sound {s : State} {k t z : Nat} (harm : s.armed.get [] (unitOfKey k) = []) (ht : ((s.core k).tile t).bad = [])
    (hz : ((s.core k).tile z).bad = []) {tf : Nat} (htf : fmtClass tf = 1) (arr : Nat) (prior : Bool) (r : Nat) :
    ∃ u, s.passRow k arr t tf z prior r = (false, u) ∧ CoreRan k (fun x => x.passedRow arr t tf z prior r) s u := by
  have hpack : packOf tf = 1 := by rw [packOf, htf]; rfl
  rw [State.passRow, meetRow_sound ht, hpack]
  dsimp only
  rw [List.range_one, List.foldl_cons, List.foldl_nil, Nat.mul_one, Nat.add_zero, if_neg Bool.false_ne_true]
  obtain ⟨o, ho⟩ : ∃ o, ((s.core k).cells arr).pass (((s.core k).tile t).token tf r 0)
      (if prior then some ((List.range 32).map (((s.core k).tile z).z r)) else none) = o := ⟨_, rfl⟩
  refine ⟨(s.putRow k z r (packRow o.1) []).updCore k fun x => x.orMxflags o.2, ?_, ?_⟩
  · cases prior with
    | true =>
      rw [if_pos rfl] at ho
      rw [zRowBg_sound hz]
      dsimp only
      rw [if_neg Bool.false_ne_true, if_pos rfl, ho]
      rfl
    | false =>
      rw [if_neg Bool.false_ne_true] at ho
      rw [State.zRowBg, if_neg Bool.false_ne_true]
      dsimp only
      rw [if_neg Bool.false_ne_true, if_neg Bool.false_ne_true, ho]
      rfl
  · rw [putRow_unarmed harm]
    refine ⟨rfl, ?_⟩
    rw [State.core_updCore_same, State.core_updCore_same, Core.passedRow, ho]

/-- The row that a token of a 16-bit pass gives (R167). -/
def Core.passOut (arr t tf z : Nat) (prior : Bool) (x : Core) (r : Nat) : List Nat :=
  ((x.cells arr).pass ((x.tile t).token tf r 0) (if prior then some ((List.range 32).map ((x.tile z).z r)) else none)).1

theorem map_zipIdx_range {α β : Type} (l : List α) (d : α) (f : α → Nat → β) :
    (l.zipIdx.map fun v => f v.1 v.2) = (List.range l.length).map fun i => f (l.getD i d) i := by
  refine List.ext_getElem (by simp) fun i hi _ => ?_
  have hi : i < l.length := by simpa using hi
  simp [hi]

/-- An element of that row is the exact sum of the products, after the prior value where there is one, rounded once (R167, R204). -/
theorem passOut_getD (arr t tf z : Nat) (prior : Bool) (x : Core) (r : Nat) {n : Nat} (hn : n < 32) :
    (x.passOut arr t tf z prior r).getD n 0 = (accum (if prior then some ((x.tile z).z r n) else none)
      (exactSum ((List.range 32).map fun i => fvMul (((x.tile t).token tf r 0).getD i .nan) ((x.cells arr).weight i n)))).1 := by
  have hlen : ((x.tile t).token tf r 0).length = 32 := by simp [Tile.token]
  have hprior : ((if prior then some ((List.range 32).map ((x.tile z).z r)) else none).map fun z => z.getD n 0)
      = if prior then some ((x.tile z).z r n) else none := by
    cases prior with
    | true => simp [hn]
    | false => rfl
  rw [Core.passOut, Cells.pass]
  simp only [List.map_map]
  rw [List.getD_eq_getElem _ _ (by simpa using hn), List.getElem_map, List.getElem_range, Function.comp_apply, hprior,
    map_zipIdx_range _ FV.nan fun v i => fvMul v ((x.cells arr).weight i n), hlen]

theorem passedRow_eq (arr t tf z : Nat) (prior : Bool) (x : Core) (r : Nat) : ∃ fl, x.passedRow arr t tf z prior r
    = { x.updTile z (Tile.withRow z r (packRow (x.passOut arr t tf z prior r))) with mxflags := fl } := ⟨_, rfl⟩

section
variable {s : State} {k t z : Nat} (harm : s.armed.get [] (unitOfKey k) = []) (ht : ((s.core k).tile t).bad = [])
  (hzbad : ((s.core k).tile z).bad = []) (hne : t ≠ z) {tf : Nat} (htf : fmtClass tf = 1) (arr : Nat)
include harm ht hzbad hne htf

theorem passRows_sound (prior : Bool) (n : Nat) (b : Bool) : ∃ u, s.passRows k arr t tf z prior n b = (b, u)
    ∧ CoreRan k (fun x => (List.range n).foldl (fun x r => x.passedRow arr t tf z prior r) x) s u := by
  refine CoreRan.rows (P := fun x => (x.tile t).bad = [] ∧ (x.tile z).bad = []) harm (fun b u r hu hP => ?_) (fun r x hP => ?_)
    ⟨ht, hzbad⟩ (List.range n) b
  · obtain ⟨v, hv, hran⟩ := passRow_sound hu hP.1 hP.2 htf arr prior r
    exact ⟨v, by rw [hv, Bool.or_false], hran⟩
  · obtain ⟨fl, h⟩ := passedRow_eq arr t tf z prior x r
    obtain ⟨hxt, hxz⟩ := hP
    rw [h]
    refine ⟨(congrArg Tile.bad (tile_updTile_other x hne _)).trans hxt, (congrArg Tile.bad (tile_updTile_same x z _)).trans ?_⟩
    rw [Tile.withRow, hxz]
    rfl

omit harm ht hzbad hne htf in
theorem passEnd_sound (harm : s.armed.get [] (unitOfKey k) = []) (arr z rows : Nat) : CoreRan k id s (s.passEnd k arr z rows false) := by
  have hres : s.residue k arr = (false, s) := by rw [State.residue, takeArmed_unarmed (by simp [harm])]
  rw [State.passEnd, hres]
  exact ⟨armed_meterMat .., core_meterMat ..⟩

end

/-- The rows of a 16-bit pass on a core (R167). -/
theorem passedRows_written {z t : Nat} (hz : isZ z = true) (hne : t ≠ z) (arr tf : Nat) (prior : Bool) (x : Core) (n : Nat) :
    RowsWritten z 0 (x.passOut arr t tf z prior) n x ((List.range n).foldl (fun x r => x.passedRow arr t tf z prior r) x) := by
  refine .fold hz (fun r y hy => ?_) n
  obtain ⟨fl, h⟩ := passedRow_eq arr t tf z prior y r
  have hcells : y.cells arr = x.cells arr := by
    obtain ⟨ts, fl, hframe⟩ := hy.frame
    rw [hframe]
    rfl
  have hprior : (List.range 32).map ((y.tile z).z r) = (List.range 32).map ((x.tile z).z r) :=
    List.map_congr_left fun p hp => hy.rest r (by omega) p (List.mem_range.mp hp)
  have hout : y.passOut arr t tf z prior r = x.passOut arr t tf z prior r := by
    rw [Core.passOut, hcells, hy.others t hne, hprior, ← Core.passOut]
  rw [Nat.zero_add, ← hout]
  exact ⟨fl, h⟩

/-- A 16-bit pass that meets no error: what its first row finds, and the rows it writes (R167, R193). -/
theorem pass_sound {s : State} {k t z : Nat} (harm : s.armed.get [] (unitOfKey k) = []) (ht : ((s.core k).tile t).bad = [])
    (hzbad : ((s.core k).tile z).bad = []) (hz : isZ z = true) (hne : t ≠ z) {tf : Nat} (htf : fmtClass tf = 1) (arr : Nat)
    (acc held : Bool) : (s.pass k arr t tf z acc held false).armed = s.armed ∧ ∃ x, PassStarted z held (s.core k) x
      ∧ RowsWritten z 0 (x.passOut arr t tf z (acc && held)) ((s.core k).tile t).rows x ((s.pass k arr t tf z acc held false).core k) := by
  have hstart := passStart_started s k t tf z acc held
  have harmed := armed_passStart s k t tf z acc held
  obtain ⟨u, hu, hran⟩ := passRows_sound (s := s.passStart k t tf z acc held) (by rw [harmed, harm]) (by rw [hstart.others t hne, ht])
    (hstart.sound hzbad) hne htf arr (acc && held) ((s.core k).tile t).rows false
  have hend := passEnd_sound (s := u) (k := k) (by rw [hran.armed, harmed, harm]) arr z ((s.core k).tile t).rows
  rw [pass_eq s k arr t tf z acc held false rfl hu]
  refine ⟨hend.armed.trans (hran.armed.trans harmed), _, hstart, ?_⟩
  rw [hend.core, hran.core]
  exact passedRows_written hz hne arr tf (acc && held) _ _

end Sys2Proof.Machine
end

section
/-! SUPPORT. The accumulators of array 1 where no error is met (R204, R218, R222). -/

namespace Sys2Proof.Machine
open Sys2Proof Sys2Proof.Claims

theorem accCells_get (a b : List FV) (x : Core) (n j : Nat) : ((List.range n).foldl (Core.accCell a b) x).acc.get 0 j
    = if j < n then BitVec.ofNat 32 (accum (some (x.acc.get 0 j).toNat) (fvMul (a.getD (j / 32) .nan) (b.getD (j % 32) .nan))).1
      else x.acc.get 0 j := by
  induction n with
  | zero => rfl
  | succ n ih =>
    rw [List.range_succ, List.foldl_concat]
    generalize (List.range n).foldl (Core.accCell a b) x = y at ih
    show (y.acc.set 0 n _).get 0 j = _
    by_cases hj : j = n
    · subst hj
      rw [if_neg (Nat.lt_irrefl j)] at ih
      rw [SMap.get_set_same, ih, if_pos (Nat.lt_succ_self j)]
    · rw [SMap.get_set_other _ _ hj, ih]
      simp only [show j < n + 1 ↔ j < n by omega]

/-- A token adds one product, rounded, to each accumulator (R204, R218). -/
theorem accToken_get (x : Core) (a b : List FV) {i n : Nat} (hi : i < 32) (hn : n < 32) :
    ((x.accToken a b).acc.get 0 (32 * i + n)).toNat
      = (accum (some (x.acc.get 0 (32 * i + n)).toNat) (fvMul (a.getD i .nan) (b.getD n .nan))).1 % 2 ^ 32 := by
  rw [accToken_eq, accCells_get, if_pos (by omega), BitVec.toNat_ofNat, show (32 * i + n) / 32 = i by omega,
    show (32 * i + n) % 32 = n by omega]

/-- A row of X and dY as array 1 takes it where no error stands in it (R218). -/
def Core.accumulated (y x xf : Nat) (c : Core) (r : Nat) : Core := c.accToken ((c.tile x).token xf r 0) ((c.tile y).token 7 r 0)

theorem accumulated_frame (y x xf : Nat) (c : Core) (r : Nat) : ∃ acc fl, c.accumulated y x xf r = { c with acc := acc, mxflags := fl } := by
  rw [Core.accumulated, accToken_eq]
  exact accCells_frame ..

theorem accRows_sound {s : State} {k x : Nat} (harm : s.armed.get [] (unitOfKey k) = []) (hx : ((s.core k).tile x).bad = [])
    (y xf n : Nat) (b : Bool) : ∃ u, s.accRows k y x xf n b = (b, u)
      ∧ CoreRan k (fun c => (List.range n).foldl (fun c r => c.accumulated y x xf r) c) s u := by
  refine CoreRan.rows (P := fun c => (c.tile x).bad = []) harm (fun b u r hu hP => ?_) (fun r c hP => ?_) hx (List.range n) b
  · have hmet : (if x = y then (false, u) else u.meetRow k x r 2) = (false, u) := by rw [meetRow_sound hP, ite_self]
    rw [State.accRow, hmet]
    dsimp only
    rw [Bool.or_false]
    exact ⟨_, rfl, .updCore ..⟩
  · obtain ⟨acc, fl, h⟩ := accumulated_frame y x xf c r
    rw [h]
    exact hP

/-- The accumulators after the rows of an MMBWD: X times dY token by token, rounded each time (R204, R218). -/
theorem accumulated_get (y x xf : Nat) (c : Core) (m : Nat) :
    (∃ acc fl, (List.range m).foldl (fun c r => c.accumulated y x xf r) c = { c with acc := acc, mxflags := fl })
    ∧ ∀ i < 32, ∀ n < 32, (((List.range m).foldl (fun c r => c.accumulated y x xf r) c).acc.get 0 (32 * i + n)).toNat
      = (List.range m).foldl (fun a r => (accum (some a)
          (fvMul (((c.tile x).token xf r 0).getD i .nan) (((c.tile y).token 7 r 0).getD n .nan))).1 % 2 ^ 32)
        (c.acc.get 0 (32 * i + n)).toNat := by
  induction m with
  | zero => exact ⟨⟨c.acc, c.mxflags, rfl⟩, fun _ _ _ _ => rfl⟩
  | succ m ih =>
    obtain ⟨⟨acc, fl, hframe⟩, hget⟩ := ih
    rw [List.range_succ, List.foldl_concat]
    refine ⟨?_, fun i hi n hn => ?_⟩
    · obtain ⟨acc', fl', h⟩ := accumulated_frame y x xf ((List.range m).foldl (fun c r => c.accumulated y x xf r) c) m
      rw [h, hframe]
      exact ⟨acc', fl', rfl⟩
    · have htile : ∀ j, ((List.range m).foldl (fun c r => c.accumulated y x xf r) c).tile j = c.tile j := fun j => by rw [hframe]; rfl
      rw [List.foldl_concat, Core.accumulated, accToken_get _ _ _ hi hn, hget i hi n hn, htile, htile]

/-- Array 1's part of an MMBWD whose X meets no error: the tiles stay, and the accumulators take its tokens, from +0.0 where the array was
not output-stationary (R218, R222). -/
theorem accTiles_sound {s : State} {k x : Nat} (harm : s.armed.get [] (unitOfKey k) = []) (hx : ((s.core k).tile x).bad = [])
    (y xf : Nat) (ybad : Bool) : ((s.accTiles k y x xf ybad).core k).tiles = (s.core k).tiles
      ∧ ∀ i < 32, ∀ n < 32, (((s.accTiles k y x xf ybad).core k).acc.get 0 (32 * i + n)).toNat
        = (List.range ((s.core k).tile y).rows).foldl (fun a r => (accum (some a)
            (fvMul ((((s.core k).tile x).token xf r 0).getD i .nan) ((((s.core k).tile y).token 7 r 0).getD n .nan))).1 % 2 ^ 32)
          (if (s.core k).mode1 then ((s.core k).acc.get 0 (32 * i + n)).toNat else 0) := by
  have htiles : (s.core k).enterMode1.tiles = (s.core k).tiles := by
    rw [Core.enterMode1]
    split_ifs <;> rfl
  have htile : ∀ j, (s.core k).enterMode1.tile j = (s.core k).tile j := fun j => by rw [Core.tile, htiles]; rfl
  have hacc : ∀ j, ((s.core k).enterMode1.acc.get 0 j).toNat = if (s.core k).mode1 then ((s.core k).acc.get 0 j).toNat else 0 := fun j => by
    rw [Core.enterMode1]
    split_ifs <;> rfl
  obtain ⟨u, hu, hran⟩ := accRows_sound (s := s.updCore k Core.enterMode1) harm (by rw [State.core_updCore_same, htile, hx]) y xf
    ((s.core k).tile y).rows ybad
  obtain ⟨⟨acc, fl, hframe⟩, hget⟩ := accumulated_get y x xf (s.core k).enterMode1 ((s.core k).tile y).rows
  have hcore : (s.accTiles k y x xf ybad).core k = Core.countTokens ((s.core k).tile y).rows ybad (u.accResidue k).1
      ((List.range ((s.core k).tile y).rows).foldl (fun c r => c.accumulated y x xf r) (s.core k).enterMode1) := by
    rw [accTiles_eq s k y x xf ybad rfl hu, State.accEnd, core_meterMat, State.core_updCore_same, core_congr (cores_accResidue ..),
      hran.core, State.core_updCore_same]
  simp only [htile, hacc] at hget
  rw [hcore]
  exact ⟨by rw [hframe]; exact htiles, hget⟩

end Sys2Proof.Machine
end

section
/-! SUPPORT. The sums of an MMBWD that meets no error (R218, R220). -/

namespace Sys2Proof.Machine
open Sys2Proof Sys2Proof.Claims

/-- The weight that an MMBWD multiplies with: the cell's as it stands under KEEP, else the one that its W register brings (R218, R220). -/
def Core.bwdWeight (x : Core) (w : Nat) (keep tw : Bool) (i n : Nat) : FV :=
  if keep then x.cells0.weight i n
  else valueOf (x.tile w).fmt (if tw then (x.tile w).elem w (x.tile w).fmt n i else (x.tile w).elem w (x.tile w).fmt i n)

theorem weightsIn_sound {s : State} {k w : Nat} {keep : Bool} (hw : keep = false → ((s.core k).tile w).bad = []) (tw : Bool) :
    ∃ u, s.weightsIn k w keep tw = (false, u) ∧ u.armed = s.armed ∧ (∀ j, j ≠ w → (u.core k).tile j = (s.core k).tile j)
      ∧ (u.core k).mode1 = (s.core k).mode1 ∧ (u.core k).acc = (s.core k).acc
      ∧ ∀ i < 32, ∀ n < 32, (u.core k).cells0.weight i n = (s.core k).bwdWeight w keep tw i n := by
  rw [State.weightsIn]
  cases keep with
  | true => exact ⟨s, rfl, rfl, fun _ _ => rfl, rfl, rfl, fun _ _ _ _ => rfl⟩
  | false =>
    obtain ⟨ts, us, h⟩ := loaded_frame (s.core k) w tw
    rw [if_neg Bool.false_ne_true, loadCells_eq s k w tw (loadRows_sound (hw rfl) 32)]
    refine ⟨_, rfl, rfl, fun j hj => ?_, ?_, ?_, fun i hi n hn => ?_⟩
    · rw [State.core_updCore_same, tile_loaded_other _ hj]
    · rw [State.core_updCore_same, h]
    · rw [State.core_updCore_same, h]
    · rw [State.core_updCore_same, cells0_loaded, weight_cellsOf _ _ _ hi hn, Core.bwdWeight, if_neg Bool.false_ne_true]

/-- The sums of R218: what an MMBWD that meets no error leaves in its Z tile and in the accumulators. -/
theorem mmbwd_sound {s : State} {k dy dx w z : Nat} {keep : Bool} (harm : s.armed.get [] (unitOfKey k) = [])
    (hdy : dy < 16) (hdx : dx < 16) (hw : 32 ≤ w) (hz : 16 ≤ z ∧ z < 32) (hdyBad : ((s.core k).tile dy).bad = [])
    (hdxBad : ((s.core k).tile dx).bad = []) (hzBad : ((s.core k).tile z).bad = []) (hwBad : keep = false → ((s.core k).tile w).bad = [])
    (xf : Nat) (acc tw held : Bool) {t : Core} (hmmbwd : (s.mmbwd k dy dx xf w z acc keep tw held).core k = t) :
    (∀ r < ((s.core k).tile dy).rows, ∀ n < 32, (t.tile z).z r n
        = (accum (if acc && held then some (((s.core k).tile z).z r n) else none) (exactSum ((List.range 32).map fun i =>
            fvMul ((((s.core k).tile dy).token 7 r 0).getD i .nan) ((s.core k).bwdWeight w keep tw i n)))).1 % 2 ^ 32)
      ∧ ∀ i < 32, ∀ n < 32, (t.acc.get 0 (32 * i + n)).toNat
        = (List.range ((s.core k).tile dy).rows).foldl (fun a r => (accum (some a)
            (fvMul ((((s.core k).tile dx).token xf r 0).getD i .nan) ((((s.core k).tile dy).token 7 r 0).getD n .nan))).1 % 2 ^ 32)
          (if (s.core k).mode1 then ((s.core k).acc.get 0 (32 * i + n)).toNat else 0) := by
  obtain ⟨u, hu, harmu, htileu, hmode, hacc, hweight⟩ := weightsIn_sound hwBad tw
  obtain ⟨harmv, x, ⟨⟨ts, hx⟩, hxother, -, -, hxz⟩, hrows⟩ := pass_sound (s := u) (k := k) (t := dy) (z := z) (tf := 7)
    (by rw [harmu, harm]) (by rw [htileu dy (by omega), hdyBad]) (by rw [htileu z (by omega), hzBad]) (decide_eq_true hz) (by omega) rfl 0
    acc held
  rw [State.mmbwd, hu] at hmmbwd
  dsimp only at hmmbwd
  generalize u.pass k 0 dy 7 z acc held false = v at harmv hrows hmmbwd
  obtain ⟨ts', fl, hv⟩ := hrows.frame
  have htilev : ∀ j, j ≠ z → j ≠ w → (v.core k).tile j = (s.core k).tile j := fun j hjz hjw => by
    rw [hrows.others j hjz, hxother j hjz, htileu j hjw]
  have hmodev : (v.core k).mode1 = (s.core k).mode1 := by rw [hv, hx]; exact hmode
  have haccv : (v.core k).acc = (s.core k).acc := by rw [hv, hx]; exact hacc
  obtain ⟨htiles, hsums⟩ := accTiles_sound (s := v) (k := k) (x := dx) (by rw [harmv, harmu, harm])
    (by rw [htilev dx (by omega) (by omega), hdxBad]) dy xf ((s.core k).tile dy).broken
  rw [htilev dx (by omega) (by omega), htilev dy (by omega) (by omega), hmodev, haccv, hmmbwd] at hsums
  rw [hmmbwd] at htiles
  refine ⟨fun r hr n hn => ?_, hsums⟩
  have htz : t.tile z = (v.core k).tile z := by rw [Core.tile, htiles]; rfl
  have hxdy : x.tile dy = (s.core k).tile dy := by rw [hxother dy (by omega), htileu dy (by omega)]
  have hprior : (if acc && held then some ((x.tile z).z r n) else none) = if acc && held then some (((s.core k).tile z).z r n) else none := by
    cases held with
    | true => rw [Tile.z, hxz rfl, htileu z (by omega), ← Tile.z]
    | false => rw [Bool.and_false, if_neg Bool.false_ne_true, if_neg Bool.false_ne_true]
  have hcells : (x.cells 0).weight = (u.core k).cells0.weight := by rw [hx]; rfl
  have hproducts : ((List.range 32).map fun i => fvMul ((((s.core k).tile dy).token 7 r 0).getD i .nan) ((u.core k).cells0.weight i n))
      = (List.range 32).map fun i => fvMul ((((s.core k).tile dy).token 7 r 0).getD i .nan) ((s.core k).bwdWeight w keep tw i n) :=
    List.map_congr_left fun i hi => by rw [hweight i (List.mem_range.mp hi) n hn]
  have hrow := hrows.row r (by rwa [htileu dy (by omega)]) n hn
  rw [passOut_getD _ _ _ _ _ _ _ hn, Nat.zero_add, hprior, hxdy, hcells, hproducts] at hrow
  rw [htz, hrow]

end Sys2Proof.Machine
end

section
/-! SUPPORT. ZDRAIN where it runs: BSTAT, the drain shadow, and the rows that it leaves (R221, R224, R225). -/

namespace Sys2Proof.Machine
open Sys2Proof Sys2Proof.Claims

/-! ### BSTAT (R221) -/

theorem sysRead_bstat (s : State) (k : Nat) : s.sysRead k 0x0EA = (s.core k).bstat k := rfl

/-- BSTAT.DSH tells whether the drain shadow is being written (R221, R225). -/
theorem bstat_dsh (x : Core) (k : Nat) : (x.bstat k).getLsbD 5 = x.shadow.isSome := by
  have hbit : ∀ a g p d t m : Nat, d ≤ 1 → t ≤ 1 → m ≤ 1 →
      (a * 2 ^ 32 + g * 256 + p * 64 + d * 32 + t * 16 + m) / 2 ^ 5 % 2 = d := by
    intro a g p d t m hd ht hm
    omega
  have hle : ∀ b, b2n b ≤ 1 := by decide
  rw [Core.bstat, w64, BitVec.getLsbD_ofNat, Nat.testBit_eq_decide_div_mod_eq, hbit _ _ _ _ _ _ (hle _) (hle _) (hle _)]
  cases x.shadow <;> rfl

/-! ### ZDRAIN -/

section
variable {s : State} {c : CoreId} {z roff : Nat} {acc held : Bool} (hp : s.corePowered (coreKey c) = true)
  (hbg : (s.core (coreKey c)).bg = [.zdrain z roff acc held])
include hp hbg

/-- The first command of a ZDRAIN that stands alone takes the drain shadow (R225; notes/assumptions/13). -/
theorem execZdrainWave_takes (hnone : (s.core (coreKey c)).shadow = none) :
    exec (.zdrainWave c) s = .next (s.updCore (coreKey c) Core.takeShadow) := by
  rw [exec, execZdrainWave]
  rw [if_pos hp, Core.firstBg, hbg]
  dsimp only [List.zipIdx_cons, List.find?_cons, Option.map_some, BgOp.isDrain]
  rw [hnone]
  rfl

/-- The second writes it into the Z tile. -/
theorem execZdrainWave_writes {w : Shadow} (hsome : (s.core (coreKey c)).shadow = some w) :
    exec (.zdrainWave c) s = .next ((s.drain (coreKey c) z roff acc held w).updCore (coreKey c) fun x => x.dropBg 0) := by
  rw [exec, execZdrainWave]
  rw [if_pos hp, Core.firstBg, hbg]
  dsimp only [List.zipIdx_cons, List.find?_cons, Option.map_some, BgOp.isDrain]
  rw [hsome]
  rfl

end

/-- A ZDRAIN before its first row: the shadow is free again, and a Z tile that holds no data has none left from earlier (R224). -/
def State.drainStart (s : State) (k z : Nat) (held : Bool) : State :=
  let s' := s.updCore k fun x => { x with shadow := none }
  if held then s' else s'.updCore k fun x => x.updTile z fun t => { t with data := [], bad := [], poison := false }

/-- The rows of a ZDRAIN that does not add (R224). -/
def State.drainRows (s : State) (k z roff : Nat) (snap : SMap W32) (n : Nat) : Bool × State :=
  (List.range n).foldl (fun b n => (b.1 || (b.2.drainRow k z roff false snap n).1, (b.2.drainRow k z roff false snap n).2)) (false, s)

/-- A ZDRAIN of accumulators that an error had marked reports it and poisons its tile (R219, R224). -/
def State.drainEnd (s : State) (k z : Nat) (pois : Bool) : State :=
  if pois then
    ((s.poisonTile k z 0x0107).detect (unitOfKey k) { code := 0x0107, sev := 2, loc := s.locOf k, injected := true }).bgMchk k 0x0107 0
  else s

theorem drain_eq {s u : State} {k z roff : Nat} {held : Bool} {w : Shadow}
    (hrows : (s.drainStart k z held).drainRows k z roff w.snap 32 = (false, u)) :
    s.drain k z roff false held w = u.drainEnd k z w.pois := by
  rw [State.drainRows, State.drainStart] at hrows
  rw [State.drain]
  simp only [Bool.and_false, Bool.false_and, Bool.false_eq_true, if_false]
  rw [hrows]
  rfl

/-- A row of the drain shadow (R224). -/
def Shadow.row (w : Shadow) (n : Nat) : List Nat := (List.range 32).map fun i => (w.snap.get 0 (32 * n + i)).toNat

/-- One row of a ZDRAIN that does not add (R224). -/
def Core.drainedRow (z roff : Nat) (w : Shadow) (x : Core) (n : Nat) : Core :=
  x.updTile z (Tile.withRow z (32 * roff + n) (packRow (w.row n)))

theorem drainRows_sound {s : State} {k : Nat} (harm : s.armed.get [] (unitOfKey k) = []) (z roff : Nat) (w : Shadow) (n : Nat) :
    ∃ u, s.drainRows k z roff w.snap n = (false, u)
      ∧ CoreRan k (fun x => (List.range n).foldl (fun x n => x.drainedRow z roff w n) x) s u := by
  refine CoreRan.rows (P := fun _ => True) harm (fun b u n hu _ => ?_) (fun _ _ _ => trivial) trivial (List.range n) false
  dsimp only
  rw [State.drainRow, if_neg Bool.false_ne_true, putRow_unarmed hu, ← Shadow.row, Bool.or_false]
  exact ⟨_, rfl, .updCore ..⟩

/-- What the report of an error that the accumulators held leaves alone. -/
theorem drainEnd_kept (s : State) (k z : Nat) (pois : Bool) : ((s.drainEnd k z pois).core k).bg = (s.core k).bg
    ∧ ((s.drainEnd k z pois).core k).shadow = (s.core k).shadow
    ∧ (((s.drainEnd k z pois).core k).tile z).data = ((s.core k).tile z).data := by
  rw [State.drainEnd]
  cases pois with
  | false => exact ⟨rfl, rfl, rfl⟩
  | true =>
    rw [if_pos rfl]
    generalize ({ code := 0x0107, sev := 2, loc := s.locOf k, injected := true } : Report) = report
    obtain ⟨m, hm⟩ := core_bgMchk ((s.poisonTile k z 0x0107).detect (unitOfKey k) report) k k 0x0107 0
    obtain ⟨l, hl⟩ := core_detect (s.poisonTile k z 0x0107) k (unitOfKey k) report
    have hdata : (((s.core k).updTile z fun t => { t with poison := true, pdet := 0x0107 }).tile z).data = ((s.core k).tile z).data := by
      rw [tile_updTile_same]
    rw [hm, hl, State.poisonTile, State.core_updCore_same]
    exact ⟨rfl, rfl, hdata⟩

theorem drainStart_frame (s : State) (k z : Nat) (held : Bool) : (s.drainStart k z held).armed = s.armed
    ∧ ((s.drainStart k z held).core k).bg = (s.core k).bg ∧ ((s.drainStart k z held).core k).shadow = none := by
  rw [State.drainStart]
  cases held with
  | true => exact ⟨rfl, by rw [if_pos rfl, State.core_updCore_same], by rw [if_pos rfl, State.core_updCore_same]⟩
  | false =>
    rw [if_neg Bool.false_ne_true, State.core_updCore_same, State.core_updCore_same]
    exact ⟨rfl, rfl, rfl⟩

/-- A ZDRAIN that does not add leaves the rows of its snapshot in its Z tile, and the drain shadow free (R224, R225). -/
theorem drain_copies {s : State} {k z : Nat} (harm : s.armed.get [] (unitOfKey k) = []) (hz : isZ z = true) (roff : Nat) (held : Bool)
    (w : Shadow) : ((s.drain k z roff false held w).core k).bg = (s.core k).bg
      ∧ ((s.drain k z roff false held w).core k).shadow = none
      ∧ ∀ n < 32, ∀ p < 32, (((s.drain k z roff false held w).core k).tile z).z (32 * roff + n) p = (w.snap.get 0 (32 * n + p)).toNat := by
  obtain ⟨harm', hbg, hshadow⟩ := drainStart_frame s k z held
  obtain ⟨u, hu, hran⟩ := drainRows_sound (s := s.drainStart k z held) (by rw [harm', harm]) z roff w 32
  have hrows : RowsWritten z (32 * roff) w.row 32 ((s.drainStart k z held).core k) (u.core k) := by
    rw [hran.core]
    exact .fold hz (fun n y _ => ⟨y.mxflags, rfl⟩) 32
  obtain ⟨ts, fl, hframe⟩ := hrows.frame
  obtain ⟨hbgEnd, hshadowEnd, hdata⟩ := drainEnd_kept u k z w.pois
  rw [drain_eq hu]
  refine ⟨by rw [hbgEnd, hframe]; exact hbg, by rw [hshadowEnd, hframe]; exact hshadow, fun n hn p hp => ?_⟩
  rw [Tile.z, hdata, ← Tile.z, hrows.row n hn p hp, Shadow.row]
  rw [List.getD_eq_getElem _ _ (by simpa using hp), List.getElem_map, List.getElem_range, Nat.mod_eq_of_lt (BitVec.isLt _)]

end Sys2Proof.Machine
end

section
/-! SUPPORT. GACC where it runs: the rows that a PUT leaves in the wide gradient buffer, and a GET in its Z tile (R226, R227, R230). -/

namespace Sys2Proof.Machine
open Sys2Proof Sys2Proof.Claims

theorem execGaccRun_alone {s : State} {c : CoreId} {form z row : Nat} {held : Bool} (hp : s.corePowered (coreKey c) = true)
    (hbg : (s.core (coreKey c)).bg = [.gacc form z row held]) :
    exec (.gaccRun c) s = .next ((s.gacc (coreKey c) form z row held).updCore (coreKey c) fun x => x.dropBg 0) := by
  rw [exec, execGaccRun]
  rw [if_pos hp, Core.firstBg, hbg]
  rfl

/-- The first rows of a GACC, and whether an error stood in one (R227). -/
def State.gaccRows (s : State) (k form z row : Nat) (held : Bool) (n : Nat) : Bool × State :=
  (List.range n).foldl (fun b r => (b.1 || (b.2.gaccRow k form z row held r).1, (b.2.gaccRow k form z row held r).2)) (false, s)

/-- The segments of the buffer that some rows lie in (R230). -/
def segsOf (row rows : Nat) : List Nat := rangeFrom (row / 512) ((row + rows - 1) / 512 + 1 - row / 512)

/-- A PUT clears the marks of the segments that it wrote as a whole (R230). -/
def Core.clearSegs (row rows : Nat) (x : Core) : Core :=
  (segsOf row rows).foldl (fun x g => if row ≤ 512 * g ∧ 512 * g + 512 ≤ row + rows then x.markSeg g false else x) x

theorem bg_clearSegs (row rows : Nat) (x : Core) : (x.clearSegs row rows).bg = x.bg := by
  rw [Core.clearSegs]
  exact foldl_keeps (g := Core.bg) (by intro x g; split_ifs <;> rfl) _ x
theorem gbuf_clearSegs (row rows : Nat) (x : Core) : (x.clearSegs row rows).gbuf = x.gbuf := by
  rw [Core.clearSegs]
  exact foldl_keeps (g := Core.gbuf) (by intro x g; split_ifs <;> rfl) _ x

theorem gacc_put {s u : State} {k z row rows : Nat} {held : Bool} (hsize : ((s.core k).tile z).rows = rows)
    (h : s.gaccRows k 3 z row held rows = (false, u)) : s.gacc k 3 z row held = u.updCore k (Core.clearSegs row rows) := by
  rw [State.gaccRows] at h
  rw [State.gacc, hsize]
  dsimp only
  rw [h]
  rfl

/-- A GET that finds no mark leaves its Z tile without POISON (R230). -/
theorem gacc_get {s u : State} {k z row rows : Nat} {held : Bool} (hsize : ((s.core k).tile z).rows = rows)
    (h : s.gaccRows k 4 z row held rows = (false, u)) (hmark : (u.core k).gbpois = 0) :
    s.gacc k 4 z row held = u.updCore k fun x => x.updTile z fun t => { t with poison := false, pdet := 0x0108 } := by
  rw [State.gaccRows] at h
  rw [State.gacc, hsize]
  dsimp only
  rw [h]
  have hnone : ((rangeFrom (row / 512) ((row + rows - 1) / 512 + 1 - row / 512)).any fun g => (u.core k).gbpois.getLsbD g) = false := by
    simp [hmark]
  dsimp only
  rw [hnone]
  rfl

/-! ### Rows of the buffer -/

/-- A core with a row of the buffer written where nothing armed strikes (R226). -/
def Core.withBufRow (r : Nat) (vs : List Nat) (x : Core) : Core :=
  { x with gbuf := vs.zipIdx.foldl (fun m v => m.set 0 (32 * r + v.2) (BitVec.ofNat 32 v.1)) x.gbuf
           gbBad := x.gbBad.filter fun b => b / 8 != r }

theorem gbPut_unarmed {s : State} {k : Nat} (harm : s.armed.get [] (unitOfKey k) = []) (r : Nat) (vs : List Nat) :
    s.gbPut k r vs = s.updCore k (Core.withBufRow r vs) := by
  rw [State.gbPut, armedErr_unarmed harm]
  refine updCore_congr ?_
  simp [Core.withBufRow]

/-- The elements of a row that is written, and the others (R226). -/
theorem gbuf_withBufRow (r : Nat) (vs : List Nat) (x : Core) (j : Nat) : (x.withBufRow r vs).gbuf.get 0 j
    = if 32 * r ≤ j ∧ j < 32 * r + vs.length then BitVec.ofNat 32 (vs.getD (j - 32 * r) 0) else x.gbuf.get 0 j := by
  have hvs : vs.zipIdx = (List.range vs.length).map fun i => (vs.getD i 0, i) := by
    rw [← map_zipIdx_range vs 0 fun v i => (v, i)]
    simp
  have hfold : ∀ n, ((List.range n).foldl (fun m i => SMap.set 0 m (32 * r + i) (BitVec.ofNat 32 (vs.getD i 0))) x.gbuf).get 0 j
      = if 32 * r ≤ j ∧ j < 32 * r + n then BitVec.ofNat 32 (vs.getD (j - 32 * r) 0) else x.gbuf.get 0 j := fun n => by
    induction n with
    | zero => rw [if_neg (by omega)]; rfl
    | succ n ih =>
      rw [List.range_succ, List.foldl_concat]
      by_cases hj : j = 32 * r + n
      · rw [hj, SMap.get_set_same, if_pos (by omega), Nat.add_sub_cancel_left]
      · rw [SMap.get_set_other _ _ hj, ih]
        simp only [show (32 * r ≤ j ∧ j < 32 * r + n) ↔ (32 * r ≤ j ∧ j < 32 * r + (n + 1)) by omega]
  rw [Core.withBufRow]
  dsimp only
  rw [hvs, List.foldl_map, hfold]

/-- One row of a PUT (R227). -/
def Core.putBufRow (z row : Nat) (x : Core) (r : Nat) : Core := x.withBufRow (row + r) ((List.range 32).map ((x.tile z).z r))

/-- The rows of a PUT: the buffer holds them, and of the core only its buffer has changed (R226, R227). -/
theorem putBufRows_get (z row : Nat) (x : Core) (n : Nat) :
    (∃ m b, (List.range n).foldl (fun x r => x.putBufRow z row r) x = { x with gbuf := m, gbBad := b })
    ∧ ∀ r < n, ∀ p < 32, (((List.range n).foldl (fun x r => x.putBufRow z row r) x).gbuf.get 0 (32 * (row + r) + p)).toNat
      = (x.tile z).z r p := by
  induction n with
  | zero => exact ⟨⟨x.gbuf, x.gbBad, rfl⟩, fun _ h => absurd h (Nat.not_lt_zero _)⟩
  | succ n ih =>
    obtain ⟨⟨m, b, hframe⟩, hget⟩ := ih
    rw [List.range_succ, List.foldl_concat]
    generalize (List.range n).foldl (fun x r => x.putBufRow z row r) x = y at hframe hget ⊢
    refine ⟨⟨_, _, by rw [hframe]; rfl⟩, fun r hr p hp => ?_⟩
    have htile : y.tile z = x.tile z := by rw [hframe]; rfl
    rw [Core.putBufRow, gbuf_withBufRow, List.length_map, List.length_range]
    by_cases hrn : r = n
    · rw [hrn, if_pos (by omega), Nat.add_sub_cancel_left, BitVec.toNat_ofNat, htile]
      rw [List.getD_eq_getElem _ _ (by simpa using hp), List.getElem_map, List.getElem_range, Nat.mod_eq_of_lt (z_lt ..)]
    · rw [if_neg (by omega)]
      exact hget r (by omega) p hp

theorem putRows_sound {s : State} {k z : Nat} (harm : s.armed.get [] (unitOfKey k) = []) (hbad : ((s.core k).tile z).bad = [])
    (row n : Nat) : ∃ u, s.gaccRows k 3 z row true n = (false, u)
      ∧ CoreRan k (fun x => (List.range n).foldl (fun x r => x.putBufRow z row r) x) s u := by
  refine CoreRan.rows (P := fun x => (x.tile z).bad = []) harm (fun b u r hu hP => ?_) (fun r x hP => ?_) hbad (List.range n) false
  · have hrow : u.gaccRow k 3 z row true r
        = (false, u.updCore k (Core.withBufRow (row + r) ((List.range 32).map (((u.core k).tile z).z r)))) := by
      rw [State.gaccRow, zRowBg_sound hP, ← gbPut_unarmed hu]
      rfl
    dsimp only
    rw [hrow, Bool.or_false]
    exact ⟨_, rfl, rfl, State.core_updCore_same ..⟩
  · exact hP

/-- One row of a GET (R227). -/
def Core.getBufRow (z row : Nat) (x : Core) (r : Nat) : Core := x.updTile z (Tile.withRow z r (packRow (x.gbRow (row + r))))

theorem getRows_sound {s : State} {k : Nat} (harm : s.armed.get [] (unitOfKey k) = []) (hbad : (s.core k).gbBad = [])
    (z row : Nat) (held : Bool) (n : Nat) : ∃ u, s.gaccRows k 4 z row held n = (false, u)
      ∧ CoreRan k (fun x => (List.range n).foldl (fun x r => x.getBufRow z row r) x) s u := by
  refine CoreRan.rows (P := fun x => x.gbBad = []) harm (fun b u r hu hP => ?_) (fun r x hP => ?_) hbad (List.range n) false
  · have hmeet : u.gbMeet k (row + r) = (false, u) := by rw [State.gbMeet, hP]; rfl
    have hrow : u.gaccRow k 4 z row held r
        = (false, u.updCore k fun x => x.updTile z (Tile.withRow z r (packRow ((u.core k).gbRow (row + r))))) := by
      rw [State.gaccRow, if_pos rfl, hmeet, ← putRow_unarmed hu]
    dsimp only
    rw [hrow, Bool.or_false]
    exact ⟨_, rfl, rfl, State.core_updCore_same ..⟩
  · exact hP

/-- The rows of a GET (R227). -/
theorem getBufRows_written {z : Nat} (hz : isZ z = true) (row : Nat) (x : Core) (n : Nat) :
    RowsWritten z 0 (fun r => x.gbRow (row + r)) n x ((List.range n).foldl (fun x r => x.getBufRow z row r) x) := by
  refine .fold hz (fun r y hy => ⟨y.mxflags, ?_⟩) n
  have hbuf : y.gbRow (row + r) = x.gbRow (row + r) := by
    obtain ⟨ts, fl, hframe⟩ := hy.frame
    rw [hframe]
    rfl
  rw [Core.getBufRow, hbuf, Nat.zero_add]
  rfl

/-- What a PUT leaves (R227). -/
theorem gacc_put_copies {s : State} {k z : Nat} (harm : s.armed.get [] (unitOfKey k) = []) (hbad : ((s.core k).tile z).bad = [])
    (row : Nat) : ((s.gacc k 3 z row true).core k).bg = (s.core k).bg
      ∧ ∀ r < ((s.core k).tile z).rows, ∀ p < 32,
        (((s.gacc k 3 z row true).core k).gbuf.get 0 (32 * (row + r) + p)).toNat = ((s.core k).tile z).z r p := by
  obtain ⟨u, hu, hran⟩ := putRows_sound harm hbad row ((s.core k).tile z).rows
  obtain ⟨⟨m, b, hframe⟩, hget⟩ := putBufRows_get z row (s.core k) ((s.core k).tile z).rows
  rw [gacc_put rfl hu, State.core_updCore_same, bg_clearSegs, gbuf_clearSegs, hran.core]
  exact ⟨by rw [hframe], hget⟩

/-- What a GET leaves (R227). -/
theorem gacc_get_copies {s : State} {k z : Nat} (harm : s.armed.get [] (unitOfKey k) = []) (hz : isZ z = true)
    (hbad : (s.core k).gbBad = []) (hmark : (s.core k).gbpois = 0) (row : Nat) (held : Bool) :
    ((s.gacc k 4 z row held).core k).bg = (s.core k).bg
      ∧ ∀ r < ((s.core k).tile z).rows, ∀ p < 32,
        (((s.gacc k 4 z row held).core k).tile z).z r p = ((s.core k).gbuf.get 0 (32 * (row + r) + p)).toNat := by
  obtain ⟨u, hu, hran⟩ := getRows_sound harm hbad z row held ((s.core k).tile z).rows
  have hrows := getBufRows_written hz row (s.core k) ((s.core k).tile z).rows
  rw [← hran.core] at hrows
  obtain ⟨ts, fl, hframe⟩ := hrows.frame
  rw [gacc_get rfl hu (by rw [hframe]; exact hmark), State.core_updCore_same]
  refine ⟨by rw [bg_updTile, hframe], fun r hr p hp => ?_⟩
  rw [tile_updTile_same, show Tile.z { (u.core k).tile z with poison := false, pdet := 0x0108 } r p = ((u.core k).tile z).z r p from rfl]
  have hrow := hrows.row r hr p hp
  rw [Nat.zero_add, Core.gbRow, List.getD_eq_getElem _ _ (by simpa using hp), List.getElem_map, List.getElem_range,
    Nat.mod_eq_of_lt (BitVec.isLt _)] at hrow
  exact hrow

end Sys2Proof.Machine
end

section
open Sys2Proof Sys2Proof.Machine Sys2Proof.Claims

/-- Settles O41: the checks of an accepted form pass on ready tiles; work that stands alone runs row by row, and where no row meets an error
what a row leaves is one change of the core, whose effect on a Z tile, the accumulators and the buffer is followed by induction. -/
theorem backwardPass : Obligations.BackwardPass := by
  unfold Obligations.BackwardPass
  refine ⟨fun s c hr hk h0 h1 hbg => ?_, fun s c hp harm => ⟨?_, ?_, ?_, ?_, ?_⟩⟩
  · have hidle : (s.core (coreKey c)).Idle := ⟨hbg, h0, h1⟩
    refine ⟨fun m hkeep hw hyr hyst hyf hxst hxc hxr hzst hzr hyp hxp hzp => ?_, fun z roff acc hst hroom hpoison => ?_,
      fun z a hgrad hrows hend hrow hst hpoison => ?_⟩
    · have hready : MmbwdReady (s.core (coreKey c)) m :=
        { kept := hkeep, weights := fun h => by rw [wReady, hyf]; exact hw h, dyRows := hyr, dyFull := hyst, dyFmt := hyf, dySound := hyp
          dxRows := hxr, dxFull := hxst, dxClass := hxc, dxSound := hxp, zState := hzst, zRoom := hzr, zSound := hzp }
      refine ⟨_, execMmbwd_next hr hk hidle hready, ?_⟩
      simp only [State.core_retire_same, State.core_updCore_same, core_groupsRun hidle.ungrouped, loopStep_bg, loopStep_tile]
      exact acceptMmbwd_idle hidle hready rfl
    · refine ⟨_, execZdrain_next hr hk hidle acc hst hroom hpoison, ?_⟩
      simp only [State.core_retire_same, State.core_updCore_same, core_groupsRun hidle.ungrouped, loopStep_bg, loopStep_tile]
      exact acceptZdrain_idle hidle _ _ acc
    · have haccepted := fun {i : Instr} {form : Nat} hi =>
        execGacc_accepted (i := i) (form := form) hr hk hidle hi hgrad hrows hend hrow hst hpoison
      obtain ⟨t, ht, hbgAdd, -⟩ := haccepted (i := .gaccAdd c z a) rfl
      obtain ⟨u, hu, hbgPut, -⟩ := haccepted (i := .gaccPut c z a) rfl
      obtain ⟨v, hv, hbgGet, hfull⟩ := haccepted (i := .gaccGet c z a) rfl
      exact ⟨⟨t, ht, hbgAdd⟩, ⟨u, hu, hbgPut⟩, v, hv, hbgGet, hfull rfl⟩
  · intro dy dx xf w z acc keep tw held hbg hdy hdx hz hz' hw
    have hdyw : dy ≠ wCode 0 w := by rw [wCode]; omega
    obtain ⟨hbg', hmode, hatok, hload⟩ := mmbwd_work (s := s) (k := coreKey c) (dx := dx) (xf := xf) (z := z) (acc := acc) (keep := keep)
      (tw := tw) (held := held) hdyw
    refine ⟨_, execMmbwdRun_alone hp hbg hw, ?_⟩
    rw [State.core_updCore_same]
    generalize hy : (s.mmbwd (coreKey c) dy dx xf (wCode 0 w) z acc keep tw held).core (coreKey c) = y at hbg' hmode hatok hload ⊢
    refine ⟨?_, hmode, hatok, hload, fun hdyBad hdxBad hzBad hwBad => ?_⟩
    · rw [Core.dropBg, hbg', hbg]
      rfl
    · have hsums := mmbwd_sound harm hdy hdx (by rw [wCode]; omega) ⟨hz, by omega⟩ hdyBad hdxBad hzBad hwBad xf acc tw held hy
      exact hsums
  · intro z roff acc held hbg hnone
    refine ⟨_, execZdrainWave_takes hp hbg hnone, ?_⟩
    rw [sysRead_bstat, bstat_dsh, State.core_updCore_same]
    exact ⟨rfl, rfl, rfl, rfl, _, rfl, rfl, decide_eq_true_iff, rfl⟩
  · intro z roff held w hbg hsome hz hz'
    obtain ⟨hbg', hshadow, hrows⟩ := drain_copies harm (z := z) (decide_eq_true (by omega)) roff held w
    refine ⟨_, execZdrainWave_writes hp hbg hsome, ?_⟩
    rw [sysRead_bstat, bstat_dsh, State.core_updCore_same]
    refine ⟨?_, hshadow, by rw [Core.dropBg, hshadow]; rfl, hrows⟩
    rw [Core.dropBg, hbg', hbg]
    rfl
  · intro z row hbg hz hz' hbad
    obtain ⟨hbg', hrows⟩ := gacc_put_copies harm hbad row
    refine ⟨_, execGaccRun_alone hp hbg, ?_⟩
    rw [State.core_updCore_same]
    refine ⟨?_, hrows⟩
    rw [Core.dropBg, hbg', hbg]
    rfl
  · intro z row held hbg hz hz' hbad hmark
    obtain ⟨hbg', hrows⟩ := gacc_get_copies harm (z := z) (decide_eq_true (by omega)) hbad hmark row held
    refine ⟨_, execGaccRun_alone hp hbg, ?_⟩
    rw [State.core_updCore_same]
    refine ⟨?_, hrows⟩
    rw [Core.dropBg, hbg', hbg]
    rfl
end
